-- ==== Sys2Proof/Word.lean ====
section
/-! DEFINITION. The word types of the Xorun model and the operand types of its commands. -/

namespace Sys2Proof

abbrev Byte := BitVec 8
abbrev Bytes := List Byte
abbrev W32 := BitVec 32
abbrev W64 := BitVec 64
/-- A line key, salt included nowhere: 256 key bits. -/
abbrev Key := BitVec 256
abbrev Salt := BitVec 96
abbrev NatList := List Nat

/-- Sparse data by number: rising keys; an unlisted number reads as a default. A write of the default unlists its number. -/
abbrev Tab (α : Type) := List (Nat × α)

/-- Mailboxes MB0–MB15 (R363). -/
abbrev Mb := Fin 16
/-- Ports as shapers number them (R203): 0–47 host, 48–95 line. -/
abbrev Port := Fin 96
/-- A host or line port of its own side, 0–47. -/
abbrev LPort := Fin 48
/-- A Wellhead: 0–47 of line ports L0–L47, 48 of the mated link (R285). -/
abbrev WPort := Fin 49
abbrev ClusterNo := Fin 34
abbrev SgNo := Fin 16
abbrev DomNo := Fin 81
abbrev RingNo := Fin 17
abbrev LaNo := Fin 2
abbrev VecNo := Fin 64
abbrev SrcNo := Fin 13

/-- The two PCIe functions (R360). -/
inductive Pf where
  | pf0 | pf1
  deriving DecidableEq, Repr

/-- The two directions of a channel (R19). -/
inductive Dir where
  | enc | dec
  deriving DecidableEq, Repr

/-- What the memories' checks report of a Reservoir access (Table 9-5): nothing, an error that the HBM3E's ECC corrects on a stack, an
uncorrectable error or a failed stack, parity in the IME's write counters, generations or sweep pointer. -/
inductive Ecc where
  | ok
  | corrected (stack : Nat)
  | uncorrectable
  | imeState
  deriving DecidableEq, Repr

/-- What the checks of the memories find while a command reads them (Table 9-5, Table 5-9): granules of the frame, by their places in its
chain, whose data bytes fail their parity; parity in the link RAM and in the channel's SA state; a key in error on its arrival at a
cluster; and what its Reservoir accesses meet. -/
structure Errs where
  data : NatList := []
  link : Bool := false
  sa : Bool := false
  bus : Bool := false
  ecc : Ecc := .ok
  deriving DecidableEq, Repr

/-- What a command acts on, with what the checks of the memories find on the way. -/
structure Met (α ε : Type) where
  it : α
  met : ε
  deriving DecidableEq, Repr

/-- A write of one region's registers by Gydom (R273): its number and the three words. -/
structure RegionSet where
  n : Nat
  lo : W32
  hi : W32
  attr : W32
  deriving DecidableEq, Repr

/-- Who ends a hold of the access checker: a PCIe function that writes MPU_CTRL.EN, or Gydom, with its updates of regions 4 to 11
(R273). -/
inductive Releaser where
  | host (pf : Pf)
  | gydom (regions : List RegionSet)
  deriving DecidableEq, Repr

/-- The IEEE 1149.1 instructions R310 names, and every other one. -/
inductive TapInstr where
  | extest | intest | clamp | highz | bypass | other
  deriving DecidableEq, Repr

/-- The kinds of key line the re-mask sweeper visits (R163): channel slot, general slot, inline-memory key
(2k + generation) and internal key (its handle). -/
inductive KeySpace where
  | chan | general | ime | internal
  deriving DecidableEq, Repr

/-- One OBJ.SET entry (R393): object ID, LEN and value, and whether its reserved bytes and padding are zero. -/
structure SetEntry where
  id : Nat
  len : Nat
  value : Nat
  clean : Bool := true
  deriving DecidableEq, Repr

/-- An OBJ.SET body (R393): the entries, and whether the reserved field after count is zero. -/
structure Entries where
  list : List SetEntry
  reservedZero : Bool := true
  deriving DecidableEq, Repr

/-- The body of OBJ.BULK_READ and OBJ.BULK_WRITE (R396). -/
structure BulkReq where
  cls : Nat
  codes : List Nat
  first : Nat
  count : Nat
  addr : Nat
  colour : Nat
  deriving DecidableEq, Repr

/-- The body of KEY.DERIVE (Table 16-2); space 0 is a channel slot, 1 a general slot. -/
structure DeriveReq where
  space : Nat
  slot : Nat
  source : Nat
  attr : Nat
  label : Bytes
  context : Bytes
  deriving DecidableEq, Repr

/-- The host classification key (R25): host port, outer tag and inner tag, each tag absent or a VID. -/
structure ClassKey where
  hport : Nat
  outer : Option Nat
  inner : Option Nat
  deriving DecidableEq, Repr

/-- One cluster's report of a meter round (R173): m_c in M slots/s, temperature in 0.1 °C, VDD_CORE in mV. -/
structure Reading where
  meter : Nat
  temp : Int
  vdd : Nat
  deriving DecidableEq, Repr

abbrev Readings := List Reading

/-- One host port's load of the last millisecond (R195): the larger of its ingress and egress load in percent of
its rate, and its measured slot rate in M slots/s. -/
structure PortLoad where
  pct : Nat
  slots : Nat
  deriving DecidableEq, Repr

abbrev Loads := List PortLoad

/-- What the boot steps of Table 11-12 find in the hardware. -/
structure BootReport where
  fuseBad : Bool := false
  refclkBad : Bool := false
  entropyBad : Bool := false
  katBad : Bool := false
  keySramBad : Bool := false
  linkRamBad : Bool := false
  hbmBad : Bool := false
  badGranules : List Nat := []
  badClusters : List Nat := []
  badGroups : List Nat := []
  calBad : Bool := false
  avsReading : Option Nat := none
  deriving DecidableEq, Repr

/-- A memory access by a master (R268): its ID (Table 9-10), colour, world bit number (Table 14-1), device address, and
the bytes it writes or the number it reads. -/
structure Access where
  master : Nat
  colour : Nat
  world : Nat
  addr : Nat
  write : Option Bytes
  len : Nat
  deriving DecidableEq, Repr

/-- A BAR2 write's bytes with their byte enables: none is a byte not enabled (R373). -/
abbrev MaskedBytes := List (Option Byte)

/-- Watermark entries (Table 10-7): channel slot number and watermark. -/
abbrev Marks := List (Nat × Nat)

end Sys2Proof
end

