-- ==== Sys2Proof/Syntax.lean ====
section
/-! DEFINITION. The commands of the Xorun block: one constructor per row of spec/opcode_table.json. -/

namespace Sys2Proof

/-- A command to the block: a mailbox command as Gydom executes it, a register access, an event on a pin, port or link,
or an event of one of the block's own engines. -/
inductive Instr where
  /-- SYS_STATUS (R365): returns part, stepping, mode, lifecycle, halt cause, pair state, active cluster count, boot status and network time; it needs no session and is allowed in every mode. -/
  | sysStatus (mb : Mb)
  /-- SYS_MODE (R304): requests a mode transition, which succeeds only where Table 11-1 allows it. -/
  | sysMode (mb : Mb) (target : Nat)
  /-- SYS_LIFECYCLE (R308): blows the fuse group of the target lifecycle state DEBUG or RETIRED, then applies that transition's effect. -/
  | sysLifecycle (mb : Mb) (target : Nat) (confirm : Nat)
  /-- SYS_RESET (R311): writes its response, then a warm or cold reset takes effect 5 µs later. -/
  | sysReset (mb : Mb) (kind : Nat)
  /-- SYS_HALT (R283): writes its OK response, then halts the device with cause COMMAND within 10 µs. -/
  | sysHalt (mb : Mb) (confirm : Nat)
  /-- SYS_TIME_STEP (R232): steps network time at the next tick, arms the step for the next PPS_IN edge, or cancels an armed step. -/
  | sysTimeStep (mb : Mb) (seconds : Nat) (ns : Nat) (atPps : Nat)
  /-- SYS_PATCH_LOAD (R398): checks a signed patch image, writes it to the unselected slot, verifies it and flips the slot selector. -/
  | sysPatchLoad (mb : Mb) (addr : Nat) (len : Nat) (colour : Nat)
  /-- SYS_PATCH_INFO (R399): returns the applied patch serial, the serials held in both slots, the selected slot and patch_floor. -/
  | sysPatchInfo (mb : Mb)
  /-- AUTH_OPEN (R368): opens an OPERATOR, OBSERVER or enrolment session, or issues an officer challenge under a general slot. -/
  | authOpen (mb : Mb) (world : Nat) (gslot : Nat)
  /-- AUTH_PROVE (R368): checks the CMAC proof of an officer challenge and, when it is correct and in time, opens the OFFICER session. -/
  | authProve (mb : Mb) (proof : Nat)
  /-- AUTH_CLOSE (R369): closes the session open on the mailbox. -/
  | authClose (mb : Mb)
  /-- OBJ_GET (R392): reads up to 30 object attributes and returns a status per entry. -/
  | objGet (mb : Mb) (ids : NatList)
  /-- OBJ_SET (R393): checks up to 30 attributes of one instance in order and applies them together or not at all. -/
  | objSet (mb : Mb) (entries : Entries)
  /-- OBJ_BULK_READ (R396): writes records of the listed attributes for a range of instances to a device buffer. -/
  | objBulkRead (mb : Mb) (req : BulkReq)
  /-- OBJ_BULK_WRITE (R396): applies each instance's record from a device buffer as one OBJ.SET, in ascending order, and stops at the first failure. -/
  | objBulkWrite (mb : Mb) (req : BulkReq)
  /-- KEY_IDENTITY (R431): writes the import encapsulation key, the import P-384 public key and device_id to a device buffer. -/
  | keyIdentity (mb : Mb) (addr : Nat) (colour : Nat)
  /-- KEY_IMPORT (R158): opens a hybrid ML-KEM/ECDH import blob, runs its checks and installs the key into the named slot. -/
  | keyImport (mb : Mb) (addr : Nat) (len : Nat) (colour : Nat)
  /-- KEY_GENERATE (R138): installs DRBG output into a slot after a prediction-resistant reseed. -/
  | keyGenerate (mb : Mb) (space : Nat) (slot : Nat) (attr : Nat)
  /-- KEY_DERIVE (R143): derives a key by KDF under a DERIVE slot, with the caller's label and context, into a slot. -/
  | keyDerive (mb : Mb) (req : DeriveReq)
  /-- KEY_WRAP (R153): exports an EXPORTABLE general slot wrapped under a WRAP slot to a device buffer, charging one use. -/
  | keyWrap (mb : Mb) (gslot : Nat) (wrapping : Nat) (addr : Nat) (colour : Nat)
  /-- KEY_UNWRAP (R151): unwraps a wrapped key into a general slot under an UNWRAP slot and validates its attribute word. -/
  | keyUnwrap (mb : Mb) (target : Nat) (unwrapping : Nat) (addr : Nat) (colour : Nat)
  /-- KEY_RESTRICT (R155): clears attribute bits of a VALID general slot, or lowers its USES_LEFT. -/
  | keyRestrict (mb : Mb) (gslot : Nat) (uses : Nat) (clear : Nat)
  /-- KEY_DESTROY (R156): zeroes a slot's line, and its persist record if any, and makes the slot EMPTY. -/
  | keyDestroy (mb : Mb) (space : Nat) (slot : Nat)
  /-- KEY_ZEROIZE (R166): writes its OK response, then drives the destruction line within 10 µs. -/
  | keyZeroize (mb : Mb) (confirm : Nat)
  /-- CHAN_CREATE (R390): moves a FREE channel to CONFIG with every attribute at its default. -/
  | chanCreate (mb : Mb) (chan : Nat)
  /-- CHAN_SET (R24): changes writable channel record attributes, subject to state limits and the configuration checks. -/
  | chanSet (mb : Mb) (entries : Entries)
  /-- CHAN_ENABLE (R23): runs the configuration checks and makes the channel ACTIVE, or leaves it in CONFIG with its enable pending for MKA. -/
  | chanEnable (mb : Mb) (chan : Nat)
  /-- CHAN_DISABLE (R22): stops admission to the channel at once and starts its drain, or frees a CONFIG channel immediately. -/
  | chanDisable (mb : Mb) (chan : Nat)
  /-- CHAN_SWITCH (R50): flips the channel's phase to a newly installed slot between two dispatches. -/
  | chanSwitch (mb : Mb) (chan : Nat)
  /-- CHAN_MAP (R26): places a host classification entry in its hash bucket or in the overflow array. -/
  | chanMap (mb : Mb) (chan : Nat) (key : ClassKey)
  /-- CHAN_UNMAP (R27): removes a host classification entry. -/
  | chanUnmap (mb : Mb) (key : ClassKey)
  /-- CA_CREATE (R390): creates an MKA connectivity association bound to a channel in CONFIG and sets chan.ca. -/
  | caCreate (mb : Mb) (ca : Nat) (chan : Nat) (cakGslot : Nat)
  /-- CA_SET (R59): changes CA attributes, subject to the MKPDU rate limit. -/
  | caSet (mb : Mb) (entries : Entries)
  /-- CA_REKEY (R60): triggers a rekey of a CA, with an optional start offset. -/
  | caRekey (mb : Mb) (ca : Nat) (offsetMs : Nat)
  /-- CA_DELETE (R390): deletes a CA whose channel is not ACTIVE or FROZEN. -/
  | caDelete (mb : Mb) (ca : Nat)
  /-- LINK_SET (R72): changes the sealed link settings of a line port. -/
  | linkSet (mb : Mb) (entries : Entries)
  /-- LINK_RESTART (R74): checks the link master and starts a new sealed session with a fresh session nonce. -/
  | linkRestart (mb : Mb) (lport : Nat)
  /-- SCHED_POLICER (R201): changes a policer record, which applies from the next frame. -/
  | schedPolicer (mb : Mb) (entries : Entries)
  /-- SCHED_SHAPER (R204): changes a channel or port-class shaper, subject to the bound conditions. -/
  | schedShaper (mb : Mb) (entries : Entries)
  /-- SCHED_WEIGHT (R210): sets a channel's guaranteed rates or weights and runs the configuration checks. -/
  | schedWeight (mb : Mb) (entries : Entries)
  /-- SCHED_GATE_LOAD (R214): copies gate list entries from a device buffer into the administrative bank. -/
  | schedGateLoad (mb : Mb) (q : Nat) (count : Nat) (cycleNs : Nat) (addr : Nat) (colour : Nat)
  /-- SCHED_GATE_COMMIT (R215): computes the start S of the loaded gate list, runs the checks and marks the commit pending. -/
  | schedGateCommit (mb : Mb) (q : Nat) (baseSec : Nat) (baseNs : Nat)
  /-- SCHED_GATE_CANCEL (R216): clears a pending gate commit when S has not yet passed. -/
  | schedGateCancel (mb : Mb) (q : Nat)
  /-- PAIR_BIND (R286): binds the partner's identity in the NVM and fixes the pair roles. -/
  | pairBind (mb : Mb) (addr : Nat) (colour : Nat)
  /-- PAIR_UNBIND (R286): erases the pair binding and destroys the pair keys. -/
  | pairUnbind (mb : Mb)
  /-- PAIR_SOLO (R290): makes a device whose mated link has not keyed the lease holder and marks the pair NOT_READY. -/
  | pairSolo (mb : Mb)
  /-- PAIR_HANDOVER (R302): starts a planned handover of the lease to a READY partner. -/
  | pairHandover (mb : Mb)
  /-- PAIR_SET (R288): changes pair policy attributes on the holder. -/
  | pairSet (mb : Mb) (entries : Entries)
  /-- CL_TEST (R280): tests one named cluster by rotation and reports whether it is now SPARE or RETIRED. -/
  | clTest (mb : Mb) (cluster : Nat)
  /-- PMU_SET (R181): changes pmu attributes, or lowers a pace table entry. -/
  | pmuSet (mb : Mb) (entries : Entries)
  /-- CAL_READ (R334): writes the whole calibration set to a device buffer. -/
  | calRead (mb : Mb) (addr : Nat) (colour : Nat)
  /-- CAL_WRITE (R335): checks a new calibration set and writes it to the NVM, to act at the next reset. -/
  | calWrite (mb : Mb) (addr : Nat) (colour : Nat)
  /-- CAL_HBM_TEST (R320): runs a pattern test of the drained Reservoir and reports the failing lines. -/
  | calHbmTest (mb : Mb) (failing : Met NatList Bool)
  /-- CAL_SERDES (R319): recalibrates the lanes of a SerDes group of an administratively down port, or returns DEFERRED. -/
  | calSerdes (mb : Mb) (q : Nat)
  /-- LOG_TAMPER (R391): returns Standpipe log records from a given SEQ onward. -/
  | logTamper (mb : Mb) (first : Nat) (count : Nat)
  /-- LOG_FAULTS (R391): returns fault log records from a given index onward. -/
  | logFaults (mb : Mb) (first : Nat) (count : Nat)
  /-- LA_RESET (R390): sets the ring indices of an idle, disabled lookaside queue Q0 to zero. -/
  | laReset (mb : Mb) (queue : Nat)
  /-- PERF_SET (R354): reprograms a counter or the sampler, and clears the live counter at one tick. -/
  | perfSet (mb : Mb) (entries : Entries)
  /-- PERF_SUMP_READ (R357): copies the per-port or per-channel discard table, at one tick, to a device buffer. -/
  | perfSumpRead (mb : Mb) (table : Nat) (addr : Nat) (colour : Nat)
  /-- DP_CLAIM (R371): claims the data port for the calling session. -/
  | dpClaim (mb : Mb)
  /-- DP_RELEASE (R371): releases the data port and clears DP_CTRL.EN. -/
  | dpRelease (mb : Mb)
  /-- MAILBOX_DOORBELL (R363): a doorbell sets BUSY and starts request checks and execution, or is dropped with DB_REJ while BUSY. -/
  | mailboxDoorbell (pf : Pf) (mb : Mb)
  /-- MAILBOX_REQ_WRITE (R364): a write to a mailbox request buffer, dropped with WR_REJ while BUSY. -/
  | mailboxReqWrite (pf : Pf) (mb : Mb) (offset : Nat) (value : W32)
  /-- MAILBOX_RESPONSE (R363): gydom writes the whole response, then BUSY clears, DONE sets and EV_MBXn may be raised. -/
  | mailboxResponse (mb : Mb)
  /-- SESSION_IDLE_EXPIRE (R369): an OFFICER session closes after officer_idle_s without a request that passes check 7. -/
  | sessionIdleExpire (mb : Mb)
  /-- TIME_NOW_READ (R229): a read of TIME_NOW_NS latches the whole counter into the reading function's snapshot. -/
  | timeNowRead (pf : Pf)
  /-- RTC_READ (R428): a read of STP_RTC_SUB latches STP_RTC_SEC. -/
  | rtcRead (pf : Pf)
  /-- TIME_INCR_WRITE (R230): sets the rate adjustment from the next tick, or sets INCR_REJ when out of range. -/
  | timeIncrWrite (pf : Pf) (adj : W32)
  /-- STEP_GO (R231): gO with AT_PPS = 0 sets network time to the step target at the next tick and marks the step spent. -/
  | stepGo (pf : Pf) (cancel : Bool)
  /-- STEP_ARM (R231): gO with AT_PPS = 1 arms the step for the next PPS_IN rising edge. -/
  | stepArm (pf : Pf) (cancel : Bool)
  /-- STEP_CANCEL (R231): cANCEL disarms an armed step without spending it. -/
  | stepCancel (pf : Pf) (atPps : Bool)
  /-- STEP_LAPSE (R231): an armed step with no PPS_IN edge 2 s after GO lapses and sets STEP_REJ. -/
  | stepLapse
  /-- TSQ_POP (R241): removes the head entry of a transmit time-stamp queue. -/
  | tsqPop (pf : Pf) (q : Port)
  /-- PPS_IN_EDGE (R246): a PPS_IN rising edge is time-stamped into TIME_PPSIN and completes an armed step. -/
  | ppsInEdge
  /-- TOD_RECEIVE (R249): a ToD message on TOD_RX is checked and copied to TIME_TODIN, or sets TODIN_BAD. -/
  | todReceive (message : Bytes) (gapOk : Bool)
  /-- SECOND_BOUNDARY (R245): at each second boundary the per-second latches copy and clear, PPS_OUT rises and EV_SECOND is raised. -/
  | secondBoundary
  /-- PPS_OUT_FALL (R246): pPS_OUT falls WIDTH_MS after the boundary that raised it. -/
  | ppsOutFall
  /-- TOD_SEND (R247): a ToD message naming the next edge's second is sent 200 ms after each second boundary. -/
  | todSend
  /-- PMU_DOM_REQ_RET (R323): requests that a host-switched domain go to RET, subject to its condition. -/
  | pmuDomReqRet (pf : Pf) (dom : DomNo) (cmdWake : Bool) (wake : Bool)
  /-- PMU_DOM_REQ_OFF (R323): requests that a host-switched domain go to OFF, subject to its condition. -/
  | pmuDomReqOff (pf : Pf) (dom : DomNo) (cmdWake : Bool) (wake : Bool)
  /-- PMU_DOM_REQ_ON (R323): requests that a domain return to ON, which acts as a wake. -/
  | pmuDomReqOn (pf : Pf) (dom : DomNo) (cmdWake : Bool)
  /-- DOMAIN_CHANGE_DONE (R323): an accepted sleep request reaches RET or OFF and RESULT reads DONE. -/
  | domainChangeDone (dom : DomNo)
  /-- DOMAIN_WAKE_DONE (R324): a woken domain reaches ON after its wake latency. -/
  | domainWakeDone (dom : DomNo)
  /-- OFF_DOMAIN_ACCESS (R327): a PF0 register access to a domain that is not ON reads all ones or drops the write, and is counted and captured. -/
  | offDomainAccess (pf : Pf) (offset : Nat) (write : Bool)
  /-- PACE_LIMIT_WRITE (R181): a write of PMU_PACE_LIMIT sets the highest pace, applying through R177 from the next meter round. -/
  | paceLimitWrite (pf : Pf) (value : W32)
  /-- AVS_TARGET_WRITE (R330): a write of the VDD_CORE setpoint, ordered against the pace by R179. -/
  | avsTargetWrite (pf : Pf) (value : W32) (busOk : Bool)
  /-- AVS_LOWER_ISSUE (R179): a held lowering of VDD_CORE is issued over AVSBus once p_disp has followed the lowered pace. -/
  | avsLowerIssue (busOk : Bool)
  /-- AVS_CONFIRM (R179): the cluster sensors hold the new setpoint for 10 µs, so CONFIRMED updates and BUSY clears. -/
  | avsConfirm
  /-- AVS_TELEMETRY (R329): every 1 ms the regulator's voltage, current, temperature and status are read, with retries. -/
  | avsTelemetry (vout : Nat) (iout : Nat) (temp : Nat) (busOk : Bool)
  /-- METER_ROUND (R176): every 10 µs the pump meters report and the new pace, capacity and shedding tier are computed. -/
  | meterRound (readings : Readings)
  /-- PACE_DISP_FOLLOW (R177): p_disp takes the lower pace once every frame accepted under the higher p_adm has entered a cluster. -/
  | paceDispFollow
  /-- DOWNSHIFT_EVAL (R195): every millisecond the demand is estimated and surplus ACTIVE clusters are moved to IDLE. -/
  | downshiftEval (loads : Loads)
  /-- SAG_WARN (R332): a sag comparator trips at the warning threshold, raising EV_SAG_WARN and lowering both paces within 100 ns. -/
  | sagWarn (point : Nat)
  /-- SAG_WARN_CLEAR (R332): the sag warning clears once every point has read at or above setpoint less 4 % for 10 µs. -/
  | sagWarnClear
  /-- SAG_RESET (R332): a sag comparator trips at the reset threshold, sends HALTING with cause POWER and causes a cold reset. -/
  | sagReset
  /-- MAIN_POWER_LOST (R343): main power falls away, the Standpipe moves to the backup cells and a MAIN_LOST record is written. -/
  | mainPowerLost
  /-- MAIN_POWER_BACK (R343): main power returns and a MAIN_BACK record is written. -/
  | mainPowerBack
  /-- POWER_ON (R311): main power rising causes a cold reset of code 0. -/
  | powerOn
  /-- RESET_N_RECOGNISED (R311): rESET_N low for 1 µs is recognised, and HALTING is sent to the partner. -/
  | resetNRecognised
  /-- RESET_EFFECT (R312): a reset takes effect 5 µs after recognition and clears state as Table 11-6 gives for its kind. -/
  | resetEffect
  /-- RESET_RELEASE (R313): release of reset starts the boot sequence. -/
  | resetRelease (boot : BootReport)
  /-- BOOT_END (R304): at the end of boot Gydom enters ENROL, PROVISION or RECOVERY. -/
  | bootEnd
  /-- SERVICE_ENTRY (R314): after the first meter round with every ACTIVE cluster powered, SYS.MODE SERVICE recomputes enable bits, joins the lease and enables admission. -/
  | serviceEntry
  /-- GLB_RESET_COLD (R311): a keyed write of GLB_RESET.COLD causes a cold reset of code 3. -/
  | glbResetCold (pf : Pf) (key : Nat)
  /-- GLB_RESET_WARM (R311): a keyed write of GLB_RESET.WARM causes a warm reset of code 4. -/
  | glbResetWarm (pf : Pf) (key : Nat)
  /-- PCIE_FLR (R312): a function-level reset resets that function's blocks and closes the sessions of its mailboxes. -/
  | pcieFlr (pf : Pf)
  /-- PCIE_HOT_RESET (R416): a PCIe hot reset, or PCIE_PERST_N, acts as a function-level reset of both functions. -/
  | pcieHotReset
  /-- FUSE_PROGRAM_DONE (R308): fuse programming completes and the lifecycle transition's effect follows. -/
  | fuseProgramDone
  /-- REFCLK_SYS_LOST (R16): loss of REFCLK_SYS halts the device with cause REFCLK. -/
  | refclkSysLost
  /-- REFCLK_SG_LOST (R16): loss of a SerDes group's reference clock takes its ports down as a DEGRADE fault. -/
  | refclkSgLost (group : SgNo)
  /-- HOST_FRAME_RECEIVE (R9): a complete host frame is checked for length and FCS, filtered, classified, policed and tested at admission. -/
  | hostFrameReceive (hport : LPort) (frame : Bytes) (fcsOk : Bool) (entryOk : Bool)
  /-- LINE_FRAME_RECEIVE (R37): a standard-mode line frame runs the receive checks, policer, admission and replay check. -/
  | lineFrameReceive (lport : LPort) (frame : Bytes) (fcsOk : Bool)
  /-- REPLAY_RECHECK (R42): a frame waiting on an earlier frame with the same PN is checked again once that frame's ICV result is known. -/
  | replayRecheck (fid : Nat)
  /-- CELL_RECEIVE (R94): a cell header is checked for delineation, with one-bit correction in SYNC, and its body is parsed when KEYED. -/
  | cellReceive (wport : WPort) (octets : Bytes)
  /-- SEALED_FRAME_CLOSE (R89): a frame closed by LAST is checked in the order of Table 3-6. -/
  | sealedFrameClose (lport : LPort)
  /-- ANNOUNCE_RECEIVE (R95): a verified epoch announce makes the receiver KEYED and derives its keys. -/
  | announceReceive (wport : WPort)
  /-- HEARTBEAT_RECEIVE (R96): a kind 0x02 segment that passes its ICV clears dLHB. -/
  | heartbeatReceive (wport : WPort)
  /-- RDI_RECEIVE (R97): an accepted RDI segment sets dRDI and raises EV_RDI. -/
  | rdiReceive (wport : WPort)
  /-- PTP_SEGMENT_RECEIVE (R92): a link-channel PTP segment is time-stamped with its carrying cell and punted to its ring. -/
  | ptpSegmentReceive (lport : LPort)
  /-- DLOD_SET (R96): dLOD sets after 125 µs continuously out of SYNC. -/
  | dlodSet (wport : WPort)
  /-- DLOD_CLEAR (R96): dLOD clears after 125 µs continuously in SYNC. -/
  | dlodClear (wport : WPort)
  /-- DLHB_SET (R96): dLHB sets when no control segment has passed its ICV for 100 µs in SYNC. -/
  | dlhbSet (wport : WPort)
  /-- DRDI_CLEAR (R97): dRDI clears after 100 µs KEYED without an RDI. -/
  | drdiClear (wport : WPort)
  /-- CELL_TRANSMIT (R85): in every cell slot the Wellhead builds and sends one cell with its header, keystream-covered segments and fill. -/
  | cellTransmit (wport : WPort)
  /-- EPOCH_KEY_DERIVE (R75): when SEQ reaches 2^39, the keys of the next epoch are derived. -/
  | epochKeyDerive (wport : WPort)
  /-- EPOCH_CHANGE (R70): when SEQ wraps, the epoch increases, KP toggles and the new keys take effect. -/
  | epochChange (wport : WPort)
  /-- EPOCH_END (R71): when the epoch would pass 2^32 − 1, the port stops sending cells and raises EV_LOD with cause EPOCH_END. -/
  | epochEnd (wport : WPort)
  /-- ANNOUNCE_SEND (R91): an epoch announce is sent at each session and epoch start and at least every ann_us. -/
  | announceSend (wport : WPort)
  /-- HEARTBEAT_SEND (R91): a HEARTBEAT control message is sent at least every 10 µs. -/
  | heartbeatSend (wport : WPort)
  /-- RDI_SEND (R97): an RDI message is sent every 10 µs while the local receiver has dLOD or dLHB. -/
  | rdiSend (wport : WPort)
  /-- PUMP_RELEASE (R207): the Pump releases the frame of least virtual finish tag to dispatch, within the array and port limits. -/
  | pumpRelease (q : Port)
  /-- REQUEST_DISPATCH (R105): assigns the PN and nonce, places the request on a cluster and fetches its key over the key bus. -/
  | requestDispatch (fid : Nat) (errs : Errs) (word : Bool)
  /-- EXPRESS_SUSPEND (R113): an express request at the head of the queue takes a free pipeline or suspends the non-express request with the most slots left. -/
  | expressSuspend (cluster : ClusterNo)
  /-- REQUEST_COMPLETE (R112): a request completes; its result is released, or for decrypt held until PASS, while FAIL is handled by R14. -/
  | requestComplete (req : Met Nat Errs)
  /-- CLUSTER_FAULT (R118): an illegal rail state or a repeated mask word sets the cluster's fault flag, so its requests are discarded and the cluster is retired. -/
  | clusterFault (cluster : ClusterNo)
  /-- HANDSHAKE_TIMEOUT (R116): a handshake not complete 500 ns after it began sets the cluster fault flag. -/
  | handshakeTimeout (cluster : ClusterNo)
  /-- SPARE_KAT_DONE (R278): a spare completes its known-answer test and becomes ACTIVE, or is retired. -/
  | spareKatDone (cluster : ClusterNo) (pass : Bool)
  /-- ROTATION_STEP (R280): gydom brings a spare ACTIVE, drains the next cluster and starts its self-test. -/
  | rotationStep
  /-- CLUSTER_TEST_DONE (R280): a cluster's self-test ends and the cluster becomes SPARE or RETIRED. -/
  | clusterTestDone (cluster : ClusterNo) (pass : Bool)
  /-- ROTATION_RESUME (R281): rotation resumes 1 s after a retirement completes. -/
  | rotationResume
  /-- TRANSMIT_START (R209): the egress MAC picks the next complete frame that the gates allow, checks its deadline and starts transmission. -/
  | transmitStart (q : Port) (errs : Errs)
  /-- GATE_ENTRY (R217): at each gate list entry's start tick the class gates take the entry's states and its MAC hold or release is issued. -/
  | gateEntry (q : Port)
  /-- GATE_SWAP (R215): at S the gate list banks swap and the new list starts. -/
  | gateSwap (q : Port)
  /-- LAUNCH (R242): a held launch frame starts so that its time-stamp point passes within [L, L + 2 ns). -/
  | launch (q : Met Port Errs)
  /-- SPILL_WRITE (R225): the spill engine writes an accepted Best frame to the port's Reservoir spill area and frees its granules. -/
  | spillWrite (fid : Nat) (errs : Errs)
  /-- SPILL_RETURN (R226): when a channel's Cistern bytes fall below 32 KiB, its spilled frames return to the Cistern in queue order. -/
  | spillReturn (chan : Nat) (dir : Met Dir Ecc)
  /-- LINK_DOWN (R432): an egress port that goes down or loses its domain discards all its accepted queued frames. -/
  | linkDown (q : Port)
  /-- QUARANTINE_TEST (R256): gydom pattern-tests a quarantined granule within 1 ms and frees it or holds it. -/
  | quarantineTest (granule : Nat) (pass : Bool)
  /-- CLASS_ENTRY_REWRITE (R30): gydom rewrites a classification entry invalidated by parity from its Reservoir copy. -/
  | classEntryRewrite (key : ClassKey)
  /-- CHAN_DRAIN_DONE (R22): when a disabled channel has no frames left, its slots are destroyed and it becomes FREE. -/
  | chanDrainDone (chan : Nat)
  /-- SLOT_RETIRE (R51): the superseded slot is destroyed retire_ms after a switch. -/
  | slotRetire (chan : Nat)
  /-- MKPDU_RECEIVE (R55): gydom processes a received MKPDU for its CA, including peer liveness, SAK installation and key server switches. -/
  | mkpduReceive (ca : Nat) (link : Bool)
  /-- MKPDU_SEND (R58): gydom sends a CA's MKPDU each hello interval. -/
  | mkpduSend (ca : Nat)
  /-- PEER_LIFE_EXPIRE (R58): a peer not heard from within the MKA Life Time stops being live. -/
  | peerLifeExpire (ca : Nat) (peer : Nat)
  /-- REKEY_INTERVAL (R60): rekey_s elapsing since the last switch triggers a rekey of the CA. -/
  | rekeyInterval (ca : Nat)
  /-- REKEY_START (R61): a due rekey starts, at most 64 CAs per millisecond, and generates the SAK into the next slot. -/
  | rekeyStart (ca : Nat)
  /-- ZEROIZE_COMPLETE (R167): the key store reports ZEROIZED within 20 µs, and the halt with cause ZEROIZE follows. -/
  | zeroizeComplete
  /-- LOCKSTEP_MISMATCH (R275): the control cores disagree in lockstep, which halts the device. -/
  | lockstepMismatch
  /-- MASTER_ACCESS (R268): a master's memory access is checked by the access checker and, for the Reservoir, crosses IME. -/
  | masterAccess (acc : Access) (ecc : Ecc)
  /-- MPU_HOLD (R272): writing MPU_CTRL.EN = 0 holds new master accesses while checked ones drain. -/
  | mpuHold (by_ : Option Pf)
  /-- MPU_DRAINED (R272): when all checked accesses have completed, HELD sets. -/
  | mpuDrained
  /-- MPU_RELEASE (R272): writing MPU_CTRL.EN = 1 compares regions for overlap and releases held accesses under the new rules. -/
  | mpuRelease (by_ : Releaser)
  /-- MPU_HOLD_LONG (R274): a hold lasting 200 µs sets HOLD_LONG and raises EV_MPU_FAULT. -/
  | mpuHoldLong
  /-- IME_SWEEP_REQUEST (R263): iME_SWEEP_REQ.GO sets the pending bit of a key index from 8 to 63. -/
  | imeSweepRequest (by_ : Option Pf) (index : Nat)
  /-- IME_SWEEP_START (R264): with no sweep running, the lowest pending index starts a sweep to the other generation. -/
  | imeSweepStart
  /-- IME_SWEEP_LINE (R264): the sweeper re-encrypts one line under the target generation and advances P. -/
  | imeSweepLine (ecc : Ecc)
  /-- IME_SWEEP_DONE (R264): at the last line G_k switches, EV_IME_SWEEP_DONE is raised and the old generation is renewed. -/
  | imeSweepDone
  /-- IME_CE_CLEAR (R267): iME_STATUS.CE_CLR clears IME_CE_COUNT. -/
  | imeCeClear (pf : Pf)
  /-- MASK_RESEED (R120): each cluster's mask generator is reseeded from the DRBG every 1 ms, staggered across clusters. -/
  | maskReseed (cluster : ClusterNo)
  /-- DRBG_RESEED (R161): the key store DRBG reseeds from the entropy source at least every 10 ms. -/
  | drbgReseed
  /-- ENTROPY_FAIL (R122): an entropy health failure, or a mask reseed over 2 ms late, halts the device or enters HOLD. -/
  | entropyFail
  /-- ENTROPY_HOLD_EXPIRE (R122): entropy_hold_ms ending without recovery halts the device. -/
  | entropyHoldExpire
  /-- ENTROPY_RECOVER (R122): the entropy source passes its health tests again within the hold, and normal reseeding resumes. -/
  | entropyRecover
  /-- REMASK_LINE (R163): the re-mask sweeper re-shares one key line with fresh randomness. -/
  | remaskLine (space : KeySpace) (index : Nat)
  /-- DRK_REMASK (R164): once per second the DRK is re-masked into the other bank and the selector flips. -/
  | drkRemask
  /-- LA_DESC_PROD_WRITE (R125): a write of LA_Qn_DESC_PROD gives the engine new descriptors to fetch. -/
  | laDescProdWrite (pf : Pf) (queue : LaNo) (value : W32)
  /-- LA_DESCRIPTOR_FETCH (R126): the engine fetches a descriptor and checks it in the order of Table 4-11. -/
  | laDescriptorFetch (queue : Met LaNo Ecc)
  /-- LA_CHUNK (R127): one chunk of at most 2,048 bytes of a descriptor runs on a cluster. -/
  | laChunk (queue : Met LaNo Errs)
  /-- LA_COMPLETE (R129): a descriptor completes, its output is copied to DST on OK, and the completion record is written. -/
  | laComplete (queue : Met LaNo Errs)
  /-- RING_PROD_WRITE (R380): a write of RING_r_PROD posts descriptors and retries a pending receive reservation. -/
  | ringProdWrite (pf : Pf) (ring : RingNo) (value : W32)
  /-- PUNT_DELIVER (R379): a diverted frame is written into reserved receive descriptors and completed, FIRST descriptor last. -/
  | puntDeliver (ring : RingNo) (errs : Errs)
  /-- RING_STARVE (R380): a reservation not met within wait_us drops the frame and raises EV_RING_STARVE. -/
  | ringStarve (ring : RingNo)
  /-- TX_DESCRIPTOR (R382): a transmit descriptor is checked and its frame is sent through the management queue or a control segment. -/
  | txDescriptor (ring : Met RingNo Ecc)
  /-- IRQ_REARM (R375): writing a vector number arms that vector, and sends at once if a mapped cause is set. -/
  | irqRearm (pf : Pf) (vector : VecNo)
  /-- IRQ_MAP_WRITE (R375): a write of IRQ_MAP_e maps an event to a vector and may send the vector's message at once. -/
  | irqMapWrite (pf : Pf) (event : Nat) (value : W32)
  /-- MSIX_UNMASK (R375): unmasking a vector with a pending bit sends its message. -/
  | msixUnmask (vector : VecNo)
  /-- DP_WINDOW_READ (R373): a BAR2 read reaches device memory in checked pieces through the data port. -/
  | dpWindowRead (offset : Nat) (len : Met Nat Ecc)
  /-- DP_WINDOW_WRITE (R373): a BAR2 write reaches device memory in checked pieces through the data port. -/
  | dpWindowWrite (offset : Nat) (data : Met MaskedBytes Ecc)
  /-- TMP_LOG_SEL_WRITE (R341): writing a SEQ loads that log record into TMP_LOG_DATA, or sets MISS. -/
  | tmpLogSelWrite (pf : Pf) (seq : W32)
  /-- REGISTER_WRITE (R362): a write to a register with no row of its own stores the value, clears W1C bits, or is dropped. -/
  | registerWrite (pf : Pf) (offset : Nat) (value : W32)
  /-- TAMPER_ASSERT (R337): a source recognised in alarm writes an ASSERT record and, for source 0, drives the destruction line. -/
  | tamperAssert (sources : NatList)
  /-- TAMPER_CLEAR (R337): a source recognised clear writes a CLEAR record. -/
  | tamperClear (source : SrcNo)
  /-- SUPPRESSED_FLUSH (R342): at the next RTC second, a source's unwritten recognitions go into one SUPPRESSED record. -/
  | suppressedFlush
  /-- TIME_LINK (R343): a TIME_LINK record pairs the RTC with network time every 86,400 RTC seconds and at the step. -/
  | timeLink
  /-- BACKUP_CELLS_LOST (R348): both cells below 2.2 V without main power clear the DRK banks, the canary, the log and the RTC. -/
  | backupCellsLost
  /-- I2C_WRITE (R383): an I2C write transaction sets the register pointer. -/
  | i2cWrite (bytes : Bytes)
  /-- I2C_READ (R383): an I2C read returns status-map bytes from one snapshot taken at START. -/
  | i2cRead (count : Nat)
  /-- I2C_SNAPSHOT (R383): the I2C snapshot is refreshed every 1 ms. -/
  | i2cSnapshot
  /-- LEASE_RENEW_SEND (R291): the holder sends LEASE_RENEW every renew_us. -/
  | leaseRenewSend
  /-- LEASE_RENEW (R291): the standby receives a renewal, extends its grant and answers LEASE_ACK. -/
  | leaseRenew (seq : Nat) (echo : Nat)
  /-- LEASE_ACK (R291): the holder receives an acknowledgment and extends its lease. -/
  | leaseAck (seq : Nat) (state : Nat)
  /-- LEASE_EXPIRE (R291): the holder's lease ends with a READY echo, so it fences within 5 µs. -/
  | leaseExpire
  /-- LEASE_TAKEOVER (R291): a READY standby takes the lease once its grant has ended more than 20 µs ago. -/
  | leaseTakeover
  /-- LEASE_FIRST_TAKE (R290): with no holder and both devices READY, the preferred device takes the lease after lease_us of silence. -/
  | leaseFirstTake
  /-- HALTING (R292): a received HALTING makes a READY standby take the lease, or leaves the holder NOT_READY. -/
  | halting (cause : Nat)
  /-- HANDOVER (R302): a received HANDOVER prepare readies the standby, and release makes it take the lease. -/
  | handover (step : Nat)
  /-- HANDOVER_DRAIN_END (R302): at drain_us the holder discards what remains and sends a final WATERMARK. -/
  | handoverDrainEnd
  /-- WATERMARK_SEND (R296): a slot's transmit watermark is sent after advancing by 2^20, or within 1 ms of any change. -/
  | watermarkSend
  /-- WATERMARK (R296): the standby records received PN watermarks and answers WM_ACK. -/
  | watermark (batch : Nat) (entries : Marks)
  /-- WM_ACK (R296): the holder records an acknowledged watermark batch. -/
  | wmAck (batch : Nat)
  /-- MIRROR (R294): the standby applies a mirrored object of a higher version and answers MIRROR_ACK. -/
  | mirror (object : Nat) (version : Nat) (body : Bytes)
  /-- MIRROR_ACK (R295): the holder records the acknowledged version, which completes a waiting key command. -/
  | mirrorAck (object : Nat) (version : Nat) (status : Nat)
  /-- MIRROR_ACK_TIMEOUT (R295): no acknowledgment within 200 µs marks the pair NOT_READY and completes the command. -/
  | mirrorAckTimeout (object : Nat)
  /-- STATE (R282): a received STATE message updates the partner's mode, readiness, spares and degrade conditions. -/
  | state (mode : Nat) (ready : Nat) (spares : Nat) (degrade : Nat)
  /-- TIME_CMP_SEND (R298): each device sends TIME_CMP every 1 ms. -/
  | timeCmpSend
  /-- TIME_CMP (R298): a received TIME_CMP updates time_offset_ns and may record a RECORD fault. -/
  | timeCmp (seconds : Nat) (ns : Nat) (fraction : Nat)
  /-- PAIR_PART (R287): a received part of the partner's pairing ciphertext and ephemeral key is collected. -/
  | pairPart (part : Nat) (total : Nat) (data : Bytes)
  /-- PAIR_CONFIRM (R287): a verified confirm derives the pair keys and restarts the mated link under the new master. -/
  | pairConfirm (tag : Nat)
  /-- PAIRING_RETRY (R287): a failed pairing exchange is retried every 100 ms. -/
  | pairingRetry
  /-- LINK_UP (R189): a port's link comes up after administrative UP and lane lock, with receive polarity and lane order restored, so test 2 of Table 6-7 passes again. -/
  | linkUp (q : Port)
  /-- PREEMPT_VERIFY (R220): the IEEE 802.3br verify process succeeds or fails with the peer, setting preempt_oper and changing whether R188 holds for the port. -/
  | preemptVerify (q : Port) (ok : Bool)
  /-- REFCLK_SG_RESTORED (R282): the reference clock or lanes of a SerDes group return, so the group's ports can come up again and the SerDes-group degrade condition clears. -/
  | refclkSgRestored (group : SgNo)
  /-- SERVICE_ENTRY_TIMEOUT (R314): when 50 ms pass after SYS.MODE SERVICE without a meter round with every ACTIVE cluster powered, the command returns INTERNAL and the mode stays as it was. -/
  | serviceEntryTimeout
  /-- MSIX_ENABLE (R375): enabling MSI-X in PCIe configuration space arms every vector, and at once sends the message of each armed vector that has a mapped, enabled cause set. -/
  | msixEnable
  /-- FILL_DRBG_RESEED (R84): each sealed port's fill-byte CTR_DRBG is reseeded from the key store's entropy source at least once per second. -/
  | fillDrbgReseed (wport : WPort)
  /-- BOUNDARY_SCAN (R310): an IEEE 1149.1 TAP instruction takes effect, acting on the balls only while RESET_N is held low and otherwise as BYPASS. -/
  | boundaryScan (instruction : TapInstr)
  deriving DecidableEq, Repr

end Sys2Proof
end

