-- ==== Sys2Proof/WellFormed.lean ====
section
/-! DEFINITION. Well-formed commands: every operand fits the field that carries it (Table 16-2, Table 10-7, the register and bus
widths), so that the command can be written down on its interface at all. What a fitting value means is the machine's matter. -/

namespace Sys2Proof

/-- A value fits an unsigned field of n bytes. -/
def u (n v : Nat) : Bool := decide (v < 256 ^ n)

/-- An aligned 32-bit offset within a span. -/
def wordIn (span o : Nat) : Bool := decide (o < span) && o % 4 == 0

/-- A line address of the Reservoir's 48 GiB (Table 9-1). -/
def lineAddr (a : Nat) : Bool := decide (0x1000000000 ≤ a ∧ a < 0x1C00000000) && a % 64 == 0

def SetEntry.wf (e : SetEntry) : Bool := u 4 e.id && decide (e.len < 256) && decide (e.value < 256 ^ e.len)
def Entries.wf (e : Entries) : Bool := decide (1 ≤ e.list.length ∧ e.list.length ≤ 30) && e.list.all SetEntry.wf
def BulkReq.wf (r : BulkReq) : Bool :=
  u 1 r.cls && r.codes.all (u 1) && decide (r.codes.length < 256) && u 2 r.first && u 4 r.count && u 8 r.addr && u 1 r.colour
def DeriveReq.wf (r : DeriveReq) : Bool :=
  u 1 r.space && u 2 r.slot && u 2 r.source && u 8 r.attr && decide (r.label.length < 256) && decide (r.context.length < 256)
def ClassKey.wf (k : ClassKey) : Bool := u 1 k.hport && k.outer.all (u 2) && k.inner.all (u 2)
def Reading.wf (r : Reading) : Bool := decide (r.meter < 2 ^ 16 ∧ -32768 ≤ r.temp ∧ r.temp ≤ 32767 ∧ r.vdd < 2 ^ 16)
def Access.wf (a : Access) : Bool :=
  decide (a.master < 7 ∧ a.colour < 64 ∧ a.world < 4 ∧ 1 ≤ a.len ∧ a.len ≤ 256) && a.write.all (fun d => d.length == a.len)

def BootReport.wf (b : BootReport) : Bool :=
  b.badGranules.all (fun g => decide (g < 393216)) && b.badClusters.all (fun c => decide (c < 34))
  && b.badGroups.all (fun g => decide (g < 16)) && b.avsReading.all (u 2)

/-- Stacks are 0 and 1; a chain of granules has at most 257 places (R129). -/
def Ecc.wf : Ecc → Bool
  | .corrected k => decide (k < 2)
  | _ => true
def Errs.wf (e : Errs) : Bool := e.data.all (fun i => decide (i < 257)) && e.ecc.wf
def Releaser.wf : Releaser → Bool
  | .host _ => true
  | .gydom l => l.all (fun r => decide (4 ≤ r.n ∧ r.n < 12))

/-- The check of a command. -/
def Instr.wf : Instr → Bool
  | .sysStatus _ => true
  | .sysMode _ target => u 1 target
  | .sysLifecycle _ target confirm => u 1 target && u 2 confirm
  | .sysReset _ kind => u 1 kind
  | .sysHalt _ confirm => u 2 confirm
  | .sysTimeStep _ seconds ns atPps => u 6 seconds && u 4 ns && u 1 atPps
  | .sysPatchLoad _ addr len colour => u 8 addr && u 4 len && u 1 colour
  | .sysPatchInfo _ => true
  | .authOpen _ world gslot => u 1 world && u 2 gslot
  | .authProve _ proof => u 16 proof
  | .authClose _ => true
  | .objGet _ ids => ids.all (u 4)
  | .objSet _ entries => entries.wf
  | .objBulkRead _ req => req.wf
  | .objBulkWrite _ req => req.wf
  | .keyIdentity _ addr colour => u 8 addr && u 1 colour
  | .keyImport _ addr len colour => u 8 addr && u 4 len && u 1 colour
  | .keyGenerate _ space slot attr => u 1 space && u 2 slot && u 8 attr
  | .keyDerive _ req => req.wf
  | .keyWrap _ gslot wrapping addr colour => u 2 gslot && u 2 wrapping && u 8 addr && u 1 colour
  | .keyUnwrap _ target unwrapping addr colour => u 2 target && u 2 unwrapping && u 8 addr && u 1 colour
  | .keyRestrict _ gslot uses clear => u 2 gslot && u 4 uses && u 8 clear
  | .keyDestroy _ space slot => u 1 space && u 2 slot
  | .keyZeroize _ confirm => u 2 confirm
  | .chanCreate _ chan => u 2 chan
  | .chanSet _ entries => entries.wf
  | .chanEnable _ chan => u 2 chan
  | .chanDisable _ chan => u 2 chan
  | .chanSwitch _ chan => u 2 chan
  | .chanMap _ chan key => u 2 chan && key.wf
  | .chanUnmap _ key => key.wf
  | .caCreate _ ca chan cakGslot => u 2 ca && u 2 chan && u 2 cakGslot
  | .caSet _ entries => entries.wf
  | .caRekey _ ca offsetMs => u 2 ca && u 4 offsetMs
  | .caDelete _ ca => u 2 ca
  | .linkSet _ entries => entries.wf
  | .linkRestart _ lport => u 1 lport
  | .schedPolicer _ entries => entries.wf
  | .schedShaper _ entries => entries.wf
  | .schedWeight _ entries => entries.wf
  | .schedGateLoad _ q count cycleNs addr colour => u 1 q && u 2 count && u 4 cycleNs && u 8 addr && u 1 colour
  | .schedGateCommit _ q baseSec baseNs => u 1 q && u 6 baseSec && u 4 baseNs
  | .schedGateCancel _ q => u 1 q
  | .pairBind _ addr colour => u 8 addr && u 1 colour
  | .pairUnbind _ => true
  | .pairSolo _ => true
  | .pairHandover _ => true
  | .pairSet _ entries => entries.wf
  | .clTest _ cluster => u 1 cluster
  | .pmuSet _ entries => entries.wf
  | .calRead _ addr colour => u 8 addr && u 1 colour
  | .calWrite _ addr colour => u 8 addr && u 1 colour
  | .calHbmTest _ failing => failing.it.all lineAddr
  | .calSerdes _ q => u 1 q
  | .logTamper _ first count => u 4 first && u 1 count
  | .logFaults _ first count => u 4 first && u 1 count
  | .laReset _ queue => u 1 queue
  | .perfSet _ entries => entries.wf
  | .perfSumpRead _ table addr colour => u 1 table && u 8 addr && u 1 colour
  | .dpClaim _ => true
  | .dpRelease _ => true
  | .mailboxDoorbell _ _ => true
  | .mailboxReqWrite _ _ offset _ => wordIn 512 offset
  | .mailboxResponse _ => true
  | .sessionIdleExpire _ => true
  | .timeNowRead _ => true
  | .rtcRead _ => true
  | .timeIncrWrite _ _ => true
  | .stepGo _ _ => true
  | .stepArm _ _ => true
  | .stepCancel _ _ => true
  | .stepLapse => true
  | .tsqPop _ _ => true
  | .ppsInEdge => true
  | .todReceive message _ => decide (message.length ≤ 16)
  | .secondBoundary => true
  | .ppsOutFall => true
  | .todSend => true
  | .pmuDomReqRet _ _ _ _ => true
  | .pmuDomReqOff _ _ _ _ => true
  | .pmuDomReqOn _ _ _ => true
  | .domainChangeDone _ => true
  | .domainWakeDone _ => true
  | .offDomainAccess _ offset _ => wordIn 0x4000000 offset
  | .paceLimitWrite _ _ => true
  | .avsTargetWrite _ _ _ => true
  | .avsLowerIssue _ => true
  | .avsConfirm => true
  | .avsTelemetry vout iout temp _ => u 2 vout && u 2 iout && u 2 temp
  | .meterRound readings => readings.length == 34 && readings.all Reading.wf
  | .paceDispFollow => true
  | .downshiftEval loads => loads.length == 48
  | .sagWarn point => decide (point < 8)
  | .sagWarnClear => true
  | .sagReset => true
  | .mainPowerLost => true
  | .mainPowerBack => true
  | .powerOn => true
  | .resetNRecognised => true
  | .resetEffect => true
  | .resetRelease report => report.wf
  | .bootEnd => true
  | .serviceEntry => true
  | .glbResetCold _ key => u 2 key
  | .glbResetWarm _ key => u 2 key
  | .pcieFlr _ => true
  | .pcieHotReset => true
  | .fuseProgramDone => true
  | .refclkSysLost => true
  | .refclkSgLost _ => true
  | .hostFrameReceive _ frame _ _ => decide (frame.length ≤ 65535)
  | .lineFrameReceive _ frame _ => decide (frame.length ≤ 65535)
  | .replayRecheck _ => true
  | .cellReceive _ octets => decide (octets.length ≤ 65535)
  | .sealedFrameClose _ => true
  | .announceReceive _ => true
  | .heartbeatReceive _ => true
  | .rdiReceive _ => true
  | .ptpSegmentReceive _ => true
  | .dlodSet _ => true
  | .dlodClear _ => true
  | .dlhbSet _ => true
  | .drdiClear _ => true
  | .cellTransmit _ => true
  | .epochKeyDerive _ => true
  | .epochChange _ => true
  | .epochEnd _ => true
  | .announceSend _ => true
  | .heartbeatSend _ => true
  | .rdiSend _ => true
  | .pumpRelease _ => true
  | .requestDispatch _ errs _ => errs.wf
  | .expressSuspend _ => true
  | .requestComplete req => req.met.wf
  | .clusterFault _ => true
  | .handshakeTimeout _ => true
  | .spareKatDone _ _ => true
  | .rotationStep => true
  | .clusterTestDone _ _ => true
  | .rotationResume => true
  | .transmitStart _ errs => errs.wf
  | .gateEntry _ => true
  | .gateSwap _ => true
  | .launch q => q.met.wf
  | .spillWrite _ errs => errs.wf
  | .spillReturn chan dir => u 2 chan && dir.met.wf
  | .linkDown _ => true
  | .quarantineTest granule _ => decide (granule < 393216)
  | .classEntryRewrite key => key.wf
  | .chanDrainDone chan => u 2 chan
  | .slotRetire chan => u 2 chan
  | .mkpduReceive ca _ => u 2 ca
  | .mkpduSend ca => u 2 ca
  | .peerLifeExpire ca peer => u 2 ca && decide (peer < 2 ^ 96)
  | .rekeyInterval ca => u 2 ca
  | .rekeyStart ca => u 2 ca
  | .zeroizeComplete => true
  | .lockstepMismatch => true
  | .masterAccess acc ecc => acc.wf && ecc.wf
  | .mpuHold _ => true
  | .mpuDrained => true
  | .mpuRelease by_ => by_.wf
  | .mpuHoldLong => true
  | .imeSweepRequest _ index => decide (index < 64)
  | .imeSweepStart => true
  | .imeSweepLine ecc => ecc.wf
  | .imeSweepDone => true
  | .imeCeClear _ => true
  | .maskReseed _ => true
  | .drbgReseed => true
  | .entropyFail => true
  | .entropyHoldExpire => true
  | .entropyRecover => true
  | .remaskLine _ index => decide (index < 65536)
  | .drkRemask => true
  | .laDescProdWrite _ _ _ => true
  | .laDescriptorFetch queue => queue.met.wf
  | .laChunk queue => queue.met.wf
  | .laComplete queue => queue.met.wf
  | .ringProdWrite _ _ _ => true
  | .puntDeliver _ errs => errs.wf
  | .ringStarve _ => true
  | .txDescriptor ring => ring.met.wf
  | .irqRearm _ _ => true
  | .irqMapWrite _ event _ => decide (event < 56)
  | .msixUnmask _ => true
  | .dpWindowRead offset len => len.met.wf && decide (1 ≤ len.it ∧ len.it ≤ 4096 ∧ offset + len.it ≤ 1048576)
  | .dpWindowWrite offset data => data.met.wf && decide (1 ≤ data.it.length ∧ data.it.length ≤ 512 ∧ offset + data.it.length ≤ 1048576)
  | .tmpLogSelWrite _ _ => true
  | .registerWrite _ offset _ => wordIn 0x4000000 offset
  | .tamperAssert sources => !sources.isEmpty && sources.all (fun n => decide (n < 13))
  | .tamperClear _ => true
  | .suppressedFlush => true
  | .timeLink => true
  | .backupCellsLost => true
  | .i2cWrite bytes => !bytes.isEmpty
  | .i2cRead _ => true
  | .i2cSnapshot => true
  | .leaseRenewSend => true
  | .leaseRenew seq echo => u 4 seq && u 1 echo
  | .leaseAck seq st => u 4 seq && u 1 st
  | .leaseExpire => true
  | .leaseTakeover => true
  | .leaseFirstTake => true
  | .halting cause => u 1 cause
  | .handover step => u 1 step
  | .handoverDrainEnd => true
  | .watermarkSend => true
  | .watermark batch entries => u 4 batch && decide (1 ≤ entries.length ∧ entries.length ≤ 48) && entries.all (fun e => u 2 e.1 && u 8 e.2)
  | .wmAck batch => u 4 batch
  | .mirror object version body => u 4 object && u 8 version && decide (body.length ≤ 960)
  | .mirrorAck object version status => u 4 object && u 8 version && u 1 status
  | .mirrorAckTimeout object => u 4 object
  | .state mode ready spares degrade => u 1 mode && u 1 ready && u 1 spares && u 1 degrade
  | .timeCmpSend => true
  | .timeCmp seconds ns fraction => u 6 seconds && u 4 ns && u 2 fraction
  | .pairPart part total data => u 1 part && u 1 total && decide (data.length ≤ 960)
  | .pairConfirm tag => u 16 tag
  | .pairingRetry => true
  | .linkUp _ => true
  | .preemptVerify _ _ => true
  | .refclkSgRestored _ => true
  | .serviceEntryTimeout => true
  | .msixEnable => true
  | .fillDrbgReseed _ => true
  | .boundaryScan _ => true

end Sys2Proof
end

