-- ==== Sys2Proof/Config.lean ====
section
/-! DEFINITION. What the spec leaves open or fixes per chip: constants without a body, so that no proof can see a value. -/

namespace Sys2Proof.Config

open Sys2Proof

/-- DESIGN CHOICE (log 1). The n-th output of a DRBG or entropy draw (R161), w bits wide. -/
opaque drbg : (n w : Nat) → BitVec w
/-- DESIGN CHOICE (log 2). The n-th value the spec leaves open, w bits wide. -/
opaque free : (n w : Nat) → BitVec w
/-- DESIGN CHOICE (log 3). The byte that the start's write of every Reservoir line (R313), whose data the spec does not give, or a Reservoir test (R320) leaves
at an address as ciphertext; starts and tests are told apart by a number. -/
opaque blank : (start addr : Nat) → Byte
/-- DESIGN CHOICE (log 104). The n-th output of a cluster's mask generator after a reseed, w bits wide (R120): the spec does not give
the generator's algorithm. -/
opaque mask : (seed : BitVec 256) → (n w : Nat) → BitVec w
/-- Message bits of the n-th group of alignment markers at a port speed, whose BIP field, where the format has one, covers message
bits sent since the group before, newest first; and the octets between two groups (R64, R65): those of IEEE 802.3 (log 103). -/
opaque amGroup : (speed n : Nat) → (span : List Bool) → List Bool
opaque amOctets : (speed : Nat) → Nat
/-- The hash bucket of a host classification key (R26 names no hash). -/
opaque classBucket : ClassKey → Fin 16384
/-- dev[0].die_id: fused and public (R333). -/
opaque dieId : BitVec 64
/-- Whether a device_id is that of an NQX-9624 (R286, log 32). -/
opaque partOf : BitVec 64 → Bool
/-- The MAC address of a line port, from which tx_sci has its default (Table 2-2). -/
opaque portMac : Nat → BitVec 48
/-- Entry i of cluster c's pace table in the calibration set as written at test (R333). -/
opaque calPace : (c i : Nat) → BitVec 16
/-- The slot rate that a pace table gives below its lowest voltage, for a cluster and a temperature band (R175 names none). -/
opaque subGrid : (c band : Nat) → BitVec 11
/-- The trims, lane calibration and training seeds of that set: its byte at an offset from 3,296 to 16,639. -/
opaque calTrim : (offset : Nat) → Byte
/-- The octets of the ML-DSA-87 public key in ROM, 0 to 2,591 (R398). -/
opaque romMldsa : (i : Nat) → Byte
/-- The ECDSA P-384 public key in ROM, a point's coordinates (R398). -/
opaque romEcdsa : Nat × Nat

end Sys2Proof.Config
end

