-- ==== Sys2Proof/Machine/State.lean ====
section
/-! DEFINITION. The state of the Xorun block as plain data, its fault and refusal reasons, and the state right after reset.
Each field's note ends with the rule that names it and its reset value; Tab fields list only what differs from the default
named there. -/

namespace Sys2Proof.Machine

open Sys2Proof

/-- The six modes (R304), in the coding of GLB_MODE.MODE. -/
inductive Mode where
  | boot | enrol | provision | service | maintenance | recovery
  deriving DecidableEq, Repr

/-- The lifecycle states (R307), in the coding of GLB_MODE.LIFECYCLE. -/
inductive Lifecycle where
  | blank | sealed | debug | retired
  deriving DecidableEq, Repr

/-- Worlds (R352, R385). -/
inductive World where
  | officer | operator | observer | internal
  deriving DecidableEq, Repr

/-- Cluster roles (R101). -/
inductive Role where
  | active | idle | spare | test | retired
  deriving DecidableEq, Repr

/-- Channel states (R21). -/
inductive ChanState where
  | free | config | active | frozen
  deriving DecidableEq, Repr

/-- Slot states (Table 5-4). -/
inductive SlotState where
  | empty | invalid | valid | expired | spent
  deriving DecidableEq, Repr

/-- Power domain states (R321), in the coding of PMU_DOM_n.STATE. -/
inductive DomState where
  | off | ret | changing | on
  deriving DecidableEq, Repr

/-- Lease states (Table 10-8), in the coding of PAIR_STATUS.LEASE. -/
inductive Lease where
  | none | holder | standby | fenced
  deriving DecidableEq, Repr

/-- Pair states (Table 10-8), in the coding of PAIR_STATUS.STATE. -/
inductive PairState where
  | unpaired | pairing | syncing | ready | notReady
  deriving DecidableEq, Repr

/-- Wellhead receive states (Table 3-8); KEYED is SYNC with the keyed mark (R95). -/
inductive RxState where
  | hunt | presync | sync
  deriving DecidableEq, Repr

/-- Policer colours (R198). -/
inductive Tint where
  | green | yellow | red
  deriving DecidableEq, Repr

/-- Sump reasons in the order of their codes 1–31 (Table 14-3). -/
inductive Reason where
  | fcsFail | length | noChannel | classParity | police | portOff | linkDown | pnLimit | queueFull | shed | bound | deadline
  | noTag | badTag | noSci | noSa | oversize | late | icvFail | segErr | clusterFault | keyParity | cisternParity | zeroize
  | divertFull | launchLate | launchFar | standby | leaseLost | handover | recovery
  deriving DecidableEq, Repr

/-- Mailbox and lookaside status codes (Table 16-1, R126). -/
inductive Status where
  | ok | duplicate | busy | deferred | denied | mode | lifecycle | badCmd | badLength | badObject | badValue | domainOff
  | keySpent | keyExpired | keyAttr | keyInvalid | noBound | stepSpent | pairNotReady | halted | internal | tagFail | access
  deriving DecidableEq, Repr

/-- A key line: two Boolean shares, each with its CRC (R137); the value is the XOR of the shares. Key bits [511:256],
hash subkey bits [255:128]; an inline-memory key fills all 512 bits. -/
structure Line where
  s0 : BitVec 512 := 0
  s1 : BitVec 512 := 0
  c0 : BitVec 16 := 0
  c1 : BitVec 16 := 0
  deriving DecidableEq, Repr

/-- A channel or general slot (R138). -/
structure Slot where
  /-- state [R147; reset EMPTY] -/
  state : SlotState := .empty
  /-- attribute word [R149; reset 0] -/
  attr : W64 := 0
  /-- salt [R138; reset 0] -/
  salt : Salt := 0
  /-- key line with hash subkey [R137; reset 0] -/
  line : Line := {}
  /-- expires_s of a general slot [R153; reset 0] -/
  expires : Nat := 0
  /-- commits since the install counts were drawn [R159; reset 0] -/
  commits : Nat := 0
  /-- enable bit of a channel slot [R154; reset 0] -/
  enabled : Bool := false
  /-- installed and never yet current [R50; reset 0] -/
  fresh : Bool := false
  deriving DecidableEq, Repr

/-- A DRK bank of the Standpipe (R139): two shares and the check value. -/
structure Bank where
  s0 : Key
  s1 : Key
  check : W64
  deriving DecidableEq, Repr

/-- The plaintext of a persist record (Table 5-12), without its salt, which is zero. -/
structure PersistCopy where
  slot : Nat
  attr : W64
  key : Key
  seq : Nat
  deriving DecidableEq, Repr

/-- A persist record (R160): two copies of 72 bytes, each the KW wrapping of a plaintext, or zeros. -/
structure PersistRec where
  a : Bytes := List.replicate 72 0
  b : Bytes := List.replicate 72 0
  deriving DecidableEq, Repr

/-- A patch image in a slot of the patch area (R397). -/
structure Patch where
  serial : Nat
  image : Bytes
  deriving DecidableEq, Repr

/-- The bound partner (R286): identity and import public keys. -/
structure Binding where
  id : W64
  ek : Bytes
  point : Bytes
  deriving DecidableEq, Repr

/-- A lifecycle fuse group: two fuses, blown when either reads blown (R307). -/
structure FuseGroup where
  f0 : Bool := false
  f1 : Bool := false
  deriving DecidableEq, Repr

/-- A recognised reset that has not yet taken effect (R311, R312): its lowest code, whether it is cold, and the ticks at which a source
that may have to wait (codes 2 to 5) and one that may not were first recognised. -/
structure ResetReq where
  code : Nat
  cold : Bool
  soft : Option Nat := none
  hard : Option Nat := none
  deriving DecidableEq, Repr

/-- GLB: mode, boot status, halt and reset (chapters 10, 11, 18). -/
structure Glb where
  /-- present mode [R304; reset BOOT] -/
  mode : Mode := .boot
  /-- lifecycle as read at boot [R307; reset BLANK] -/
  lifecycle : Lifecycle := .blank
  /-- GLB_BOOT_STATUS [R313; reset 0] -/
  bootStatus : W32 := 0
  /-- GLB_HALT_CAUSE.CAUSE [R424; reset 0] -/
  haltCause : Nat := 0
  /-- GLB_HALT_NS [R424; reset 0] -/
  haltNs : Nat := 0
  /-- GLB_HALT_SEC [R424; reset 0] -/
  haltSec : Nat := 0
  /-- tick of the last release of reset [R383; reset 0] -/
  releasedAt : Nat := 0
  /-- doorbells taken so far: the order of R367 [R367; reset 0] -/
  doorbells : Nat := 0
  /-- TIME tick in which the first halt cause was detected [R424; reset 0] -/
  haltTick : Nat := 0
  /-- GLB_RESET_CAUSE.CAUSE [R312; reset 0] -/
  resetCause : Nat := 0
  /-- GLB_RESET_CAUSE.LAST_HALT [R424; reset 0] -/
  lastHalt : Nat := 0
  /-- the recognised reset not yet in effect [R311; reset none] -/
  pendingReset : Option ResetReq := none
  /-- held in reset [R311; reset 1: the state right after reset, before its release] -/
  inReset : Bool := true
  /-- the reset in effect keeps PD_TIME [R228; reset 0] -/
  warm : Bool := false
  /-- RESET_N ball low [R311; reset 0] -/
  resetNLow : Bool := false
  /-- boot steps have run and BOOT_END is due [R313; reset 0] -/
  booted : Bool := false
  /-- mailbox whose SYS.MODE SERVICE waits for its meter round [R314; reset none] -/
  serviceWait : Option Mb := none
  /-- tick at which that SYS.MODE began [R314; reset 0] -/
  serviceAt : Nat := 0
  /-- a meter round with every ACTIVE cluster powered has occurred since SYS.MODE SERVICE [R314; reset 0] -/
  serviceRound : Bool := false
  deriving DecidableEq, Repr

/-- Fuses and the NVM (R307, R333, R397, R160, R286). -/
structure Nvm where
  /-- part is the NQX-9624 [R2; reset 0: DESIGN CHOICE log 4] -/
  part9624 : Bool := false
  /-- SEALED fuse group [R307; reset unblown: DESIGN CHOICE log 4] -/
  sealedFuse : FuseGroup := {}
  /-- DEBUG fuse group [R307; reset unblown: DESIGN CHOICE log 4] -/
  debugFuse : FuseGroup := {}
  /-- RETIRED fuse group [R307; reset unblown: DESIGN CHOICE log 4] -/
  retiredFuse : FuseGroup := {}
  /-- fuse group being programmed and the mailbox command that waits for it [R308; reset none] -/
  programming : Option (Lifecycle × Option Mb) := none
  /-- persist area, 32 records of two copies [R160; reset empty: DESIGN CHOICE log 4] -/
  persist : Tab PersistRec := []
  /-- pair binding [R286; reset none: DESIGN CHOICE log 4] -/
  binding : Option Binding := none
  /-- calibration set written by CAL.WRITE; none is the set as written at test [R333; reset none: DESIGN CHOICE log 4] -/
  cal : Option Bytes := none
  /-- the stored set failed its check at boot [R334; reset 0] -/
  calBad : Bool := false
  /-- patch slot A [R397; reset empty: DESIGN CHOICE log 4] -/
  patchA : Option Patch := none
  /-- patch slot B [R397; reset empty: DESIGN CHOICE log 4] -/
  patchB : Option Patch := none
  /-- patch selector names slot B [R398; reset 0: DESIGN CHOICE log 4] -/
  selB : Bool := false
  /-- patch_floor [R399; reset 0: DESIGN CHOICE log 4] -/
  patchFloor : Nat := 0
  /-- serial applied at this start [R399; reset 0] -/
  patchApplied : Nat := 0
  deriving DecidableEq, Repr

/-- A time reading: seconds and 2^-32 ns units below the second (R227). -/
structure Stamp where
  sec : Nat := 0
  sub : Nat := 0
  deriving DecidableEq, Repr

/-- TIME block (chapter 8). -/
structure TimeBlk where
  /-- TIME ticks since the counter was cleared [R234; reset 0] -/
  ticks : Nat := 0
  /-- network time: 48-bit seconds, 30-bit ns, 16-bit fraction, 16 hidden bits [R227; reset 0] -/
  now : Stamp := {}
  /-- TIME_INCR.ADJ [R230; reset 0] -/
  adj : W32 := 0
  /-- PF0 snapshot [R229; reset 0] -/
  snap0 : Stamp := {}
  /-- PF1 snapshot [R229; reset 0] -/
  snap1 : Stamp := {}
  /-- TIME_STEP_NS [R231; reset 0] -/
  stepNs : Nat := 0
  /-- TIME_STEP_SEC [R231; reset 0] -/
  stepSec : Nat := 0
  /-- target of an armed step: seconds and ns [R231; reset none] -/
  armed : Option (Nat × Nat) := none
  /-- tick of the GO that armed it [R231; reset 0] -/
  armedAt : Nat := 0
  /-- target of a step to be made at the next tick [R231; reset none] -/
  stepGo : Option (Nat × Nat) := none
  /-- TIME_STEP_CTRL.AT_PPS [R231; reset 0] -/
  atPps : Bool := false
  /-- STEP_SPENT [R231; reset 0] -/
  spent : Bool := false
  /-- STEP_REJ [R232; reset 0] -/
  stepRej : Bool := false
  /-- INCR_REJ [R230; reset 0] -/
  incrRej : Bool := false
  /-- PPSIN_NEW [R246; reset 0] -/
  ppsinNew : Bool := false
  /-- PPSIN_OVR [R246; reset 0] -/
  ppsinOvr : Bool := false
  /-- TODIN_NEW [R249; reset 0] -/
  todinNew : Bool := false
  /-- TODIN_BAD [R249; reset 0] -/
  todinBad : Bool := false
  /-- TIME_PPSIN [R246; reset 0] -/
  ppsin : Stamp := {}
  /-- TIME_PPS_CTRL.OUT_EN [R246; reset 0] -/
  ppsOutEn : Bool := false
  /-- TIME_PPS_CTRL.IN_EN [R246; reset 0] -/
  ppsInEn : Bool := false
  /-- TIME_PPS_CTRL.WIDTH_MS [R246; reset 100] -/
  ppsWidth : Nat := 100
  /-- level of PPS_OUT [R246; reset 0] -/
  ppsOut : Bool := false
  /-- tick at which the pulse in progress falls [R246; reset 0] -/
  ppsFallAt : Nat := 0
  /-- tick of a second boundary whose ToD message has not been sent [R247; reset none] -/
  todAt : Option Nat := none
  /-- TIME_TOD_CTRL [R247; reset 0] -/
  todCtrl : W32 := 0
  /-- TIME_TODIN, the last valid message [R249; reset 0] -/
  todin : Bytes := []
  deriving DecidableEq, Repr

/-- A power domain (Table 12-4): its state, the state a change leads to, CMD_WAKE and RESULT. -/
structure Dom where
  /-- STATE [R321; reset ON after boot, R321 Table 12-1] -/
  state : DomState := .on
  /-- target of the change while CHANGING [R323; reset ON] -/
  toward : DomState := .on
  /-- CMD_WAKE [R326; reset 1] -/
  cmdWake : Bool := true
  /-- RESULT [R323; reset 0] -/
  result : Nat := 0
  /-- tick in which the sleep request in progress was accepted [R325; reset 0] -/
  asked : Nat := 0
  /-- tick of the last wake that found the domain ON [R325; reset none] -/
  woken : Option Nat := none
  /-- the change in progress started from OFF, or towards OFF in a domain without retention [R325; reset 0] -/
  fromOff : Bool := false
  deriving DecidableEq, Repr

/-- A change of VDD_CORE in progress (R179). -/
structure AvsChange where
  target : Nat
  old : Nat
  /-- the AVSBus write has been issued -/
  issued : Bool
  /-- tick of the issue -/
  since : Nat := 0
  deriving DecidableEq, Repr

/-- A fall of p_adm that p_disp has yet to follow (R177): the first frame number accepted under the new pace, that pace, and the tick of
the fall. -/
structure Drain where
  fid : Nat
  pace : Nat
  since : Nat
  deriving DecidableEq, Repr

/-- One pipeline (R101): the request running, the request in the suspension register, with the slots left and the tick since
which they have been entering. -/
structure Pipe where
  run : Option Nat := none
  left : Nat := 0
  since : Nat := 0
  susp : Option Nat := none
  suspLeft : Nat := 0
  deriving DecidableEq, Repr

/-- A cipher cluster (R101): role, last meter readings (R173), temperature band (R175), fault flag (R116), input queue and
pipelines, and the mask generator (R120). -/
structure Cluster where
  /-- role [R101; reset ACTIVE for C0–C31, SPARE for C32 and C33] -/
  role : Role := .active
  /-- m_c of the last meter round [R173; reset 0: DESIGN CHOICE log 5] -/
  meter : Nat := 0
  /-- junction temperature, 0.1 °C [R173; reset 0: DESIGN CHOICE log 5] -/
  temp : Int := 0
  /-- VDD_CORE sensor, mV [R173; reset 0: DESIGN CHOICE log 5] -/
  vdd : Nat := 0
  /-- temperature band index [R175; reset 0: DESIGN CHOICE log 5] -/
  band : Nat := 0
  /-- fault flag [R116; reset 0] -/
  fault : Bool := false
  /-- input queue, oldest first [R101; reset empty] -/
  queue : List Nat := []
  /-- pipelines P0–P3 [R101; reset spacer] -/
  pipes : Tab Pipe := []
  /-- tick of the last mask reseed [R120; reset 0] -/
  reseeded : Nat := 0
  /-- mask generator: its seed and the words it has given since the reseed [R120; reset 0: DESIGN CHOICE log 104] -/
  maskSeed : BitVec 256 := 0
  maskWords : Nat := 0
  deriving DecidableEq, Repr

/-- PMU: domains, VDD_CORE, sag, pace and capacity (chapters 6, 12). -/
structure Pmu where
  /-- power domains, default ON [R321; reset ON] -/
  doms : Tab Dom := []
  /-- PMU_DOM_ERR_ADDR [R327; reset 0] -/
  errAddr : Nat := 0
  /-- PMU_DOM_ERR_INFO.VALID [R327; reset 0] -/
  errValid : Bool := false
  /-- PMU_DOM_ERR_INFO.COUNT [R327; reset 0] -/
  errCount : Nat := 0
  /-- PMU_DOM_ERR_INFO.WRITE [R327; reset 0] -/
  errWrite : Bool := false
  /-- PMU_DOM_ERR_INFO.DOMAIN [R327; reset 0] -/
  errDom : Nat := 0
  /-- PMU_AVS_TARGET.MV [R330; reset 750] -/
  avsTarget : Nat := 750
  /-- PMU_AVS_STATUS.CONFIRMED, set to 750 when the boot write is confirmed [R331; reset 0] -/
  avsConfirmed : Nat := 0
  /-- the setpoint change in progress [R179; reset none] -/
  avsChange : Option AvsChange := none
  /-- a target written while a change is in progress [R179; reset none] -/
  avsNext : Option Nat := none
  /-- PMU_AVS_STATUS.ERR [R329; reset 0] -/
  avsErr : Bool := false
  /-- PMU_AVS_STATUS.REJ [R330; reset 0] -/
  avsRej : Bool := false
  /-- PMU_AVS_VOUT [R329; reset 0] -/
  vout : Nat := 0
  /-- PMU_AVS_IOUT [R329; reset 0] -/
  iout : Nat := 0
  /-- PMU_AVS_TEMP [R329; reset 0] -/
  avsTemp : Nat := 0
  /-- regulator setpoint as last issued [R408; reset 750] -/
  rail : Nat := 750
  /-- meter rounds for which TRACK has found the lower voltage sufficient [R330; reset 0] -/
  trackRounds : Nat := 0
  /-- PMU_SAG_STATUS.WARN_COUNT [R332; reset 0] -/
  sagCount : Nat := 0
  /-- PMU_SAG_STATUS.POINT [R332; reset 0] -/
  sagPoint : Nat := 0
  /-- PMU_SAG_STATUS.WARN_SEEN [R332; reset 0] -/
  sagSeen : Bool := false
  /-- PMU_SAG_STATUS.WARN [R332; reset 0] -/
  sagWarn : Bool := false
  /-- tick of the last sag warning [R332; reset 0] -/
  sagAt : Nat := 0
  /-- tick of the last reading of the regulator's telemetry [R329; reset none] -/
  teleAt : Option Nat := none
  /-- PMU_PACE_LIMIT.LIMIT [R181; reset 0x708] -/
  paceLimit : Nat := 1800
  /-- p_adm [R177; reset 0] -/
  pAdm : Nat := 0
  /-- p_disp [R177; reset 0] -/
  pDisp : Nat := 0
  /-- falls of p_adm that p_disp has yet to follow, oldest first [R177; reset none] -/
  drains : List Drain := []
  /-- tick of the last write of PMU_PACE_LIMIT, and LIMIT as it stood at the start of that tick [R191; reset none, 0] -/
  limitAt : Option Nat := none
  limitOld : Nat := 0
  /-- tick of the last meter round [R173; reset none] -/
  roundAt : Option Nat := none
  /-- tick of the last evaluation of the downshift [R195; reset none] -/
  downAt : Option Nat := none
  /-- N and the capacity figure C in M slots/s as last computed [R178; reset 0] -/
  capAct : Nat := 0
  capFig : Rat := 0
  /-- shedding tier [R192; reset 0] -/
  tier : Nat := 0
  /-- k_R [R192; reset 1] -/
  kR : Rat := 1
  /-- k_B [R192; reset 1] -/
  kB : Rat := 1
  /-- meter rounds above tier 0 since tier 0 was left [R193; reset 0] -/
  roundsAbove : Nat := 0
  /-- yellow slots still accepted this round in tier 2 [R192; reset 0] -/
  yellowBudget : Nat := 0
  /-- slots accepted this round: express [R192; reset 0] -/
  slotsE : Nat := 0
  /-- slots accepted this round: green Assured [R192; reset 0] -/
  slotsA : Nat := 0
  /-- slots accepted this round: yellow Assured [R192; reset 0] -/
  slotsY : Nat := 0
  /-- slots accepted this round: Best [R192; reset 0] -/
  slotsB : Nat := 0
  /-- the last round's slots: express, green Assured, yellow Assured, Best [R192; reset 0] -/
  round : Nat × Nat × Nat × Nat := (0, 0, 0, 0)
  /-- clusters C0–C33 [R101; reset C0–C31 ACTIVE, C32 and C33 SPARE] -/
  clusters : Tab Cluster := [(32, { role := .spare }), (33, { role := .spare })]
  deriving DecidableEq, Repr

/-- A Standpipe log record (Table 13-2). -/
structure LogRec where
  seq : Nat
  rtcSec : Nat
  rtcSub : Nat
  source : Nat
  kind : Nat
  power : Nat
  ntSec : Nat
  ntNs : Nat
  detail : Nat
  deriving DecidableEq, Repr

/-- Standpipe and tamper monitors (chapter 13). -/
structure Stp where
  /-- RTC seconds [R344; reset 0] -/
  rtcSec : Nat := 0
  /-- RTC sub-seconds [R344; reset 0] -/
  rtcSub : Nat := 0
  /-- RTC runs on the ring oscillator [R345; reset 0] -/
  osc : Bool := false
  /-- latched STP_RTC_SEC [R428; reset 0] -/
  rtcLatch : Nat := 0
  /-- main power present [R346; reset 1] -/
  main : Bool := true
  /-- VBAT_A at or above 2.7 V [R346; reset 0] -/
  aOk : Bool := false
  /-- VBAT_B at or above 2.7 V [R346; reset 0] -/
  bOk : Bool := false
  /-- last ran on the cells from VBAT_B [R346; reset 0] -/
  fromB : Bool := false
  /-- canary intact [R348; reset 0: a first start] -/
  canary : Bool := false
  /-- DRK bank A [R139; reset none] -/
  bankA : Option Bank := none
  /-- DRK bank B [R139; reset none] -/
  bankB : Option Bank := none
  /-- bank selector names B [R139; reset 0] -/
  bankSelB : Bool := false
  /-- event log, oldest first, at most 128 [R341; reset empty] -/
  log : List LogRec := []
  /-- next SEQ [R341; reset 0] -/
  nextSeq : Nat := 0
  /-- TMP_LOG_SEL [R341; reset 0] -/
  logSel : Nat := 0
  /-- TMP_LOG_ACK [R341; reset 0] -/
  logAck : Nat := 0
  /-- record in TMP_LOG_DATA [R341; reset none: reads zero] -/
  logData : Option LogRec := none
  /-- TMP_LOG_STAT.MISS [R341; reset 0] -/
  miss : Bool := false
  /-- sources recognised in alarm (TMP_STATE) [R337; reset 0] -/
  alarm : List Nat := []
  /-- records written per source in the present RTC second [R342; reset 0] -/
  written : Tab Nat := []
  /-- recognitions not written per source in the present RTC second [R342; reset 0] -/
  suppressed : Tab Nat := []
  /-- RTC second of the last TIME_LINK record [R343; reset 0] -/
  linkSec : Nat := 0
  /-- the model's own: SEQ up to which a start has looked for records made on the cells [R347; reset 0] -/
  looked : Nat := 0
  /-- tamper settings held in the Standpipe, by object ID [R338; reset defaults] -/
  settings : Tab Nat := []
  deriving DecidableEq, Repr

/-- What waits for the end of a held entropy failure (R162): a session of Wellhead p, the mated link's session, the pairing
exchange, or a generation of an inline-memory key. -/
inductive Deferred where
  | session (p : Nat)
  | mate
  | exchange
  | imeKey (k : Nat) (gen : Bool)
  deriving DecidableEq, Repr

/-- Key store (chapter 5). -/
structure Keys where
  /-- channel slots, default EMPTY [R137; reset EMPTY] -/
  kslot : Tab Slot := []
  /-- general slots, default EMPTY [R137; reset EMPTY] -/
  gslot : Tab Slot := []
  /-- inline-memory keys, by 2k + generation [R137; reset 0] -/
  ime : Tab Line := []
  /-- internal keys by handle: 0 context-wrap, 1 persistence, 2 pair wrap, 3 pair link master, 16 + 2·ca ICK, 17 + 2·ca KEK;
  from 8,208 on 16 per Wellhead: its link master, and K_hdr and K_ctl of each direction and parity of epoch [R137; reset none] -/
  internal : Tab Line := []
  /-- working copy of the DRK [R139; reset absent] -/
  drk : Option Line := none
  /-- DRBG draw from which the install counts were redrawn [R159; reset 0] -/
  installBase : Nat := 0
  /-- destruction line driven, with its source, until ZEROIZED [R166; reset none] -/
  line : Option Nat := none
  /-- entropy source fails its health tests [R122; reset 0] -/
  entropyBad : Bool := false
  /-- entropy failure held under HOLD [R122; reset 0] -/
  entropyHeld : Bool := false
  /-- tick in which the hold began [R122; reset 0] -/
  heldSince : Nat := 0
  /-- what Gydom and the key store put off while a failure is held, oldest first [R162; reset none] -/
  deferred : List Deferred := []
  /-- KEY.IDENTITY has been used since the start [R162; reset 0] -/
  identityUsed : Bool := false
  /-- boot nonce [R144; reset 0] -/
  bootNonce : W64 := 0
  /-- tick of the last DRBG reseed [R161; reset 0] -/
  reseeded : Nat := 0
  /-- a known-answer test failed at boot [R313; reset 0] -/
  katFailed : Bool := false
  /-- tick in which the DRK was loaded or last re-masked [R164; reset 0] -/
  drkAt : Nat := 0
  deriving DecidableEq, Repr

/-- Access checker region registers (Table 9-14). -/
structure Region where
  lo : W32 := 0
  hi : W32 := 0
  attr : W32 := 0
  deriving DecidableEq, Repr

/-- A running sweep (R264): index, ranges as pairs of first and last line address, pointer, target generation. -/
structure Sweep where
  index : Nat
  ranges : List (Nat × Nat)
  ptr : Nat
  target : Bool
  deriving DecidableEq, Repr

/-- Per-index IME state (R262). -/
structure ImeK where
  /-- GEN [R262; reset 0] -/
  gen : Bool := false
  /-- write counter, 48 bits [R262; reset 0] -/
  wcnt : Nat := 0
  /-- LIMIT [R263; reset 44] -/
  limit : Nat := 44
  deriving DecidableEq, Repr

/-- What a hold of the access checker keeps waiting (R272, R374): an access, or a data-port request with its address, colour and world,
each with what the memory's checks will report of it; an event record; completed descriptors of a transmit ring. -/
inductive Waiter where
  | access (a : Access) (ecc : Ecc)
  | dpRead (addr len colour world : Nat) (ecc : Ecc)
  | dpWrite (addr : Nat) (data : MaskedBytes) (colour world : Nat) (ecc : Ecc)
  | record (bytes : Bytes)
  | descriptors (ring : Nat)
  deriving DecidableEq, Repr

/-- Device memory, access checker, IME and Cistern quarantine (chapter 9). -/
structure Mem where
  /-- device memory bytes; unlisted reads as zero [R250; reset nothing listed] -/
  bytes : List Host.Cell := []
  /-- XTS key under which the content of a Reservoir line is encrypted, by line number: bytes holds the plaintext, so that the pair stands
  for the ciphertext; default none, the line is as the start left it [R260; reset none listed] -/
  lines : Tab (Option (BitVec 512)) := []
  /-- the model's own field: number of the start that wrote every Reservoir line [R313; reset 0: DESIGN CHOICE log 3] -/
  start : Nat := 0
  /-- the model's own field: number of the start, or of the Reservoir test after it, that last wrote the lines which a test writes over
  [R320; reset 0: DESIGN CHOICE log 3] -/
  patterns : Nat := 0
  /-- the model's own field: inline-memory key lines, by 2k + generation, of the Reservoir accesses made so far, newest first
  [R267; reset empty: DESIGN CHOICE log 125] -/
  used : List Nat := []
  /-- MPU_CTRL.EN [R272; reset 1] -/
  mpuEn : Bool := true
  /-- Gydom's own hold [R273; reset 0] -/
  gydomHold : Bool := false
  /-- tick at which the hold in force began, until HOLD_LONG is raised for it [R274; reset none] -/
  holdAt : Option Nat := none
  /-- MPU_STATUS.HELD [R272; reset 0] -/
  held : Bool := false
  /-- MPU_STATUS.HOLD_LONG [R274; reset 0] -/
  holdLong : Bool := false
  /-- MPU_STATUS.WR_REJ [R272; reset 0] -/
  wrRej : Bool := false
  /-- overlapping pair of the last release [R272; reset none] -/
  overlap : Option (Nat × Nat) := none
  /-- accesses held, in arrival order, each with its tick [R272; reset empty] -/
  waiting : List (Nat × Waiter) := []
  /-- the model's own field: ns that the access being served has been held; 0 for the others [R272, R359; reset 0] -/
  waited : Nat := 0
  /-- captured fault: address, master, colour, write, cause [R271; reset none] -/
  fault : Option (Nat × Nat × Nat × Bool × Nat) := none
  /-- tick of the captured fault [R271; reset 0] -/
  faultAt : Nat := 0
  /-- MPU_FAULT_COUNT [R271; reset 0] -/
  faultCount : Nat := 0
  /-- region registers 0–31 [R269; reset 0] -/
  regions : Tab Region := []
  /-- IME_SWEEP_REQ.INDEX [R263; reset 0] -/
  sweepIndex : Nat := 0
  /-- pending sweep bits [R263; reset 0] -/
  pendingSweep : W64 := 0
  /-- running sweep [R264; reset none] -/
  sweep : Option Sweep := none
  /-- per-index generations, counters and limits [R262; reset generation 0, counter 0, limit 44] -/
  imeK : Tab ImeK := []
  /-- correctable errors on stack 0 and stack 1 [R267; reset 0] -/
  ce0 : Nat := 0
  ce1 : Nat := 0
  /-- granules in quarantine and not yet tested [R256; reset empty] -/
  quarantine : List Nat := []
  /-- granules held permanently in quarantine [R256; reset empty] -/
  heldGranules : List Nat := []
  deriving DecidableEq, Repr

/-- Where an accepted frame stands on its journey (chapter 1). -/
inductive Stage where
  /-- in its channel queue in the Cistern -/
  | queued
  /-- accepted, to be written to the Reservoir by the spill engine -/
  | spilling
  /-- in the spill area of the Reservoir -/
  | spilled
  /-- released by the Pump to dispatch -/
  | released
  /-- dispatched: a request in a cluster -/
  | inCluster (cluster : Nat)
  /-- result released: complete frame waiting for its port -/
  | complete
  /-- waiting at the replay stage for an earlier frame of the same PN (R42) -/
  | replayWait
  deriving DecidableEq, Repr

/-- The attributes of a channel record that a frame is processed under: those of its admission (R24). -/
structure FrameRec where
  protect : Nat := 0
  confOffset : Nat := 0
  txSci : Nat := 0
  ssciTx : Nat := 0
  ssciRx : Nat := 0
  an0 : Nat := 0
  an1 : Nat := 0
  deriving DecidableEq, Repr

/-- A frame in flight. -/
structure Frame where
  /-- channel -/
  chan : Nat
  dir : Dir
  /-- traffic class at acceptance -/
  tc : Nat
  tint : Tint
  /-- host frame length F (R9) -/
  flen : Nat
  /-- slots S of its request (R103) -/
  slots : Nat
  /-- ingress and egress ports, numbered as in R203 -/
  ingress : Nat
  egress : Nat
  /-- e(F) on the egress port (Table 6-5) -/
  ebytes : Nat
  /-- the bytes as received: host frame without FCS, line frame without FCS, or sealed frame -/
  data : Bytes
  /-- t_r in TIME ticks -/
  tr : Nat
  /-- deadline D in TIME ticks; none for a frame without a bound (R38, shadow receive) -/
  deadline : Option Rat
  /-- virtual finish tag in network-time ns (R211) -/
  tag : Rat
  stage : Stage
  /-- channel record as of its admission [R24] -/
  record : FrameRec := {}
  /-- PN, SA slot and AN once known -/
  pn : Nat := 0
  slot : Nat := 0
  /-- byte offset of the protected part in data, for a received frame -/
  offset : Nat := 0
  /-- output bytes once computed, and the ICV result of a decrypt -/
  outp : Bytes := []
  pass : Bool := true
  /-- key and hash subkey fetched at dispatch, in two shares that the cluster has renewed; spacer when the request has ended
  (R107, R109, R120) -/
  key : Line := {}
  /-- shadow receive: discarded with STANDBY once its checks have passed (R289) -/
  shadow : Bool := false
  /-- delivered as received, without a cipher request (R37) -/
  plain : Bool := false
  /-- holds shared granules and not its channel's reservation (R223) -/
  shared : Bool := false
  /-- its queue lies in the Reservoir: to be spilled, or spilled (R225) -/
  spill : Bool := false
  /-- egress port went down or off after dispatch: reason to discard with at release (R432) -/
  doomed : Option Reason := none
  /-- numbers of the granules that its bytes lie in, in the order of their chain (R251) -/
  chain : List Nat := []
  /-- its output granules, from dispatch to the release of its result (R104) -/
  outs : List Nat := []
  /-- lines of the spill range that hold it (R225, R258) -/
  lines : List Nat := []
  /-- marked granules of the frame, for quarantine (R255) -/
  marked : List Nat := []
  /-- order of Pump release -/
  released : Nat := 0
  /-- cluster, and 64 times the pipeline, last run on; 0x3F for none (Table 14-8) -/
  place : Nat := 0x3F
  deriving DecidableEq, Repr

/-- A token bucket pair of a policer (R198), in 1/1,024 byte, and the network time of its last update in ns. -/
structure Bucket where
  tc : Nat := 0
  te : Nat := 0
  last : Nat := 0
  deriving DecidableEq, Repr

/-- A shaper's count in 1/1,024 byte and the tick of its last update (R202). -/
structure ShapeCnt where
  k : Int := 0
  last : Nat := 0
  deriving DecidableEq, Repr

/-- Replay state of a receive SA (R40): H and the PNs accepted within the window. -/
structure Replay where
  high : Nat := 0
  seen : List Nat := []
  /-- lower bound left by a raised window (R44) -/
  low : Nat := 1
  deriving DecidableEq, Repr

/-- Channel state beside its record (R21–R23, R50). -/
structure Chan where
  /-- state [R21; reset FREE] -/
  state : ChanState := .free
  /-- draining after CHAN.DISABLE [R22; reset 0] -/
  draining : Bool := false
  /-- enable pending for MKA [R23; reset 0] -/
  pendingEnable : Bool := false
  /-- phase [R20; reset 0] -/
  phase : Bool := false
  /-- ca [R390; reset 0xFFFF] -/
  ca : Nat := 0xFFFF
  /-- frames accepted in the encrypt direction and not yet dispatched [R47; reset 0] -/
  reserved : Nat := 0
  /-- the superseded slot is held for receive [R51; reset 0] -/
  superseded : Bool := false
  /-- tick of the last switch [R51; reset 0] -/
  switchedAt : Nat := 0
  /-- a switch accepted and not yet made between two dispatches [R50, R52; reset 0] -/
  switching : Bool := false
  deriving DecidableEq, Repr

/-- A host classification entry (R26): overflow array or bucket, and whether parity invalidated it (R30). -/
structure ClassEntry where
  key : ClassKey
  chan : Nat
  overflow : Bool := false
  invalid : Bool := false
  deriving DecidableEq, Repr

/-- Per-channel, per-direction counts (R357). -/
structure ChanCount where
  accepted : Nat := 0
  bytes : Nat := 0
  discarded : Nat := 0
  lastReason : Nat := 0
  deriving DecidableEq, Repr

/-- A frame of the control complex in a management queue (R208, R239, R242): bytes without FCS, time-stamp identifier,
launch time in seconds and ns, and the transmit ring it came from. -/
structure MgmtFrame where
  data : Bytes
  ident : Option Nat := none
  launch : Option (Nat × Nat) := none
  ring : Option Nat := none
  index : Nat := 0
  /-- e(F) on its port -/
  ebytes : Nat := 0
  /-- virtual finish tag (R208, R211) -/
  tag : Rat := 0
  /-- order of Pump release, once released -/
  released : Option Nat := none
  /-- sent late without its launch time (R243) -/
  late : Bool := false
  /-- its granules of the control pool (R253) -/
  chain : List Nat := []
  deriving DecidableEq, Repr

/-- State of an egress port (q as in R203). -/
structure PortSt where
  /-- link up [R189; reset 0] -/
  link : Bool := false
  /-- preempt_oper [R220; reset 0] -/
  preemptOper : Bool := false
  /-- MAC hold in force [R219; reset 0] -/
  hold : Bool := false
  /-- class gates, bit c open [R216; reset all open] -/
  gates : BitVec 8 := 0xFF
  /-- tick at which the transmission in progress ends [R209; reset 0] -/
  busyUntil : Nat := 0
  /-- management queue, oldest first [R208; reset empty] -/
  mgmt : List MgmtFrame := []
  /-- last virtual finish tag of the management queue [R208; reset 0] -/
  mgmtTag : Rat := 0
  /-- launch frame held at the head of the queue [R242; reset 0] -/
  launchHeld : Bool := false
  /-- class of a transmission in progress that is preemptible [R220; reset none] -/
  cuttable : Option Nat := none
  /-- ns left of a preemptible transmission stopped by its gate or a hold [R218, R219; reset none] -/
  stopped : Option Nat := none
  /-- tick at which an express transmission within a preempted one ends [R218; reset 0] -/
  expressUntil : Nat := 0
  deriving DecidableEq, Repr

/-- A gate list bank pair (R214–R217). -/
structure Gate where
  /-- operational list: entry words [R214; reset empty, every gate open] -/
  oper : List Nat := []
  /-- cycle of the operational list, ns [R217; reset 0] -/
  cycle : Nat := 0
  /-- S of the operational list, ns of network time [R217; reset 0] -/
  start : Nat := 0
  /-- administrative bank [R214; reset empty] -/
  admin : List Nat := []
  adminCycle : Nat := 0
  /-- a list has been loaded since the last swap or reset [R215; reset 0] -/
  loaded : Bool := false
  /-- S of the pending commit [R215; reset none] -/
  pending : Option Nat := none
  /-- start, in its list, of the entry whose OP has been issued [R219; reset none] -/
  cur : Option Nat := none
  /-- on the standby: pending, start, cycle_ns and entries as the holder last mirrored them [R294; reset none] -/
  told : Option (Nat × Nat × Nat × Nat) := none
  deriving DecidableEq, Repr

/-- A time-stamp queue entry (R239). -/
structure TsEntry where
  ident : Nat
  time : Stamp
  deriving DecidableEq, Repr

/-- A transmit time-stamp queue with its port's board corrections (Table 8-6). -/
structure Tsq where
  entries : List TsEntry := []
  ovf : Bool := false
  firstLost : Nat := 0
  lost : Nat := 0
  /-- entries that have met a full queue in the present tick, in which a POP would still make room [R241; reset empty] -/
  waiting : List TsEntry := []
  corrTx : W32 := 0
  corrRx : W32 := 0
  deriving DecidableEq, Repr

/-- Traffic: channels, classification, policers, queues, ports, gates (chapters 2, 6, 7, 8). -/
structure Traffic where
  /-- channel states, default FREE [R21; reset FREE] -/
  chans : Tab Chan := []
  /-- host classification table [R26; reset empty] -/
  classes : List ClassEntry := []
  /-- next PN per channel slot, default 1 [R45; reset 1] -/
  pns : Tab Nat := []
  /-- channel slots whose SA has raised EV_PN_THRESH [R46; reset none] -/
  threshRaised : List Nat := []
  /-- replay state per channel slot [R40; reset H = 0, empty] -/
  replay : Tab Replay := []
  /-- policer buckets by policer number [R198; reset 0] -/
  buckets : Tab Bucket := []
  /-- shaper counts by shaper number [R202; reset 0] -/
  shapes : Tab ShapeCnt := []
  /-- frames in flight by frame number [R251; reset none] -/
  frames : Tab Frame := []
  /-- next request number, of frames and of other requests [R103; reset 0: DESIGN CHOICE log 6] -/
  nextFid : Nat := 0
  /-- Pump releases so far [R207; reset 0: DESIGN CHOICE log 6] -/
  releases : Nat := 0
  /-- last virtual finish tag per channel and direction, by 2·chan + dir [R211; reset 0] -/
  tags : Tab Rat := []
  /-- tick of a channel's next release while its group is held to k_B or k_R, by 2·chan + dir [R192; reset 0] -/
  paced : Tab Rat := []
  /-- egress bytes that the rate of the projection has left of a queue and the tick of the figure: express by port q, others by
  96 + 2·chan + dir [R190; reset 0] -/
  fluid : Tab (Rat × Rat) := []
  /-- port states by q [R203; reset link down, gates open] -/
  ports : Tab PortSt := []
  /-- gate lists by q [R214; reset empty] -/
  gates : Tab Gate := []
  /-- transmit time-stamp queues by q [R239; reset empty] -/
  tsq : Tab Tsq := []
  /-- discards by 32·q + reason code [R357; reset 0] -/
  sump : Tab Nat := []
  /-- counts by 2·chan + dir [R357; reset 0] -/
  chanCounts : Tab ChanCount := []
  /-- untagged frames delivered under CHECK, by channel [R37; reset 0] -/
  untagged : Tab Nat := []
  /-- diverted MKPDUs that wait for Gydom, each with its CA, from the destination address on without clear tags
  [R55; reset empty] -/
  mkaIn : List (Nat × Bytes) := []
  /-- second of the TIME clock, and MKPDUs sent within it [R59; reset 0] -/
  mkaSent : Nat × Nat := (0, 0)
  /-- millisecond of the TIME clock, and rekeys started within it [R61; reset 0] -/
  rekeys : Nat × Nat := (0, 0)
  /-- SerDes groups whose reference clock or lanes are lost [R16; reset none] -/
  sgLost : List Nat := []
  /-- SerDes groups that failed calibration at boot [R313; reset none] -/
  sgFailed : List Nat := []
  deriving DecidableEq, Repr

/-- The salts of the link keys of one direction and epoch (Table 3-2); the keys themselves are internal keys of the key store. -/
structure LinkSalts where
  hsalt : BitVec 32 := 0
  csalt : Salt := 0
  deriving DecidableEq, Repr

/-- A sealed frame on its way into cells (R79): channel, whether its FIRST segment has gone, whether an express frame has come
between its segments, bytes still to send, class, t_r, the REQ field of its sampling record, its whole length, its deadline (R171),
its place among the releases (R209) and its first granule. -/
structure Seg where
  chan : Nat := 0
  opened : Bool := false
  hosted : Bool := false
  data : Bytes := []
  tc : Nat := 0
  tr : Nat := 0
  req : Nat := 0
  size : Nat := 0
  deadline : Option Rat := none
  released : Nat := 0
  granule : Nat := 0
  deriving DecidableEq, Repr

/-- A control message on its way to a cell: plaintext from its type byte on, PTP time-stamp identifier, and the transmit ring and
descriptor it came from (R79, R382). -/
structure CtlMsg where
  data : Bytes
  ident : Option Nat := none
  ring : Option Nat := none
  index : Nat := 0
  deriving DecidableEq, Repr

/-- The working state of a CTR_DRBG with AES-256 (SP 800-90A). -/
structure Drbg where
  key : Key
  v : BitVec 128
  deriving DecidableEq, Repr

/-- Octets on their way into RS(544,514) codewords (R64, R65). -/
structure Fec where
  /-- message bits not yet in a codeword [R65; reset empty] -/
  bits : List Bool := []
  /-- octets placed since the last group of alignment markers [R65; reset 0] -/
  since : Nat := 0
  /-- groups of alignment markers sent [R64; reset 0] -/
  groups : Nat := 0
  /-- message bits since the last group, newest first, for what a BIP field covers [R64; reset empty] -/
  span : List Bool := []
  deriving DecidableEq, Repr

/-- Wellhead transmitter of a line port (R70–R86, R91). -/
structure WhTx where
  /-- sending cells [R85; reset 0] -/
  running : Bool := false
  /-- tick of the last RDI queued [R97; reset none] -/
  rdiAt : Option Nat := none
  /-- session nonce N [R74; reset 0] -/
  nonce : W64 := 0
  /-- link_id and role taken at the session start with the link master, which the key store holds [R72; reset 0] -/
  linkId : Nat := 0
  role : Nat := 0
  /-- epoch [R71; reset 0] -/
  epoch : Nat := 0
  /-- SEQ of the next cell [R70; reset 0] -/
  seq : Nat := 0
  /-- salts of even and of odd epochs; the present epoch's and the next's are those in use [R73; reset 0] -/
  salt0 : LinkSalts := {}
  salt1 : LinkSalts := {}
  /-- the keys of the next epoch are derived [R75; reset 0] -/
  next : Bool := false
  /-- next control-message PN [R90; reset 1] -/
  ctlPn : Nat := 1
  /-- heartbeat counter [R91; reset 0] -/
  heartbeat : Nat := 0
  /-- sealed control messages waiting for a cell, oldest first, each with its segment's data [R79, R90; reset empty] -/
  ready : List (Bytes × CtlMsg) := []
  /-- an announce is due in the next cell [R91; reset 0] -/
  announceDue : Bool := false
  /-- sealed frames in placement order [R79; reset empty] -/
  segs : List Seg := []
  /-- CTR_DRBG of the fill bytes [R84; reset not seeded] -/
  fill : Option Drbg := none
  /-- octets on their way into FEC codewords [R65; reset empty] -/
  fec : Fec := {}
  deriving DecidableEq, Repr

/-- A link-channel segment received: an epoch announce, or a kind 0x02 segment (its plaintext once it has passed its ICV), with SEQ
and KP of its cell, and the cell's corrected receive time (R92). -/
structure CtlSeg where
  announce : Bool := false
  data : Bytes
  seq : Nat
  kp : Bool
  time : Stamp
  deriving DecidableEq, Repr

/-- Wellhead receiver of a line port (R87–R97). -/
structure WhRx where
  /-- receive state [R93; reset HUNT] -/
  state : RxState := .hunt
  /-- octets received and not yet consumed [R65; reset empty] -/
  buf : Bytes := []
  /-- tick up to which time out of SYNC is counted in WH_OOS_US [R99; reset 0] -/
  oosFrom : Nat := 0
  /-- expected SEQ [R94; reset 0] -/
  seq : Nat := 0
  /-- expected KP [R94; reset 0] -/
  kp : Bool := false
  /-- consecutive successes in PRESYNC [R93; reset 0] -/
  good : Nat := 0
  /-- consecutive bad headers in SYNC [R93; reset 0] -/
  bad : Nat := 0
  /-- KEYED [R95; reset 0] -/
  keyed : Bool := false
  nonce : W64 := 0
  epoch : Nat := 0
  /-- salts of even and of odd epochs [R73; reset 0] -/
  salt0 : LinkSalts := {}
  salt1 : LinkSalts := {}
  /-- the keys of the next epoch are derived [R75; reset 0] -/
  next : Bool := false
  /-- tick of the last entry into SYNC, or into another state from SYNC [R96; reset 0] -/
  since : Nat := 0
  /-- tick of the last kind 0x02 segment that passed its ICV [R96; reset 0] -/
  lastCtl : Nat := 0
  /-- tick in which the receiver last became KEYED or accepted an RDI segment [R97; reset 0] -/
  lastRdi : Nat := 0
  /-- instant and tick of the last octet received, from which every octet's own follows at the constant rate [R92; reset 0] -/
  stamp : Stamp := {}
  tick : Nat := 0
  /-- open frames, oldest first: channel and bytes so far [R88; reset empty] -/
  opened : List (Nat × Bytes) := []
  /-- frames closed by LAST and not yet checked: channel, bytes, tick [R89; reset empty] -/
  closed : List (Nat × Bytes × Nat) := []
  /-- link-channel segments received and not yet handled [R90; reset empty] -/
  inbox : List CtlSeg := []
  /-- dLOD [R96; reset 0] -/
  lod : Bool := false
  /-- dLHB [R96; reset 0] -/
  lhb : Bool := false
  /-- dRDI [R97; reset 0] -/
  rdi : Bool := false
  deriving DecidableEq, Repr

/-- The per-second counters of a sealed port (Table 3-9). -/
structure WhCnt where
  txCells : Nat := 0
  txFill : Nat := 0
  rxCells : Nat := 0
  rxCorr : Nat := 0
  rxBad : Nat := 0
  hunt : Nat := 0
  oosUs : Nat := 0
  unkeyed : Nat := 0
  segErr : Nat := 0
  ctlFail : Nat := 0
  rdiRx : Nat := 0
  defects : BitVec 3 := 0
  deriving DecidableEq, Repr

/-- The Wellhead of a line port: live and latched counters, transmitter and receiver (R99). -/
structure Wh where
  live : WhCnt := {}
  latched : WhCnt := {}
  latSec : Nat := 0
  tx : WhTx := {}
  rx : WhRx := {}
  deriving DecidableEq, Repr

/-- A descriptor in progress (R125): its index and bytes (Table 4-9), its status, and whether its chunks have all run. -/
structure LaWork where
  index : Nat
  desc : Bytes
  status : Status := .ok
  done : Bool := false
  /-- AAD and text bytes of the descriptor done in chunks [R127] -/
  aadDone : Nat := 0
  textDone : Nat := 0
  /-- GCM state in the engine's registers: IV, counter, GHASH in two shares, total AAD and text bytes [R111, R127] -/
  iv : Bytes := []
  ctr : Nat := 2
  ghash : Nat × Nat := (0, 0)
  totalAad : Nat := 0
  totalText : Nat := 0
  /-- output in the staging granules [R129] -/
  outp : Bytes := []
  /-- numbers of its staging granules [R129] -/
  chain : List Nat := []
  /-- tick of the fetch [R359] -/
  fetched : Nat := 0
  deriving DecidableEq, Repr

/-- A lookaside queue (Tables 4-6 to 4-8). -/
structure LaQ where
  colour : Nat := 0
  irqEn : Bool := false
  en : Bool := false
  ringErr : Bool := false
  descBase : Nat := 0
  size : Nat := 4
  descProd : Nat := 0
  descCons : Nat := 0
  cplBase : Nat := 0
  cplProd : Nat := 0
  cplCons : Nat := 0
  work : List LaWork := []
  deriving DecidableEq, Repr

/-- What a request other than a frame's serves (Table 4-2): a control message to be sealed for a Wellhead, a kind 0x02 segment
received by it under the keys of an even or odd epoch, or a chunk of a lookaside queue's descriptor of a AAD and t text bytes, with
the work as it stands once the chunk has run. -/
inductive ReqKind where
  | seal (p : Nat) (m : CtlMsg)
  | unseal (p : Nat) (x : CtlSeg) (odd : Bool)
  | chunk (n a t : Nat) (w : LaWork)
  deriving DecidableEq, Repr

/-- A request of the array other than a frame's (R103, R105): its cluster once dispatched, the key fetched, in two shares, and what it
computes: segment data sealed, or a plaintext and whether its ICV passed. -/
structure Req where
  kind : ReqKind
  cluster : Option Nat := none
  key : Line := {}
  outp : Bytes := []
  pass : Bool := true
  deriving DecidableEq, Repr

/-- A diverted frame waiting for its ring (R378–R380). -/
structure Punt where
  port : Nat
  entry : Nat
  data : Bytes
  time : Stamp
  ptp : Bool := false
  /-- its granules of the control pool (R253) -/
  chain : List Nat := []
  /-- tick at which it was received -/
  tick : Nat := 0
  deriving DecidableEq, Repr

/-- A receive descriptor reserved for a frame (R380): its index, buffer address and length. -/
structure Slotted where
  index : Nat
  addr : Nat
  len : Nat
  deriving DecidableEq, Repr

/-- A ring (Table 15-15). -/
structure Ring where
  colour : Nat := 0
  irqEn : Bool := false
  en : Bool := false
  accErr : Bool := false
  base : Nat := 0
  size : Nat := 4
  prod : Nat := 0
  cons : Nat := 0
  drop : Nat := 0
  /-- diverted frames waiting for descriptors, oldest first [R380; reset empty] -/
  waiting : List Punt := []
  /-- tick since which the first of them has been at the head [R380; reset 0] -/
  headAt : Nat := 0
  /-- the reservation that the frame at the head holds [R380; reset none] -/
  reserved : Option (List Slotted) := none
  /-- next descriptor the engine takes, at or ahead of CONS on a transmit ring [R382; reset 0] -/
  next : Nat := 0
  /-- descriptors done with and their STATUS, not yet written back in ring order [R382; reset empty] -/
  finished : List (Nat × Nat) := []
  deriving DecidableEq, Repr

/-- IRQ block (R375). -/
structure Irq where
  /-- IRQ_MAP_e: EN at bit 8, VEC at [5:0] [R375; reset 0] -/
  map : Tab Nat := []
  /-- cause bits [R375; reset 0] -/
  cause : W64 := 0
  /-- armed vectors [R375; reset armed] -/
  armed : W64 := 0xFFFFFFFFFFFFFFFF
  /-- MSI-X enabled [R375; reset 0] -/
  msix : Bool := false
  /-- masked vectors [R375; reset per PCIe, masked: PRESUMED log 7] -/
  masked : W64 := 0xFFFFFFFFFFFFFFFF
  /-- pending bit array [R375; reset 0] -/
  pba : W64 := 0
  /-- MSI-X table: message address and data words by 4·vector + word [R375; reset 0] -/
  table : Tab Nat := []
  /-- record count of the event ring [R376; reset 0] -/
  records : Nat := 0
  deriving DecidableEq, Repr

/-- DP block (Tables 15-10 to 15-12). -/
structure Dp where
  /-- claiming mailbox and session [R371; reset none] -/
  claim : Option (Nat × Nat) := none
  colour : Nat := 0
  inc : Bool := false
  en : Bool := false
  addr : Nat := 0
  err : Bool := false
  cause : Nat := 0
  errAddr : Nat := 0
  deriving DecidableEq, Repr

/-- PERF block and sampler (chapter 14). -/
structure Perf where
  /-- live programmable counters [R351; reset 0] -/
  cnt : Tab Nat := []
  /-- latched programmable counters [R355; reset 0] -/
  lat : Tab Nat := []
  /-- overflow bits [R351; reset 0] -/
  ovf : BitVec 256 := 0
  /-- live fixed counters [R353; reset 0] -/
  fix : Tab Nat := []
  /-- latched fixed counters [R355; reset 0] -/
  flat : Tab Nat := []
  fovf : W64 := 0
  /-- PERF_LAT_SEC [R355; reset 0] -/
  latSec : Nat := 0
  /-- qualifying events since the last sampling record [R358; reset 0] -/
  smpCount : Nat := 0
  smpWr : Nat := 0
  smpRd : Nat := 0
  smpFill : Nat := 0
  smpLost : Nat := 0
  smpSkip : Nat := 0
  /-- tick of the last record written [R358; reset none] -/
  smpTick : Option Nat := none
  /-- sampling records of 32 bytes by index [R359; reset 0] -/
  smpRec : Tab Bytes := []
  deriving DecidableEq, Repr

/-- A mailbox session (R368, R369). -/
structure Session where
  id : W32
  world : World
  enrolment : Bool := false
  /-- tick of its opening or of its last request that passed check 7 -/
  lastAt : Nat := 0
  deriving DecidableEq, Repr

/-- What a request answers (R384): status and body; dup marks a duplicate's answer, given byte for byte. -/
structure Answer where
  status : Status
  body : Bytes := []
  dup : Bool := false
  /-- the request passed checks 1 to 3, so that its response replaces the cache -/
  cached : Bool := true
  elapsed : Option Nat := none
  deriving DecidableEq, Repr

/-- A mailbox (Tables 15-2, 15-3). -/
structure Mbx where
  /-- request buffer, by byte offset [R363; reset 0] -/
  req : Tab Byte := []
  /-- response buffer [R363; reset 0] -/
  rsp : Bytes := []
  /-- BUSY [R363; reset 0] -/
  busy : Bool := false
  /-- DONE [R363; reset 0] -/
  done : Bool := false
  /-- DB_REJ [R364; reset 0] -/
  dbRej : Bool := false
  /-- WR_REJ [R364; reset 0] -/
  wrRej : Bool := false
  /-- open session [R369; reset none] -/
  session : Option Session := none
  /-- identifiers used since reset [R369; reset none] -/
  usedIds : List W32 := []
  /-- outstanding challenge: bytes, general slot, tick [R368; reset none] -/
  challenge : Option (BitVec 128 × Nat × Nat) := none
  /-- SEQ and SESSION of the last request that passed checks 1–3 [R366; reset none] -/
  last : Option (W32 × W32) := none
  /-- its response once given [R366; reset none] -/
  cache : Option Answer := none
  /-- the command the doorbell started, not yet executed [R363; reset none] -/
  started : Option Instr := none
  /-- the answer waiting to be written by MAILBOX_RESPONSE [R363; reset none] -/
  answer : Option Answer := none
  /-- SEQ, SESSION and FLAGS.IRQ of the request executing, and the tick of its doorbell [R363; reset 0] -/
  seq : W32 := 0
  irq : Bool := false
  rung : Nat := 0
  /-- place of the doorbell among all doorbells [R367; reset 0] -/
  order : Nat := 0
  /-- a function-level reset came while a command waited, whose answer goes nowhere [R312; reset 0] -/
  orphan : Bool := false
  deriving DecidableEq, Repr

/-- The identity of an SAK of MKA: its key server's member identifier, its key number and its AN (R57). -/
structure SakId where
  mi : Nat := 0
  kn : Nat := 0
  an : Nat := 0
  deriving DecidableEq, Repr

/-- An MKA peer (R58), and the tick at which it was last heard. -/
structure Peer where
  mi : Nat
  mn : Nat
  priority : Nat
  sci : Nat
  rxLatest : Bool := false
  txLatest : Bool := false
  heard : Nat := 0
  deriving DecidableEq, Repr

/-- A connectivity association's protocol state (R54–R61). -/
structure Ca where
  /-- created [R54; reset 0] -/
  exist : Bool := false
  /-- stopped because its channel became FREE [R23; reset 0] -/
  stopped : Bool := false
  /-- own member identifier [R54; reset 0] -/
  mi : Nat := 0
  /-- message number [R54; reset 0] -/
  mn : Nat := 0
  /-- live peers [R58; reset none] -/
  peers : List Peer := []
  /-- SECURED [R58; reset 0] -/
  secured : Bool := false
  /-- a rekey is due and not started [R61; reset 0] -/
  due : Bool := false
  /-- a rekey is in progress: SAK generated or unwrapped and not yet switched to [R60; reset 0] -/
  active : Bool := false
  /-- the SAK of the rekey has been distributed [R60; reset 0] -/
  distributed : Bool := false
  /-- a live-peer change after distribution, to cause a second rekey [R60; reset 0] -/
  again : Bool := false
  /-- wrapped SAK to distribute [R57; reset empty] -/
  wrapped : Bytes := []
  /-- the rekey in progress is this device's, as key server [R60; reset 0] -/
  ours : Bool := false
  /-- tick from which a due rekey may start: CA.REKEY's offset [R61; reset 0] -/
  dueFrom : Nat := 0
  /-- tick of the last switch [R60; reset 0] -/
  switchedAt : Nat := 0
  /-- length of ICK and KEK in bytes, that of the CAK [R54; reset 0] -/
  kekBytes : Nat := 0
  /-- last key number distributed under the present member identifier [R57; reset 0] -/
  kn : Nat := 0
  /-- newest SAK and the one before it [R57; reset none] -/
  latest : Option SakId := none
  older : Option SakId := none
  /-- peers heard that have not listed this device yet [R58; reset none] -/
  potential : List Peer := []
  /-- CA fault events raised: a suite or offset other than the channel's selected [R58; reset 0] -/
  faults : Nat := 0
  /-- tick of the last MKPDU sent [R58; reset none] -/
  sentAt : Option Nat := none
  deriving DecidableEq, Repr

/-- Pairing exchange (R287): own ciphertext, ephemeral scalar and encapsulated secret, the partner's bytes so far, and its
confirm. -/
structure PairExch where
  ct : Bytes := []
  eph : Nat := 0
  secret : Key := 0
  theirs : Bytes := []
  parts : Nat := 0
  pairKey : Option Key := none
  deriving DecidableEq, Repr

/-- Mated pair (chapter 10). -/
structure Pair where
  /-- mated link KEYED [R288; reset 0] -/
  linkUp : Bool := false
  /-- the mated link has keyed since the start [R290; reset 0] -/
  everKeyed : Bool := false
  /-- PAIR_STATUS.PARTNER_HALTED [R288; reset 0] -/
  partnerHalted : Bool := false
  /-- pair[0].state [R288; reset UNPAIRED] -/
  state : PairState := .unpaired
  /-- first full synchronisation done [R288; reset 0] -/
  synced : Bool := false
  /-- pair[0].lease [R289; reset NONE] -/
  lease : Lease := .none
  /-- held the lease without renewals after PAIR.SOLO or HALTING [R290; reset 0] -/
  alone : Bool := false
  /-- seq of the last LEASE_RENEW sent [R291; reset 0] -/
  renewSeq : Nat := 0
  /-- renews sent within the last lease_us: seq and tick [R291; reset empty] -/
  renews : List (Nat × Nat) := []
  /-- tick at which the holder's lease ends [R291; reset 0] -/
  leaseEnd : Nat := 0
  /-- state in the last LEASE_ACK received (echo) [R291; reset not READY] -/
  ackState : Nat := 0
  /-- echo of the last renew sent [R291; reset not READY] -/
  lastEcho : Nat := 0
  /-- seq of the last renew received, and its echo [R291; reset none] -/
  rxRenew : Option (Nat × Nat) := none
  /-- tick at which the standby's grant ends [R291; reset 0] -/
  grantEnd : Nat := 0
  /-- tick of the last lease message received [R290; reset 0] -/
  lastLeaseMsg : Nat := 0
  /-- partner's last STATE: mode, ready, spares, degrade [R282; reset unknown] -/
  partner : Option (Nat × Nat × Nat × Nat) := none
  /-- time_offset_ns [R298; reset 0: DESIGN CHOICE log 8] -/
  offset : Int := 0
  /-- version of each mirrored object [R294; reset 0] -/
  versions : Tab Nat := []
  /-- version of each object the partner has acknowledged [R294; reset 0] -/
  acked : Tab Nat := []
  /-- on the standby: version held of each object [R294; reset 0] -/
  heldVer : Tab Nat := []
  /-- mailbox command waiting for a mirror acknowledgment: object, mailbox, answer [R295; reset none] -/
  mirrorWait : List (Nat × Nat × Answer) := []
  /-- SAK distributions waiting for a mirror acknowledgment: object and CA [R295; reset none] -/
  sakWait : List (Nat × Nat) := []
  /-- watermark last sent per channel slot [R296; reset 0] -/
  markSent : Tab Nat := []
  /-- watermark acknowledged per channel slot [R296; reset 0] -/
  markAcked : Tab Nat := []
  /-- on the standby: watermark received per channel slot [R297; reset 0] -/
  markGot : Tab Nat := []
  /-- batches sent and not acknowledged [R296; reset empty] -/
  batches : List (Nat × Marks) := []
  nextBatch : Nat := 0
  /-- planned handover in progress on the holder: mailbox, drained, tick of its start [R302; reset none] -/
  handover : Option (Option Nat × Bool × Nat) := none
  /-- pairing exchange in progress [R287; reset none] -/
  exch : PairExch := {}
  /-- tick at which the last pairing exchange began [R287; reset 0] -/
  exchAt : Nat := 0
  /-- off the holder: the partner has reported that its mirrored objects are acknowledged [R288; reset 0] -/
  peerSynced : Bool := false
  /-- tick at which the mated link last keyed [R290; reset 0] -/
  keyedAt : Nat := 0
  /-- tick of the last LEASE_RENEW sent as holder [R291; reset none] -/
  renewAt : Option Nat := none
  /-- tick of the last TIME_CMP sent [R298; reset none] -/
  cmpAt : Option Nat := none
  /-- the lease was taken over from the partner, which has not been lost since [R293; reset 0] -/
  took : Bool := false
  /-- start PN of a slot after a PN jump [R297; reset none] -/
  starts : Tab Nat := []
  /-- tick at which an object's MIRROR was last sent [R295; reset 0] -/
  sentAt : Tab Nat := []
  /-- PSEL[47:0] [R299; reset 0] -/
  psel : BitVec 48 := 0
  deriving DecidableEq, Repr

/-- A fault log record (Table 16-4): class, row of Table 10-2, detail. -/
structure FaultRec where
  index : Nat
  sec : Nat
  ns : Nat
  cls : Nat
  row : Nat
  detail : Nat
  deriving DecidableEq, Repr

/-- Maintenance: fault log, degrade conditions, rotation (chapters 10, 16). -/
structure Maint where
  /-- fault log, oldest first, at most 4,096 [R391; reset empty] -/
  log : List FaultRec := []
  nextIndex : Nat := 0
  /-- degrade conditions in force [R282; reset 0] -/
  degrade : BitVec 4 := 0
  /-- cluster under test by rotation, and the mailbox of a CL.TEST [R280; reset none] -/
  rotating : Option (Nat × Option Mb) := none
  /-- next cluster to test in cluster order [R280; reset 0] -/
  nextTest : Nat := 0
  /-- rotation waits for ROTATION_RESUME after a retirement [R281; reset 0] -/
  paused : Bool := false
  /-- clusters to be replaced, each with the spare in its known-answer test [R279, R280; reset none] -/
  replacing : List (Nat × Nat) := []
  /-- tick at which the last retirement completed [R281; reset 0] -/
  retiredAt : Nat := 0
  /-- tick at which the last rotation step by time began [R280; reset 0] -/
  stepAt : Nat := 0
  deriving DecidableEq, Repr

/-- I2C target (R383). -/
structure I2c where
  ptr : Nat := 0
  snap : Bytes := []
  /-- tick of the last refresh of the map [R383; reset none] -/
  snapAt : Option Nat := none
  deriving DecidableEq, Repr

/-- What the device has driven to the outside. -/
inductive Out where
  /-- data of a PCIe read -/
  | read (data : Bytes)
  /-- MSI-X message of a vector -/
  | msix (vector : Nat)
  /-- an Ethernet frame without FCS starts on port q; bad: its FCS is inverted -/
  | frame (q : Nat) (data : Bytes) (bad : Bool)
  /-- a sealed cell on line port p -/
  | cell (p : Nat) (data : Bytes)
  /-- RS(544,514) codewords that cells of line port p complete, as the symbols of each FEC lane (R64, R65) -/
  | codewords (p : Nat) (lanes : List (List Nat))
  /-- a message on the mated link, plaintext from the type byte on (Table 10-7) -/
  | mate (message : Bytes)
  /-- data of a read by an on-chip master -/
  | master (id : Nat) (data : Bytes)
  /-- an AVSBus setpoint write in mV -/
  | avs (mv : Nat)
  /-- a ToD message on TOD_TX -/
  | tod (message : Bytes)
  /-- bytes of an I2C read -/
  | i2c (data : Bytes)
  /-- the frame in transmission on port q ends with an inverted FCS (R284) -/
  | cut (q : Nat)
  /-- every transmitter to electrical idle (R284, R306) -/
  | idle
  deriving DecidableEq, Repr

/-- The state of the block. -/
structure State where
  glb : Glb := {}
  nvm : Nvm := {}
  time : TimeBlk := {}
  pmu : Pmu := {}
  stp : Stp := {}
  keys : Keys := {}
  mem : Mem := {}
  traffic : Traffic := {}
  /-- Wellheads of line ports [R99; reset: every counter 0, HUNT] -/
  wh : Tab Wh := []
  /-- firmware object attributes by object ID, default of Table 16-5's rules [R392; reset defaults] -/
  objs : Tab Nat := []
  /-- lookaside queues Q0, Q1 [R124; reset Tables 4-6 to 4-8] -/
  la : Tab LaQ := []
  /-- queue that the engine fetched from last [R125; reset Q1: DESIGN CHOICE log 105] -/
  laTurn : Nat := 1
  /-- tick from which the lookaside floor has room for the next chunk [R128; reset 0] -/
  laFloorAt : Rat := 0
  /-- requests of the array other than frames, by request number [R103; reset none] -/
  reqs : List (Nat × Req) := []
  /-- rings 0–16 [R377; reset Table 15-15] -/
  rings : Tab Ring := []
  irq : Irq := {}
  dp : Dp := {}
  perf : Perf := {}
  /-- mailboxes MB0–MB15 [R363; reset 0] -/
  mbx : Tab Mbx := []
  /-- connectivity associations [R54; reset none] -/
  cas : Tab Ca := []
  pair : Pair := {}
  maint : Maint := {}
  i2c : I2c := {}
  /-- boundary-scan instruction acting on the balls [R310; reset BYPASS] -/
  tap : TapInstr := .bypass
  /-- the model's own field: next value of Config.drbg and Config.free [R161; reset 0: DESIGN CHOICE log 1] -/
  rng : Nat := 0
  /-- the model's own field: everything driven out so far, newest first [reset empty: DESIGN CHOICE log 9] -/
  out : List Out := []
  /-- commands waiting, first in, first out [reset empty] -/
  pending : List Instr := []
  deriving DecidableEq, Repr

/-- Why the block stops with a fault: it never does. A fault of the device (Table 10-2) is a next state. -/
inductive Fault where
  deriving DecidableEq, Repr

/-- Why a command is refused by the model. -/
inductive Refusal where
  /-- Raised by Dispatch alone for a command with no meaning yet; safe, because no claim about it can be proved. -/
  | notModelled (mnemonic : String)
  deriving DecidableEq, Repr

/-- The machine right after reset: a first power-on in which RESET_N has not yet been released. -/
def State.reset : State := {}

end Sys2Proof.Machine
end

