-- ==== Sys2Proof/Machine/Operands.lean ====
section
/-! DEFINITION. Operand forms: sparse tables, fields of words, byte strings in both byte orders (R5, R8). -/

namespace Sys2Proof.Machine

open Sys2Proof

/-- The result of a command. -/
abbrev Result := Host.Outcome State Fault Refusal

/-- The entry of a table at k; d is what an unlisted number reads as. -/
def tget {α : Type} (d : α) : Tab α → Nat → α
  | [], _ => d
  | (k', v) :: r, k => if k' = k then v else tget d r k

/-- Insert or replace the entry at k, keeping the order. -/
def tins {α : Type} : Tab α → Nat → α → Tab α
  | [], k, v => [(k, v)]
  | (k', v') :: r, k, v =>
    if k < k' then (k, v) :: (k', v') :: r
    else if k = k' then (k, v) :: r
    else (k', v') :: tins r k v

/-- Write the entry at k; writing the default unlists it, so that equal tables are equal data. -/
def tset {α : Type} [DecidableEq α] (d : α) (t : Tab α) (k : Nat) (v : α) : Tab α :=
  let u := t.filter (fun p => !decide (p.1 = k))
  if v = d then u else tins u k v

/-- Change the entry at k. -/
def tmod {α : Type} [DecidableEq α] (d : α) (t : Tab α) (k : Nat) (f : α → α) : Tab α := tset d t k (f (tget d t k))

/-- The canonical form of memory: addresses strictly rising, and no entry equal to the zero that an unlisted address reads as. -/
def Memory.wf : Tab Byte → Bool
  | [] => true
  | (a, b) :: r => b != 0 && (match r with | [] => true | (c, _) :: _ => decide (a < c)) && Memory.wf r

/-- Bits hi down to lo of n. -/
def bits (n hi lo : Nat) : Nat := (n >>> lo) % 2 ^ (hi + 1 - lo)

/-- Bit i of n. -/
def bit (n i : Nat) : Bool := n.testBit i

/-- 1 for true. -/
def b01 (b : Bool) : Nat := if b then 1 else 0

/-- n with bit i given the value b. -/
def putBit (n i : Nat) (b : Bool) : Nat := if n.testBit i = b then n else n ^^^ (2 ^ i)

/-- ⌈a / b⌉. -/
def cdiv (a b : Nat) : Nat := (a + b - 1) / b

/-- n bytes of v, least significant first (R5). -/
def leBytes : (n v : Nat) → Bytes
  | 0, _ => []
  | n + 1, v => BitVec.ofNat 8 v :: leBytes n (v / 256)

/-- The number that little-endian bytes spell. -/
def leNat : Bytes → Nat
  | [] => 0
  | b :: r => b.toNat + 256 * leNat r

/-- n bytes of v, most significant first (network order, R5). -/
def beBytes (n v : Nat) : Bytes := (leBytes n v).reverse

/-- The number that big-endian bytes spell. -/
def beNat (b : Bytes) : Nat := b.foldl (fun a x => a * 256 + x.toNat) 0

/-- n bytes of b from offset o; bytes beyond the end read as zero. -/
def bsub (b : Bytes) (o n : Nat) : Bytes :=
  let x := (b.drop o).take n
  x ++ List.replicate (n - x.length) 0

/-- The little-endian field of n bytes at offset o. -/
def leAt (b : Bytes) (o n : Nat) : Nat := leNat (bsub b o n)

/-- The big-endian field of n bytes at offset o. -/
def beAt (b : Bytes) (o n : Nat) : Nat := beNat (bsub b o n)

/-- b with the bytes x put at offset o. -/
def bput (b : Bytes) (o : Nat) (x : Bytes) : Bytes := b.take o ++ x ++ b.drop (o + x.length)

/-- Whether every byte is zero. -/
def allZero (b : Bytes) : Bool := b.all (· == 0)

/-- n zero bytes. -/
def zeros (n : Nat) : Bytes := List.replicate n 0

/-- The two's-complement value of the low w bits of n. -/
def sx (w n : Nat) : Int :=
  let m := n % 2 ^ w
  if m < 2 ^ (w - 1) then (m : Int) else (m : Int) - (2 ^ w : Nat)

/-- The low w bits of an integer, as a number. -/
def tc (w : Nat) (x : Int) : Nat := (x % (2 ^ w : Nat)).toNat

/-- The ASCII bytes of a string. -/
def ascii (t : String) : Bytes := t.toList.map (fun c => BitVec.ofNat 8 c.toNat)

/-- The numbers from a, n of them. -/
def upFrom : (a n : Nat) → List Nat
  | _, 0 => []
  | a, n + 1 => a :: upFrom (a + 1) n

/-- The n-th element of a list, or d. -/
def nth {α : Type} (d : α) : List α → Nat → α
  | [], _ => d
  | x :: _, 0 => x
  | _ :: r, n + 1 => nth d r n

/-- The elements paired with their places, counted from i. -/
def indexed {α : Type} : Nat → List α → List (Nat × α)
  | _, [] => []
  | i, x :: r => (i, x) :: indexed (i + 1) r

/-- The smallest integer at least q. -/
def rceil (q : Rat) : Int := q.ceil

/-- The largest integer at most q. -/
def rfloor (q : Rat) : Int := q.floor

/-! One part of the state changed, the rest kept -/

def onGlb (f : Glb → Glb) (s : State) : State := { s with glb := f s.glb }
def onNvm (f : Nvm → Nvm) (s : State) : State := { s with nvm := f s.nvm }
def onTime (f : TimeBlk → TimeBlk) (s : State) : State := { s with time := f s.time }
def onPmu (f : Pmu → Pmu) (s : State) : State := { s with pmu := f s.pmu }
def onStp (f : Stp → Stp) (s : State) : State := { s with stp := f s.stp }
def onKeys (f : Keys → Keys) (s : State) : State := { s with keys := f s.keys }
def onMem (f : Mem → Mem) (s : State) : State := { s with mem := f s.mem }
def onTraffic (f : Traffic → Traffic) (s : State) : State := { s with traffic := f s.traffic }
def onIrq (f : Irq → Irq) (s : State) : State := { s with irq := f s.irq }
def onDp (f : Dp → Dp) (s : State) : State := { s with dp := f s.dp }
def onPerf (f : Perf → Perf) (s : State) : State := { s with perf := f s.perf }
def onPair (f : Pair → Pair) (s : State) : State := { s with pair := f s.pair }
def onMaint (f : Maint → Maint) (s : State) : State := { s with maint := f s.maint }
def onI2c (f : I2c → I2c) (s : State) : State := { s with i2c := f s.i2c }

/-- Something driven to the outside. -/
def emit (o : Out) (s : State) : State := { s with out := o :: s.out }

end Sys2Proof.Machine
end

