-- ==== Sys2Proof/Machine/Crypto.lean ====
section
/-! DEFINITION. The arithmetic the key store, the cipher array and the Wellhead compute: AES, GCM (R110), AES-CMAC and the
KDF of R73, AES key wrap, the CRCs of R69 and R333, and P-384 (R158). PRESUMED (log 10): the tables and constants of FIPS 197,
SP 800-38 and SP 800-186, which the spec names and does not restate. -/

namespace Sys2Proof.Machine

open Sys2Proof

/-- The octets of a byte string as numbers. -/
def octets (b : Bytes) : NatList := b.map (·.toNat)

/-- The byte string of octets given as numbers. -/
def ofOctets (l : NatList) : Bytes := l.map (BitVec.ofNat 8)

/-! CRCs -/

/-- Eight steps of the CRC-16 of R69. -/
def crc16Bits : Nat → Nat → Nat
  | 0, c => c
  | k + 1, c => crc16Bits k (if c.testBit 15 then ((c <<< 1) ^^^ 0x1021) % 65536 else (c <<< 1) % 65536)

/-- The CRC of R69 over octets from an initial value, without the final XOR. -/
def crc16 (start : Nat) (l : NatList) : Nat := l.foldl (fun c b => crc16Bits 8 (c ^^^ (b <<< 8))) start

/-- The header check of R69. -/
def hcs (l : NatList) : Nat := crc16 0 l ^^^ 0x5A3C

def crc32Bits : Nat → Nat → Nat
  | 0, c => c
  | k + 1, c => crc32Bits k (if c.testBit 0 then (c >>> 1) ^^^ 0xEDB88320 else c >>> 1)

/-- CRC-32 with the IEEE 802.3 polynomial (R333). -/
def crc32 (l : NatList) : Nat := (l.foldl (fun c b => crc32Bits 8 (c ^^^ b)) 0xFFFFFFFF) ^^^ 0xFFFFFFFF

/-! AES (FIPS 197) -/

/-- The S-box, entry x at bits 8x and up. -/
def aesSbox : Nat := 0x16bb54b00f2d99416842e6bf0d89a18cdf2855cee9871e9b948ed9691198f8e19e1dc186b95735610ef6034866b53e708a8bbd4b1f74dde8c6b4a61c2e2578ba08ae7a65eaf4566ca94ed58d6d37c8e779e4959162acd3c25c2406490a3a32e0db0b5ede14b8ee4688902a22dc4f816073195d643d7ea7c41744975fec130ccdd2f3ff1021dab6bcf5389d928f40a351a89f3c507f02f94585334d43fbaaefd0cf584c4a39becb6a5bb1fc20ed00d153842fe329b3d63b52a05a6e1b1a2c830975b227ebe28012079a059618c323c7041531d871f1e5a534ccf73f362693fdb7c072a49cafa2d4adf04759fa7dc982ca76abd7fe2b670130c56f6bf27b777c63

/-- The inverse S-box in the same form. -/
def aesInvSbox : Nat := 0x7d0c2155631469e126d677ba7e042b17619953833cbbebc8b0f52aae4d3be0a0ef9cc9939f7ae52d0d4ab519a97f51605fec8027591012b131c7078833a8dd1ff45acd78fec0db9a2079d2c64b3e56fc1bbe18aa0e62b76f89c5291d711af1476edf751ce837f9e28535ade72274ac9673e6b4f0cecff297eadc674f4111913a6b8a130103bdafc1020f3fca8f1e2cd00645b3b80558e4f70ad3bc8c00abd890849d8da75746155edab9edfd5048706c92b6655dcc5ca4d41698688664f6f87225d18b6d49a25b76b224d92866a12e084ec3fa420b954cee3d23c2a632947b54cbe9dec444438e3487ff2f9b8239e37cfbd7f3819ea340bf38a53630d56a0952

def subByte (x : Nat) : Nat := (aesSbox >>> (8 * x)) % 256
def invSubByte (x : Nat) : Nat := (aesInvSbox >>> (8 * x)) % 256

/-- Multiplication by x in GF(2^8). -/
def xtime (a : Nat) : Nat := if a.testBit 7 then ((a <<< 1) ^^^ 0x11B) % 256 else a <<< 1

def xor4 (a b : NatList) : NatList := List.zipWith (· ^^^ ·) a b

/-- Key expansion: words made so far, newest first; i is the number of the next word, nk the key's words. -/
def aesExpand (nk : Nat) : (fuel i rcon : Nat) → List NatList → List NatList
  | 0, _, _, ws => ws
  | fuel + 1, i, rcon, ws =>
    let prev := nth [] ws 0
    let back := nth [] ws (nk - 1)
    let t := if i % nk = 0 then
        match prev.map subByte with
        | [a, b, c, d] => [b ^^^ rcon, c, d, a]
        | o => o
      else if nk > 6 ∧ i % nk = 4 then prev.map subByte
      else prev
    aesExpand nk fuel (i + 1) (if i % nk = 0 then xtime rcon else rcon) (xor4 back t :: ws)

def chunks4 : Nat → NatList → List NatList
  | 0, _ => []
  | k + 1, l => l.take 4 :: chunks4 k (l.drop 4)

/-- Round keys of 16 octets. -/
def joinWords : Nat → List NatList → List NatList
  | 0, _ => []
  | k + 1, ws => (ws.take 4).flatten :: joinWords k (ws.drop 4)

/-- The round keys of a key of 16 or 32 octets. -/
def aesRounds (key : NatList) : List NatList :=
  let nk := key.length / 4
  let nr := nk + 6
  let total := 4 * (nr + 1)
  joinWords (nr + 1) (aesExpand nk (total - nk) nk 1 (chunks4 nk key).reverse).reverse

def shiftRows (s : NatList) : NatList :=
  [0, 5, 10, 15, 4, 9, 14, 3, 8, 13, 2, 7, 12, 1, 6, 11].map (nth 0 s)

def invShiftRows (s : NatList) : NatList :=
  [0, 13, 10, 7, 4, 1, 14, 11, 8, 5, 2, 15, 12, 9, 6, 3].map (nth 0 s)

def mixCol : NatList → NatList
  | [a, b, c, d] =>
    let e := a ^^^ b ^^^ c ^^^ d
    [a ^^^ e ^^^ xtime (a ^^^ b), b ^^^ e ^^^ xtime (b ^^^ c), c ^^^ e ^^^ xtime (c ^^^ d), d ^^^ e ^^^ xtime (d ^^^ a)]
  | o => o

def invMixCol : NatList → NatList
  | [a, b, c, d] =>
    let u := xtime (xtime (a ^^^ c))
    let v := xtime (xtime (b ^^^ d))
    mixCol [a ^^^ u, b ^^^ v, c ^^^ u, d ^^^ v]
  | o => o

def onCols (f : NatList → NatList) (s : NatList) : NatList := ((chunks4 4 s).map f).flatten

def aesEncRounds : List NatList → NatList → NatList
  | [], s => s
  | [k], s => xor4 (shiftRows (s.map subByte)) k
  | k :: r, s => aesEncRounds r (xor4 (onCols mixCol (shiftRows (s.map subByte))) k)

/-- One block of 16 octets enciphered under round keys. -/
def aesEnc (rk : List NatList) (block : NatList) : NatList :=
  match rk with
  | [] => block
  | k :: r => aesEncRounds r (xor4 block k)

def aesDecRounds : List NatList → NatList → NatList
  | [], s => s
  | [k], s => xor4 ((invShiftRows s).map invSubByte) k
  | k :: r, s => aesDecRounds r (onCols invMixCol (xor4 ((invShiftRows s).map invSubByte) k))

/-- One block deciphered under round keys. -/
def aesDec (rk : List NatList) (block : NatList) : NatList :=
  match rk.reverse with
  | [] => block
  | k :: r => aesDecRounds r (xor4 block k)

/-- n big-endian octets of v. -/
def beOct : (n v : Nat) → NatList
  | 0, _ => []
  | n + 1, v => (v / 256 ^ n) % 256 :: beOct n v

/-- The number big-endian octets spell. -/
def natBe (l : NatList) : Nat := l.foldl (fun a x => a * 256 + x) 0

/-! GCM with a 96-bit IV (SP 800-38D, R110) -/

def gmulStep : Nat → (x z v : Nat) → Nat
  | 0, _, z, _ => z
  | k + 1, x, z, v =>
    gmulStep k x (if x.testBit k then z ^^^ v else z)
      (if v.testBit 0 then (v >>> 1) ^^^ (0xE1 <<< 120) else v >>> 1)

/-- The product in GF(2^128) as GCM orders its bits. -/
def gmul (x y : Nat) : Nat := gmulStep 128 x 0 y

/-- The octets in blocks of 16, the last padded with zeros. -/
def blocks16 : Nat → NatList → List NatList
  | 0, _ => []
  | k + 1, l => if l.isEmpty then [] else
      let b := l.take 16
      (b ++ List.replicate (16 - b.length) 0) :: blocks16 k (l.drop 16)

/-- Octets entered into GHASH, zero-padded to whole blocks. -/
def ghashIn (h acc : Nat) (l : NatList) : Nat :=
  (blocks16 l.length l).foldl (fun a b => gmul (a ^^^ natBe b) h) acc

def ctrBlocks (rk : List NatList) (iv : NatList) : (fuel ctr : Nat) → NatList → NatList
  | 0, _, _ => []
  | fuel + 1, ctr, l =>
    if l.isEmpty then []
    else List.zipWith (· ^^^ ·) (l.take 16) (aesEnc rk (iv ++ beOct 4 ctr))
      ++ ctrBlocks rk iv fuel ((ctr + 1) % 2 ^ 32) (l.drop 16)

/-- Counter mode from a counter value over octets. -/
def ctrMode (rk : List NatList) (iv : NatList) (ctr : Nat) (l : NatList) : NatList := ctrBlocks rk iv l.length ctr l

/-- The hash subkey H = E(K, 0^128). -/
def hashSubkey (rk : List NatList) : Nat := natBe (aesEnc rk (List.replicate 16 0))

/-- The tag from the GHASH of AAD and ciphertext and their lengths. -/
def gcmTag (rk : List NatList) (iv : NatList) (acc alen clen : Nat) : NatList :=
  let h := hashSubkey rk
  let g := gmul (acc ^^^ ((8 * alen) * 2 ^ 64 + 8 * clen)) h
  xor4 (beOct 16 g) (aesEnc rk (iv ++ [0, 0, 0, 1]))

/-- GCM encryption: the ciphertext and its tag. -/
def gcmEnc (key iv aad text : NatList) : NatList × NatList :=
  let rk := aesRounds key
  let h := hashSubkey rk
  let c := ctrMode rk iv 2 text
  (c, gcmTag rk iv (ghashIn h (ghashIn h 0 aad) c) aad.length text.length)

/-- GCM decryption: the plaintext and whether the tag matched. -/
def gcmDec (key iv aad text tag : NatList) : NatList × Bool :=
  let rk := aesRounds key
  let h := hashSubkey rk
  (ctrMode rk iv 2 text, gcmTag rk iv (ghashIn h (ghashIn h 0 aad) text) aad.length text.length == tag)

/-! AES-CMAC (SP 800-38B) and the KDFs -/

def cmacDouble (x : Nat) : Nat := if x.testBit 127 then ((x <<< 1) ^^^ 0x87) % 2 ^ 128 else x <<< 1

def cmacBlocks (rk : List NatList) (k1 k2 : Nat) : (fuel acc : Nat) → NatList → NatList
  | 0, acc, _ => beOct 16 acc
  | fuel + 1, acc, l =>
    if l.length ≤ 16 then
      let last := if l.length = 16 then natBe l ^^^ k1
        else natBe (l ++ 0x80 :: List.replicate (15 - l.length) 0) ^^^ k2
      aesEnc rk (beOct 16 (acc ^^^ last))
    else cmacBlocks rk k1 k2 fuel (natBe (aesEnc rk (beOct 16 (acc ^^^ natBe (l.take 16))))) (l.drop 16)

/-- AES-CMAC of a message under a key of 16 or 32 octets. -/
def cmac (key msg : NatList) : NatList :=
  let rk := aesRounds key
  let k1 := cmacDouble (hashSubkey rk)
  cmacBlocks rk k1 (cmacDouble k1) (msg.length + 1) 0 msg

def kdfBlocks (key tail : NatList) : (n i : Nat) → NatList
  | 0, _ => []
  | n + 1, i => cmac key (beOct 4 i ++ tail) ++ kdfBlocks key tail n (i + 1)

/-- The SP 800-108 counter-mode KDF of R73: L bits under a key, label and context. -/
def kdf (key label context : NatList) (l : Nat) : NatList :=
  (kdfBlocks key (label ++ 0 :: context ++ beOct 4 l) (cdiv l 128) 1).take (l / 8)

def kdfMkaBlocks (key tail : NatList) : (n i : Nat) → NatList
  | 0, _ => []
  | n + 1, i => cmac key (i :: tail) ++ kdfMkaBlocks key tail n (i + 1)

/-- The KDF of IEEE 802.1X-2020, as R146 names it: PRESUMED (log 11), a one-octet counter and a two-octet length. -/
def kdfMka (key label context : NatList) (l : Nat) : NatList :=
  (kdfMkaBlocks key (label ++ 0 :: context ++ beOct 2 l) (cdiv l 128) 1).take (l / 8)

/-! AES key wrap, KW (SP 800-38F) -/

def kwPass (rk : List NatList) : (t : Nat) → NatList → List NatList → NatList × List NatList
  | _, a, [] => (a, [])
  | t, a, r :: rs =>
    let b := aesEnc rk (a ++ r)
    let (a', rs') := kwPass rk (t + 1) (beOct 8 (natBe (b.take 8) ^^^ t)) rs
    (a', b.drop 8 :: rs')

def kwPasses (rk : List NatList) (n : Nat) : (k t : Nat) → NatList × List NatList → NatList × List NatList
  | 0, _, x => x
  | k + 1, t, (a, r) => kwPasses rk n k (t + n) (kwPass rk t a r)

def chunks8 : Nat → NatList → List NatList
  | 0, _ => []
  | k + 1, l => l.take 8 :: chunks8 k (l.drop 8)

/-- The wrapping of a text of whole 8-octet words: eight octets longer. -/
def kwWrap (key text : NatList) : NatList :=
  let n := text.length / 8
  let (a, r) := kwPasses (aesRounds key) n 6 1 (List.replicate 8 0xA6, chunks8 n text)
  a ++ r.flatten

/-- One pass backwards; the words are given and returned last first. -/
def kwUnpass (rk : List NatList) : (t : Nat) → NatList → List NatList → NatList × List NatList
  | _, a, [] => (a, [])
  | t, a, r :: rs =>
    let b := aesDec rk (beOct 8 (natBe a ^^^ t) ++ r)
    let (a', rs') := kwUnpass rk (t - 1) (b.take 8) rs
    (a', b.drop 8 :: rs')

def kwUnpasses (rk : List NatList) (n : Nat) : (k t : Nat) → NatList × List NatList → NatList × List NatList
  | 0, _, x => x
  | k + 1, t, (a, r) => kwUnpasses rk n k (t - n) (kwUnpass rk t a r)

/-- The text of a wrapping, none where its integrity check fails. -/
def kwUnwrap (key wrapped : NatList) : Option NatList :=
  let n := wrapped.length / 8 - 1
  if wrapped.length % 8 ≠ 0 ∨ wrapped.length < 24 then none
  else
    let (a, r) := kwUnpasses (aesRounds key) n 6 (6 * n) (wrapped.take 8, (chunks8 n (wrapped.drop 8)).reverse)
    if a = List.replicate 8 0xA6 then some r.reverse.flatten else none

/-! P-384 (SP 800-186) -/

def p384P : Nat := 2 ^ 384 - 2 ^ 128 - 2 ^ 96 + 2 ^ 32 - 1
def p384N : Nat := 0xffffffffffffffffffffffffffffffffffffffffffffffffc7634d81f4372ddf581a0db248b0a77aecec196accc52973
def p384B : Nat := 0xb3312fa7e23ee7e4988e056be3f82d19181d9c6efe8141120314088f5013875ac656398d8a2ed19d2a85c8edd3ec2aef
def p384Gx : Nat := 0xaa87ca22be8b05378eb1c71ef320ad746e1d3b628ba79b9859f741e082542a385502f25dbf55296c3a545e3872760ab7
def p384Gy : Nat := 0x3617de4a96262c6f5d9e98bf9292dc29f8f41dbd289a147ce9da3113b5f0b8c00a60b1ce1d7e819d7a431d7c90ea0e5f

/-- A point of the curve; none is the point at infinity. -/
abbrev Point := Option (Nat × Nat)

def powMod (m : Nat) : (fuel base e acc : Nat) → Nat
  | 0, _, _, acc => acc
  | k + 1, base, e, acc =>
    if e = 0 then acc else powMod m k (base * base % m) (e / 2) (if e % 2 = 1 then acc * base % m else acc)

/-- The inverse modulo the field's prime. -/
def fInv (a : Nat) : Nat := powMod p384P 400 a (p384P - 2) 1

def fSub (a b : Nat) : Nat := (a + p384P - b % p384P) % p384P

/-- Whether a point other than infinity lies on the curve. -/
def onCurve (x y : Nat) : Bool :=
  decide (x < p384P) && decide (y < p384P) && (y * y % p384P == fSub (x * x * x + p384B) (3 * x))

def ecAdd (a b : Point) : Point :=
  match a, b with
  | none, q => q
  | p, none => p
  | some (x1, y1), some (x2, y2) =>
    if x1 = x2 ∧ (y1 + y2) % p384P = 0 then none
    else
      let l := if x1 = x2 then fSub (3 * x1 * x1) 3 * fInv (2 * y1 % p384P) % p384P
        else fSub y2 y1 * fInv (fSub x2 x1) % p384P
      let x3 := fSub (fSub (l * l) x1) x2
      some (x3, fSub (l * fSub x1 x3) y1)

def ecMulAux : (fuel k : Nat) → Point → Point → Point
  | 0, _, _, acc => acc
  | n + 1, k, p, acc =>
    if k = 0 then acc else ecMulAux n (k / 2) (ecAdd p p) (if k % 2 = 1 then ecAdd acc p else acc)

/-- k times a point. -/
def ecMul (k : Nat) (p : Point) : Point := ecMulAux 384 k p none

/-- The 97 octets 0x04 ‖ X ‖ Y of a point. -/
def pointOctets : Point → NatList
  | none => List.replicate 97 0
  | some (x, y) => 4 :: beOct 48 x ++ beOct 48 y

/-- The point that 97 octets spell, none where they are no point of the curve other than infinity (Table 5-8 check 6). -/
def pointOf (l : NatList) : Option (Nat × Nat) :=
  let x := natBe ((l.drop 1).take 48)
  let y := natBe ((l.drop 49).take 48)
  if l.length = 97 ∧ l.head? = some 4 ∧ onCurve x y then some (x, y) else none

/-- The ECDH shared secret: the x-coordinate, 48 octets big-endian. -/
def ecdh (d : Nat) (q : Nat × Nat) : NatList :=
  match ecMul d (some q) with
  | none => List.replicate 48 0
  | some (x, _) => beOct 48 x

/-! CTR_DRBG with AES-256, without a derivation function (SP 800-90A, R84) -/

/-- n blocks of output after the counter v. -/
def drbgBlocks (rk : List NatList) : (n v : Nat) → NatList
  | 0, _ => []
  | n + 1, v => aesEnc rk (beOct 16 ((v + 1) % 2 ^ 128)) ++ drbgBlocks rk n ((v + 1) % 2 ^ 128)

def drbgUpdate (d : Drbg) (data : NatList) : Drbg :=
  let t := List.zipWith (· ^^^ ·) (drbgBlocks (aesRounds (beOct 32 d.key.toNat)) 3 d.v.toNat) data
  { key := BitVec.ofNat 256 (natBe (t.take 32)), v := BitVec.ofNat 128 (natBe (t.drop 32)) }

/-- Seeded, or seeded again, with 384 bits of entropy. -/
def drbgSeed (d : Option Drbg) (entropy : BitVec 384) : Drbg := drbgUpdate (d.getD ⟨0, 0⟩) (beOct 48 entropy.toNat)

/-- n octets of output, and the state after them. -/
def drbgGen (n : Nat) (d : Drbg) : NatList × Drbg :=
  let k := cdiv n 16
  let out := drbgBlocks (aesRounds (beOct 32 d.key.toNat)) k d.v.toNat
  (out.take n, drbgUpdate { d with v := d.v + BitVec.ofNat 128 k } (List.replicate 48 0))

/-! XTS-AES-256 (R260; SP 800-38E) -/

/-- The number that little-endian octets spell, and n little-endian octets of a number. -/
def natLe (l : NatList) : Nat := l.foldr (fun x a => x + 256 * a) 0
def leOct : (n v : Nat) → NatList
  | 0, _ => []
  | n + 1, v => v % 256 :: leOct n (v / 256)

/-- A tweak value multiplied by the primitive element. -/
def xtsDouble (t : Nat) : Nat := if t.testBit 127 then ((t <<< 1) ^^^ 0x87) % 2 ^ 128 else t <<< 1

/-- Blocks passed through a cipher between two XORs of the running tweak. -/
def xtsBlocks (cipher : NatList → NatList) : Nat → List NatList → NatList
  | _, [] => []
  | t, b :: r => xor4 (cipher (xor4 b (leOct 16 t))) (leOct 16 t) ++ xtsBlocks cipher (xtsDouble t) r

/-- The data key and the tweak key of an inline-memory key, and the tweak value of a line number. -/
def xtsData (key : BitVec 512) : List NatList := aesRounds (beOct 32 (key.toNat / 2 ^ 256))
def xtsTweak (key : BitVec 512) (line : Nat) : Nat := natLe (aesEnc (aesRounds (beOct 32 (key.toNat % 2 ^ 256))) (leOct 16 line))

/-- A line encrypted or decrypted as one data unit under its line number. -/
def xtsEnc (key : BitVec 512) (line : Nat) (l : NatList) : NatList := xtsBlocks (aesEnc (xtsData key)) (xtsTweak key line) (blocks16 (l.length / 16) l)
def xtsDec (key : BitVec 512) (line : Nat) (l : NatList) : NatList := xtsBlocks (aesDec (xtsData key)) (xtsTweak key line) (blocks16 (l.length / 16) l)

/-! Key lines (R137) -/

/-- The 32 octets of a key. -/
def keyOctets (k : Key) : NatList := beOct 32 k.toNat

/-- The key that up to 32 octets spell, zero-extended after them. -/
def keyOf (l : NatList) : Key := BitVec.ofNat 256 (natBe (l.take 32 ++ List.replicate (32 - l.length) 0))

/-- The CRC that travels with a share (R137). -/
def shareCrc (x : BitVec 512) : BitVec 16 := BitVec.ofNat 16 (crc16 0xFFFF (beOct 64 x.toNat))

/-- A line whose shares are v XOR r and r. -/
def mkLine (v r : BitVec 512) : Line := { s0 := v ^^^ r, s1 := r, c0 := shareCrc (v ^^^ r), c1 := shareCrc r }

/-- The CRC check made on every read (R165). -/
def lineOk (l : Line) : Bool := l.c0 == shareCrc l.s0 && l.c1 == shareCrc l.s1

/-- The value a line holds. -/
def lineVal (l : Line) : BitVec 512 := l.s0 ^^^ l.s1

/-- The key of a slot line, bits 511 to 256. -/
def lineKey (l : Line) : Key := (lineVal l).extractLsb' 256 256

/-- The hash subkey of a slot line, bits 255 to 128. -/
def lineHash (l : Line) : BitVec 128 := (lineVal l).extractLsb' 128 128

/-- A new sharing of the same value (R163). -/
def remask (l : Line) (r : BitVec 512) : Line :=
  { s0 := l.s0 ^^^ r, s1 := l.s1 ^^^ r, c0 := shareCrc (l.s0 ^^^ r), c1 := shareCrc (l.s1 ^^^ r) }

end Sys2Proof.Machine
end

