-- ==== Sys2Proof/Machine/Kem.lean ====
section
/-! DEFINITION. ML-KEM-768 (R143, R158, R287, R431): key generation, encapsulation and decapsulation with implicit rejection. PRESUMED
(log 56): the algorithms of FIPS 203 and FIPS 202, which the spec names and does not restate. -/

namespace Sys2Proof.Machine

open Sys2Proof

/-! Keccak (FIPS 202) -/

def rotl64 (x n : Nat) : Nat := (x <<< n ||| x >>> (64 - n)) % 2 ^ 64

/-- Rotation of lane x + 5y. -/
def keccakRot : NatList :=
  [0, 1, 62, 28, 27, 36, 44, 6, 55, 20, 3, 10, 43, 25, 39, 41, 45, 15, 21, 8, 18, 2, 61, 56, 14]

def keccakRc : NatList :=
  [0x0000000000000001, 0x0000000000008082, 0x800000000000808A, 0x8000000080008000, 0x000000000000808B, 0x0000000080000001,
   0x8000000080008081, 0x8000000000008009, 0x000000000000008A, 0x0000000000000088, 0x0000000080008009, 0x000000008000000A,
   0x000000008000808B, 0x800000000000008B, 0x8000000000008089, 0x8000000000008003, 0x8000000000008002, 0x8000000000000080,
   0x000000000000800A, 0x800000008000000A, 0x8000000080008081, 0x8000000000008080, 0x0000000080000001, 0x8000000080008008]

def keccakRound (a : NatList) (rc : Nat) : NatList :=
  let c := (upFrom 0 5).map (fun x => nth 0 a x ^^^ nth 0 a (x + 5) ^^^ nth 0 a (x + 10) ^^^ nth 0 a (x + 15) ^^^ nth 0 a (x + 20))
  let d := (upFrom 0 5).map (fun x => nth 0 c ((x + 4) % 5) ^^^ rotl64 (nth 0 c ((x + 1) % 5)) 1)
  let t := (upFrom 0 25).map (fun i => nth 0 a i ^^^ nth 0 d (i % 5))
  let b := (upFrom 0 25).map (fun i =>
    let k := (i % 5 + 3 * (i / 5)) % 5 + 5 * (i % 5)
    rotl64 (nth 0 t k) (nth 0 keccakRot k))
  let e := (upFrom 0 25).map (fun i =>
    let row := i / 5 * 5
    nth 0 b i ^^^ ((2 ^ 64 - 1 ^^^ nth 0 b ((i + 1) % 5 + row)) &&& nth 0 b ((i + 2) % 5 + row)))
  match e with | [] => [] | h :: r => (h ^^^ rc) :: r

def keccak (a : NatList) : NatList := keccakRc.foldl keccakRound a

/-- n lanes of 64 bits. -/
def lanes : Nat → NatList → NatList
  | 0, _ => []
  | n + 1, l => natLe (l.take 8) :: lanes n (l.drop 8)

def absorb (rate : Nat) : (fuel : Nat) → NatList → NatList → NatList
  | 0, a, _ => a
  | fuel + 1, a, m =>
    if m.isEmpty then a
    else absorb rate fuel (keccak (List.zipWith (· ^^^ ·) a (lanes 25 (m.take rate)))) (m.drop rate)

def squeeze (rate : Nat) : (fuel : Nat) → NatList → NatList
  | 0, _ => []
  | fuel + 1, a => (a.map (leOct 8)).flatten.take rate ++ squeeze rate fuel (keccak a)

/-- n octets of a sponge over a message, with its domain bits. -/
def sponge (rate domain n : Nat) (m : NatList) : NatList :=
  let gap := rate - (m.length + 1) % rate
  let pad := if (m.length + 1) % rate = 0 then [domain ^^^ 0x80] else domain :: List.replicate (gap - 1) 0 ++ [0x80]
  let whole := m ++ pad
  (squeeze rate (cdiv n rate) (absorb rate (whole.length / rate + 1) (List.replicate 25 0) whole)).take n

def sha3x256 (m : NatList) : NatList := sponge 136 0x06 32 m
def sha3x512 (m : NatList) : NatList := sponge 72 0x06 64 m
def shake128 (n : Nat) (m : NatList) : NatList := sponge 168 0x1F n m
def shake256 (n : Nat) (m : NatList) : NatList := sponge 136 0x1F n m

/-! Polynomials of 256 coefficients modulo 3,329 -/

def kemQ : Nat := 3329

def polyAdd (a b : NatList) : NatList := List.zipWith (fun x y => (x + y) % kemQ) a b
def polySub (a b : NatList) : NatList := List.zipWith (fun x y => (x + kemQ - y) % kemQ) a b

/-- The seven bits of i reversed. -/
def bitRev7 (i : Nat) : Nat := (upFrom 0 7).foldl (fun a k => 2 * a + i / 2 ^ k % 2) 0

def kemZeta (i : Nat) : Nat := 17 ^ bitRev7 i % kemQ

/-- The transform of a block whose factor has number i, over d levels. -/
def nttBlock : (d i : Nat) → NatList → NatList
  | 0, _, l => l
  | d + 1, i, l =>
    let n := l.length / 2
    let t := (l.drop n).map (fun x => kemZeta i * x % kemQ)
    nttBlock d (2 * i) (polyAdd (l.take n) t) ++ nttBlock d (2 * i + 1) (polySub (l.take n) t)

def inttBlock : (d i : Nat) → NatList → NatList
  | 0, _, l => l
  | d + 1, i, l =>
    let n := l.length / 2
    let a := inttBlock d (2 * i + 1) (l.take n)
    let b := inttBlock d (2 * i) (l.drop n)
    polyAdd a b ++ (polySub b a).map (fun x => kemZeta i * x % kemQ)

def ntt (l : NatList) : NatList := nttBlock 7 1 l
def intt (l : NatList) : NatList := (inttBlock 7 1 l).map (fun x => x * 3303 % kemQ)

/-- Products of the 128 pairs from number i on. -/
def mulPairs : (i : Nat) → NatList → NatList → NatList
  | i, a0 :: a1 :: a, b0 :: b1 :: b =>
    (a0 * b0 + a1 * b1 % kemQ * (17 ^ (2 * bitRev7 i + 1) % kemQ)) % kemQ :: (a0 * b1 + a1 * b0) % kemQ :: mulPairs (i + 1) a b
  | _, _, _ => []

def mulNtt (a b : NatList) : NatList := mulPairs 0 a b

def polyZero : NatList := List.replicate 256 0

/-- The inner product of two vectors of transforms. -/
def dot (a b : List NatList) : NatList := (List.zipWith mulNtt a b).foldl polyAdd polyZero

/-! Encodings -/

/-- Coefficients of d bits packed, the least significant first. -/
def byteEncode (d : Nat) (l : NatList) : NatList := leOct (32 * d) (l.foldr (fun x a => x + 2 ^ d * a) 0)

def digits (d : Nat) : (n v : Nat) → NatList
  | 0, _ => []
  | n + 1, v => v % 2 ^ d :: digits d n (v / 2 ^ d)

def byteDecode (d : Nat) (l : NatList) : NatList := (digits d 256 (natLe l)).map (fun x => if d = 12 then x % kemQ else x)

def compress (d x : Nat) : Nat := (2 ^ (d + 1) * x + kemQ) / (2 * kemQ) % 2 ^ d
def decompress (d y : Nat) : Nat := (2 * kemQ * y + 2 ^ d) / 2 ^ (d + 1)

/-! Sampling -/

def takeNtt : NatList → NatList
  | a :: b :: c :: r =>
    let x := a + 256 * (b % 16)
    let y := b / 16 + 16 * c
    (if x < kemQ then [x] else []) ++ (if y < kemQ then [y] else []) ++ takeNtt r
  | _ => []

/-- A transform drawn by rejection from 280 triples of the stream, the bound that FIPS 203 allows. -/
def sampleNtt (seed : NatList) : NatList :=
  let l := (takeNtt (shake128 840 seed)).take 256
  l ++ List.replicate (256 - l.length) 0

/-- A polynomial of the centred binomial distribution, η = 2, from 128 octets. -/
def sampleCbd (b : NatList) : NatList :=
  (digits 4 256 (natLe b)).map (fun x => (x % 2 + x / 2 % 2 + kemQ - x / 4 % 2 - x / 8) % kemQ)

/-- The i-th polynomial of noise under a seed. -/
def noise (seed : NatList) (i : Nat) : NatList := sampleCbd (shake256 128 (seed ++ [i]))

/-- Row i of the public matrix, or column i where it is transposed. -/
def matrixRow (rho : NatList) (transposed : Bool) (i : Nat) : List NatList :=
  [0, 1, 2].map (fun j => sampleNtt (rho ++ (if transposed then [i, j] else [j, i])))

/-! ML-KEM-768 -/

/-- K-PKE encryption of 32 octets under an encapsulation key with 32 octets of randomness. -/
def pkeEncrypt (ek m r : NatList) : NatList :=
  let t := [0, 1, 2].map (fun i => byteDecode 12 ((ek.drop (384 * i)).take 384))
  let rho := (ek.drop 1152).take 32
  let y := [0, 1, 2].map (fun i => ntt (noise r i))
  let u := [0, 1, 2].map (fun i => polyAdd (intt (dot (matrixRow rho true i) y)) (noise r (3 + i)))
  let mu := (byteDecode 1 m).map (decompress 1)
  let v := polyAdd (polyAdd (intt (dot t y)) (noise r 6)) mu
  (u.map (fun p => byteEncode 10 (p.map (compress 10)))).flatten ++ byteEncode 4 (v.map (compress 4))

/-- The secret vector's transform and the encapsulation key, from the seed d. -/
def pkeKeys (d : NatList) : List NatList × NatList :=
  let g := sha3x512 (d ++ [3])
  let rho := g.take 32
  let sigma := g.drop 32
  let s := [0, 1, 2].map (fun i => ntt (noise sigma i))
  let t := [0, 1, 2].map (fun i => polyAdd (dot (matrixRow rho false i) s) (ntt (noise sigma (3 + i))))
  (s, (t.map (byteEncode 12)).flatten ++ rho)

def pkeDecrypt (s : List NatList) (c : NatList) : NatList :=
  let u := [0, 1, 2].map (fun i => (byteDecode 10 ((c.drop (320 * i)).take 320)).map (decompress 10))
  let v := (byteDecode 4 ((c.drop 960).take 128)).map (decompress 4)
  byteEncode 1 ((polySub v (intt (dot s (u.map ntt)))).map (compress 1))

/-- The encapsulation key of the seeds d ‖ z, 1,184 octets. -/
def kemEk (seed : NatList) : NatList := (pkeKeys (seed.take 32)).2

/-- Encapsulation with 32 octets of randomness: the shared secret and the ciphertext of 1,088 octets. -/
def kemEncaps (ek m : NatList) : NatList × NatList :=
  let g := sha3x512 (m ++ sha3x256 ek)
  (g.take 32, pkeEncrypt ek m (g.drop 32))

/-- Decapsulation under the seeds d ‖ z with implicit rejection: the shared secret. -/
def kemDecaps (seed c : NatList) : NatList :=
  let k := pkeKeys (seed.take 32)
  let m := pkeDecrypt k.1 c
  let g := sha3x512 (m ++ sha3x256 k.2)
  if pkeEncrypt k.2 m (g.drop 32) = c then g.take 32 else shake256 32 (seed.drop 32 ++ c)

end Sys2Proof.Machine
end

