-- ==== Sys2Proof/Machine/Sign.lean ====
section
/-! DEFINITION. The two signatures of a patch image (R397, R398): ECDSA over P-384 with SHA-384, and ML-DSA-87 with an empty context string,
as verified. PRESUMED (log 56): the algorithms of FIPS 180-4, FIPS 186-5 and FIPS 204, which the spec names and does not restate. -/

namespace Sys2Proof.Machine

open Sys2Proof

/-! SHA-384 (FIPS 180-4) -/

/-- The 80 round constants of 64 bits, the first in the lowest bits. -/
def shaTable : Nat := 0x6c44198c4a4758175fcb6fab3ad6faec597f299cfc657e2a4cc5d4becb3e42b6431d67c49c100d4c3c9ebe0a15c9bebc32caab7b40c7249328db77f523047d841b710b35131c471b113f9804bef90dae0a637dc5a2c898a606f067aa72176fbaf57d4f7fee6ed178eada7dd6cde0eb1ed186b8c721c0c207ca273eceea26619cc67178f2e372532bbef9a3f7b2c67915a4506cebde82bde990befffa23631e288cc702081a6439ec84c87814a1f0ab7278a5636f43172f60748f82ee5defb2fc682e6ff3d6b2b8a35b9cca4f7763e3734ed8aa4ae3418acb391c0cb3c5c95a6334b0bcb5e19b48a82748774cdf8eeb991e376c085141ab5319a4c116b8d2d0c8106aa07032bbd1b8f40e35855771202ad69906245565a910d192e819d6ef5218c76c51a30654be30c24b8b70d0f89791a81a664bbc423001a2bfe8a14cf1036492722c851482353b81c2c92e47edaee6766a0abb3c77b2a8650a73548baf63de53380d139d95b3df4d2c6dfc5ac42aed2e1b21385c26c92627b70a8546d22ffc142929670a0e6e7006ca6351e003826fd5a79147930aa725c6e00bf33da88fc2bf597fc7beef0ee4b00327c898fb213fa831c66d2db43210983e5152ee66dfab76f988da831153b55cb0a9dcbd41fbd44a7484aa6ea6e4832de92c6f592b0275240ca1cc77ac9c650fc19dc68b8cd5b5efbe4786384f25e3e49b69c19ef14ad2c19bf174cf6926949bdc06a725c7123580deb1fe3b1696b172be5d74f27b896f550c7dc3d5ffb4e2243185be4ee4b28c12835b0145706fbed807aa98a3030242ab1c5ed5da6d8118923f82a4af194f9b59f111f1b605d0193956c25bf348b538e9b5dba58189dbbcb5c0fbcfec4d3b2f7137449123ef65cd428a2f98d728ae22

def shaStart : NatList :=
  [0xcbbb9d5dc1059ed8, 0x629a292a367cd507, 0x9159015a3070dd17, 0x152fecd8f70e5939,
   0x67332667ffc00b31, 0x8eb44a8768581511, 0xdb0c2e0d64f98fa7, 0x47b5481dbefa4fa4]

def rotr64 (x n : Nat) : Nat := rotl64 x (64 - n)

/-- The rounds from number i on over a window of 16 schedule words. -/
def shaRounds : (fuel i : Nat) → (window state : NatList) → NatList
  | n + 1, i, w :: r, [a, b, c, d, e, f, g, h] =>
    let ch := (e &&& f) ^^^ ((2 ^ 64 - 1 ^^^ e) &&& g)
    let maj := (a &&& b) ^^^ (a &&& c) ^^^ (b &&& c)
    let t1 := h + (rotr64 e 14 ^^^ rotr64 e 18 ^^^ rotr64 e 41) + ch + (shaTable >>> (64 * i)) % 2 ^ 64 + w
    let t2 := (rotr64 a 28 ^^^ rotr64 a 34 ^^^ rotr64 a 39) + maj
    let x := nth 0 r 13
    let y := nth 0 r 0
    let next := ((rotr64 x 19 ^^^ rotr64 x 61 ^^^ x >>> 6) + nth 0 r 8 + (rotr64 y 1 ^^^ rotr64 y 8 ^^^ y >>> 7) + w) % 2 ^ 64
    shaRounds n (i + 1) (r ++ [next]) [(t1 + t2) % 2 ^ 64, a, b, c, (d + t1) % 2 ^ 64, e, f, g]
  | _, _, _, s => s

/-- The words of a message of whole blocks. -/
def beWords : Nat → NatList → NatList
  | 0, _ => []
  | n + 1, l => natBe (l.take 8) :: beWords n (l.drop 8)

def shaBlocks : Nat → NatList → NatList → NatList
  | 0, s, _ => s
  | n + 1, s, l => shaBlocks n (List.zipWith (fun a b => (a + b) % 2 ^ 64) s (shaRounds 80 0 (l.take 16) s)) (l.drop 16)

def sha384 (m : NatList) : NatList :=
  let whole := m ++ 0x80 :: List.replicate ((239 - m.length % 128) % 128) 0 ++ beOct 16 (8 * m.length)
  ((shaBlocks (whole.length / 128) shaStart (beWords (whole.length / 8) whole)).take 6).flatMap (beOct 8)

/-! ECDSA (FIPS 186-5) -/

/-- A signature r ‖ s of 48 octets each, verified under a public point. -/
def ecdsaVerify (key : Nat × Nat) (m sig : NatList) : Bool :=
  let r := natBe (sig.take 48)
  let s := natBe (sig.drop 48)
  let w := powMod p384N 400 s (p384N - 2) 1
  let e := natBe (sha384 m)
  decide (1 ≤ r ∧ r < p384N ∧ 1 ≤ s ∧ s < p384N) &&
    match ecAdd (ecMul (e * w % p384N) (some (p384Gx, p384Gy))) (ecMul (r * w % p384N) (some key)) with
    | none => false
    | some (x, _) => x % p384N == r

/-! ML-DSA-87 (FIPS 204): polynomials of 256 coefficients modulo 8,380,417 -/

def dsaQ : Nat := 8380417

def dsaAdd (a b : NatList) : NatList := List.zipWith (fun x y => (x + y) % dsaQ) a b
def dsaSub (a b : NatList) : NatList := List.zipWith (fun x y => (x + dsaQ - y) % dsaQ) a b
def dsaMul (a b : NatList) : NatList := List.zipWith (fun x y => x * y % dsaQ) a b

/-- The eight bits of i reversed. -/
def bitRev8 (i : Nat) : Nat := (upFrom 0 8).foldl (fun a k => 2 * a + i / 2 ^ k % 2) 0

/-- The power of 1,753, a root of unity of order 512, that a block of number i takes, and its inverse. -/
def dsaZeta (i : Nat) : Nat := powMod dsaQ 10 1753 (bitRev8 i) 1
def dsaZetaInv (i : Nat) : Nat := powMod dsaQ 10 1753 (512 - bitRev8 i) 1

def dsaNttBlock : (d i : Nat) → NatList → NatList
  | 0, _, l => l
  | d + 1, i, l =>
    let n := l.length / 2
    let z := dsaZeta i
    let t := (l.drop n).map (fun x => z * x % dsaQ)
    dsaNttBlock d (2 * i) (dsaAdd (l.take n) t) ++ dsaNttBlock d (2 * i + 1) (dsaSub (l.take n) t)

def dsaInttBlock : (d i : Nat) → NatList → NatList
  | 0, _, l => l
  | d + 1, i, l =>
    let n := l.length / 2
    let z := dsaZetaInv i
    let a := dsaInttBlock d (2 * i) (l.take n)
    let b := dsaInttBlock d (2 * i + 1) (l.drop n)
    dsaAdd a b ++ (dsaSub a b).map (fun x => z * x % dsaQ)

def dsaNtt (l : NatList) : NatList := dsaNttBlock 8 1 l
def dsaIntt (l : NatList) : NatList := (dsaInttBlock 8 1 l).map (fun x => x * 8347681 % dsaQ)

/-- The coefficients that a stream's triples spell, those out of range left out. -/
def dsaTake : NatList → NatList
  | a :: b :: c :: r =>
    let x := a + 256 * b + 65536 * (c % 128)
    if x < dsaQ then x :: dsaTake r else dsaTake r
  | _ => []

/-- Entry (r, s) of the public matrix, from 448 triples of its stream. -/
def dsaEntry (rho : NatList) (r s : Nat) : NatList :=
  let l := (dsaTake (shake128 1344 (rho ++ [s, r]))).take 256
  l ++ List.replicate (256 - l.length) 0

/-- The next octet that is at most i, and the stream after it. -/
def dsaBelow (i : Nat) : NatList → Nat × NatList
  | [] => (0, [])
  | x :: r => if x ≤ i then (x, r) else dsaBelow i r

/-- The challenge: 60 coefficients of ±1 placed from number i on, their signs in the bits of a number. -/
def dsaPlace : (fuel i signs : Nat) → (stream c : NatList) → NatList
  | 0, _, _, _, c => c
  | n + 1, i, signs, l, c =>
    let (j, r) := dsaBelow i l
    let c := (c.set i (nth 0 c j)).set j (if signs % 2 = 1 then dsaQ - 1 else 1)
    dsaPlace n (i + 1) (signs / 2) r c

def dsaBall (seed : NatList) : NatList :=
  let s := shake256 952 seed
  dsaPlace 60 196 (natLe (s.take 8)) (s.drop 8) (List.replicate 256 0)

/-- One polynomial's hints between two positions of the hint list, strictly rising. -/
def rising : NatList → Bool
  | a :: b :: r => decide (a < b) && rising (b :: r)
  | _ => true

/-- The hints of the eight polynomials, out of 75 positions and 8 ends. -/
def dsaHints (pos : NatList) : (first : Nat) → (ends : NatList) → Option (List NatList)
  | first, [] => if (pos.drop first).all (· == 0) then some [] else none
  | first, e :: r =>
    let l := (pos.take e).drop first
    if e < first ∨ 75 < e ∨ rising l = false then none
    else (dsaHints pos e r).map (fun t => l :: t)

/-- A coefficient's high part with its hint, 2γ = 523,776. -/
def dsaHigh (hint : Bool) (x : Nat) : Nat :=
  let lo := x % 523776
  let up := decide (0 < lo ∧ lo ≤ 261888)
  let hi := if lo ≤ 261888 then x / 523776 % 16 else (x / 523776 + 1) % 16
  if !hint then hi else if up then (hi + 1) % 16 else (hi + 15) % 16

/-- A signature of 4,627 octets verified under a public key of 2,592, for an empty context string. -/
def mldsaVerify (key m sig : NatList) : Bool :=
  match dsaHints ((sig.drop 4544).take 75) 0 (sig.drop 4619) with
  | none => false
  | some hints =>
    let row (n i : Nat) (l : NatList) : NatList := (l.drop (n * i)).take n
    let z := (upFrom 0 7).map (fun i => (digits 20 256 (natLe (row 640 i (sig.drop 64)))).map (fun x => (524288 + dsaQ - x) % dsaQ))
    let small := z.all (fun p => p.all (fun x => decide (x < 524168 ∨ dsaQ - 524168 < x)))
    let mu := shake256 64 (shake256 64 key ++ [0, 0] ++ m)
    let c := dsaNtt (dsaBall (sig.take 64))
    let zn := z.map dsaNtt
    let high (i : Nat) : NatList :=
      let az := ((upFrom 0 7).map (fun j => dsaMul (dsaEntry (key.take 32) i j) (nth [] zn j))).foldl dsaAdd (List.replicate 256 0)
      let t := dsaNtt ((digits 10 256 (natLe (row 320 i (key.drop 32)))).map (fun x => 8192 * x))
      let w := dsaIntt (dsaSub az (dsaMul c t))
      (indexed 0 w).map (fun x => dsaHigh ((nth [] hints i).contains x.1) x.2)
    let w := (upFrom 0 8).flatMap (fun i => byteEncode 4 (high i))
    small && sig.length == 4627 && shake256 64 (mu ++ w) == sig.take 64

end Sys2Proof.Machine
end

