-- ==== Sys2Proof/Machine/Flags.lean ====
section
/-! DEFINITION. Codes, status words and flag computations: Sump reasons (Table 14-3), mailbox status codes (Table 16-1), modes
(Table 11-1), worlds (Table 14-1), event codes (Table 15-13), halt causes (Table 10-4), and the encodings of object values. -/

namespace Sys2Proof.Machine

open Sys2Proof

/-- The code of a Sump reason (Table 14-3). -/
def Reason.code : Reason → Nat
  | .fcsFail => 1 | .length => 2 | .noChannel => 3 | .classParity => 4 | .police => 5 | .portOff => 6 | .linkDown => 7
  | .pnLimit => 8 | .queueFull => 9 | .shed => 10 | .bound => 11 | .deadline => 12 | .noTag => 13 | .badTag => 14 | .noSci => 15
  | .noSa => 16 | .oversize => 17 | .late => 18 | .icvFail => 19 | .segErr => 20 | .clusterFault => 21 | .keyParity => 22
  | .cisternParity => 23 | .zeroize => 24 | .divertFull => 25 | .launchLate => 26 | .launchFar => 27 | .standby => 28
  | .leaseLost => 29 | .handover => 30 | .recovery => 31

/-- The code of a mailbox or lookaside status (Table 16-1, R388). -/
def Status.code : Status → Nat
  | .ok => 0x00 | .duplicate => 0x01 | .busy => 0x10 | .deferred => 0x11 | .denied => 0x20 | .mode => 0x21 | .lifecycle => 0x22
  | .badCmd => 0x30 | .badLength => 0x31 | .badObject => 0x32 | .badValue => 0x33 | .domainOff => 0x40 | .keySpent => 0x50
  | .keyExpired => 0x51 | .keyAttr => 0x52 | .keyInvalid => 0x53 | .noBound => 0x60 | .stepSpent => 0x61 | .pairNotReady => 0x70
  | .halted => 0x80 | .internal => 0xF0 | .tagFail => 0x90 | .access => 0x91

/-- GLB_MODE.MODE (R304). -/
def Mode.code : Mode → Nat
  | .boot => 0 | .enrol => 1 | .provision => 2 | .service => 3 | .maintenance => 4 | .recovery => 5

def Mode.ofCode : Nat → Option Mode
  | 0 => some .boot | 1 => some .enrol | 2 => some .provision | 3 => some .service | 4 => some .maintenance
  | 5 => some .recovery | _ => none

/-- GLB_MODE.LIFECYCLE (R307). -/
def Lifecycle.code : Lifecycle → Nat
  | .blank => 0 | .sealed => 1 | .debug => 2 | .retired => 3

/-- World numbers (R368, Table 14-1). -/
def World.code : World → Nat
  | .officer => 0 | .operator => 1 | .observer => 2 | .internal => 3

/-- cluster[n].role, in the order of its defining list (R392). -/
def Role.code : Role → Nat
  | .active => 0 | .idle => 1 | .spare => 2 | .test => 3 | .retired => 4

def ChanState.code : ChanState → Nat
  | .free => 0 | .config => 1 | .active => 2 | .frozen => 3

def SlotState.code : SlotState → Nat
  | .empty => 0 | .invalid => 1 | .valid => 2 | .expired => 3 | .spent => 4

/-- PMU_DOM_n.STATE. -/
def DomState.code : DomState → Nat
  | .off => 0 | .ret => 1 | .changing => 2 | .on => 3

def Lease.code : Lease → Nat
  | .none => 0 | .holder => 1 | .standby => 2 | .fenced => 3

def PairState.code : PairState → Nat
  | .unpaired => 0 | .pairing => 1 | .syncing => 2 | .ready => 3 | .notReady => 4

/-- link[p].rx_state: KEYED is SYNC with the keyed mark. -/
def rxCode (r : WhRx) : Nat :=
  match r.state with
  | .hunt => 0
  | .presync => 1
  | .sync => if r.keyed then 3 else 2

/-- The defects of a Wellhead: dLOD, dLHB, dRDI. -/
def WhRx.defects (r : WhRx) : BitVec 3 := BitVec.ofNat 3 (b01 r.lod + 2 * b01 r.lhb + 4 * b01 r.rdi)

/-- The status that the state of a slot gives at step 1 of R152; none for VALID. -/
def SlotState.refusal : SlotState → Option Status
  | .valid => none
  | .empty => some .keyInvalid
  | .invalid => some .keyInvalid
  | .expired => some .keyExpired
  | .spent => some .keySpent

/-! Event codes (Table 15-13) -/

def evHalt : Nat := 0x00
def evZeroize : Nat := 0x01
def evSagWarn : Nat := 0x02
def evRetire : Nat := 0x03
def evDegrade : Nat := 0x04
def evPaceShort : Nat := 0x05
def evTsOvf : Nat := 0x06
def evLod : Nat := 0x07
def evRdi : Nat := 0x08
def evPnThresh : Nat := 0x09
def evPnLimit : Nat := 0x0A
def evTamper : Nat := 0x0B
def evLeaseGained : Nat := 0x0C
def evLeaseLost : Nat := 0x0D
def evMpuFault : Nat := 0x0E
def evSweepDone : Nat := 0x0F
def evRingStarve : Nat := 0x10
def evWakeWon : Nat := 0x11
def evKeySpent : Nat := 0x12
def evSecond : Nat := 0x13
def evLaQ0 : Nat := 0x14
def evRing16 : Nat := 0x15
def evRx (r : Nat) : Nat := 0x18 + r
def evTx (r : Nat) : Nat := 0x20 + r
def evMbx (n : Nat) : Nat := 0x28 + n

/-! Halt causes (Table 10-4) -/

def haltLockstep : Nat := 1
def haltKeyState : Nat := 2
def haltLinkRam : Nat := 3
def haltSaState : Nat := 4
def haltReservoir : Nat := 5
def haltRefclk : Nat := 6
def haltEntropy : Nat := 7
def haltZeroize : Nat := 8
def haltCommand : Nat := 9

/-! Fields of the attribute word (Table 5-5) -/

def attrKtype (a : W64) : Nat := bits a.toNat 3 0
def attrUsage (a : W64) (bitNo : Nat) : Bool := a.getLsbD bitNo
def attrWorld (a : W64) (w : World) : Bool := a.getLsbD (11 + w.code)
def attrMaster (a : W64) (m : Nat) : Bool := a.getLsbD (15 + m)
def attrMode (a : W64) (m : Mode) : Bool := a.getLsbD (22 + m.code)
def attrLc (a : W64) (l : Lifecycle) : Bool := a.getLsbD (28 + l.code)
def attrOrigin (a : W64) : Nat := bits a.toNat 34 32
def attrCtxClear (a : W64) : Bool := a.getLsbD 35
def attrExportable (a : W64) : Bool := a.getLsbD 36
def attrPersist (a : W64) : Bool := a.getLsbD 37
def attrExpReset (a : W64) : Bool := a.getLsbD 38
def attrUseLimit (a : W64) : Bool := a.getLsbD 39
def attrUsesLeft (a : W64) : Nat := bits a.toNat 63 40

/-- USAGE bits. -/
def useEnc : Nat := 4
def useDec : Nat := 5
def useAuth : Nat := 6
def useWrap : Nat := 7
def useUnwrap : Nat := 8
def useDerive : Nat := 9
def useLa : Nat := 10

/-- The attribute word with ORIGIN o. -/
def withOrigin (a : W64) (o : Nat) : W64 := (a &&& ~~~((7 : W64) <<< 32)) ||| (BitVec.ofNat 64 o <<< 32)

/-- The attribute word with USES_LEFT u. -/
def withUses (a : W64) (u : Nat) : W64 := (a &&& (0xFFFFFFFFFF : W64)) ||| (BitVec.ofNat 64 u <<< 40)

/-- The fixed word of a channel slot (R150): suite 1 is XPN_256, suite 0 XPN_128. -/
def chanWord (suite origin : Nat) : W64 :=
  withOrigin (if suite = 1 then 0x000000406710D832 else 0x000000406710D831) origin

/-- Whether KTYPE is one of the five that Table 5-5 names. -/
def ktypeKnown (k : Nat) : Bool := decide (1 ≤ k ∧ k ≤ 5)

/-- Whether the KTYPE serves every use that USAGE names (R151). -/
def usageServed (a : W64) : Bool :=
  let k := attrKtype a
  let aes := k == 1 || k == 2
  let any := attrUsage a useAuth || attrUsage a useEnc || attrUsage a useDec || attrUsage a useLa
  let wrap := attrUsage a useWrap || attrUsage a useUnwrap
  (!any || aes) && (!wrap || k == 2) && (!attrUsage a useDerive || k == 3 || k == 4 || k == 5)

/-- Whether the word asks for what only an OFFICER session may request (R151). -/
def officerOnly (a : W64) : Bool :=
  attrUsage a useAuth || attrUsage a useWrap || attrUsage a useUnwrap || attrExportable a || attrCtxClear a || attrPersist a
  || attrMaster a 6 || attrWorld a .officer || attrLc a .blank || attrLc a .debug
  || attrMode a .boot || attrMode a .enrol || attrMode a .recovery

/-- The key length in bytes of a KTYPE: 16 for AES-128 and CAK-128, otherwise 32 (R138). -/
def ktypeBytes (k : Nat) : Nat := if k = 1 ∨ k = 3 then 16 else 32

/-- Validation of a requested word for a general slot (R151), ORIGIN zero included. -/
def checkWord (a : W64) (officer : Bool) : Option Status :=
  if attrOrigin a ≠ 0 then some .badValue
  else if !ktypeKnown (attrKtype a) then some .badValue
  else if attrPersist a && attrExpReset a then some .badValue
  else if !usageServed a then some .badValue
  else if officerOnly a && !officer then some .denied
  else none

end Sys2Proof.Machine
end

