-- ==== Sys2Proof/Machine/Objects.lean ====
section
/-! DEFINITION. Firmware objects (R392, Table 16-5): which attributes a class carries, their widths, which are read-only, their
ranges and defaults, and the stored values. Values computed from other state are in Machine/Values.lean. -/

namespace Sys2Proof.Machine

open Sys2Proof

/-- An object ID: class [31:24], instance [23:8], attribute [7:0] (R392). -/
def oid (cls inst at_ : Nat) : Nat := cls * 2 ^ 24 + inst * 256 + at_

def clsDev : Nat := 0x01
def clsHport : Nat := 0x02
def clsLport : Nat := 0x03
def clsChan : Nat := 0x04
def clsPol : Nat := 0x05
def clsShp : Nat := 0x06
def clsGate : Nat := 0x07
def clsKslot : Nat := 0x08
def clsCa : Nat := 0x09
def clsLink : Nat := 0x0A
def clsCluster : Nat := 0x0B
def clsPair : Nat := 0x0C
def clsPmu : Nat := 0x0D
def clsTamper : Nat := 0x0E
def clsPerf : Nat := 0x0F
def clsCal : Nat := 0x10
def clsRing : Nat := 0x11
def clsGslot : Nat := 0x12

/-- How many instances a class has (Table 16-5). -/
def clsCount : Nat → Nat
  | 0x01 => 1 | 0x02 => 48 | 0x03 => 48 | 0x04 => 32766 | 0x05 => 65536 | 0x06 => 33536 | 0x07 => 96 | 0x08 => 65536
  | 0x09 => 4096 | 0x0A => 48 | 0x0B => 34 | 0x0C => 1 | 0x0D => 34 | 0x0E => 13 | 0x0F => 257 | 0x10 => 1 | 0x11 => 17
  | 0x12 => 1024 | _ => 0

/-- Whether port q, numbered as in R203, is fused off (R3). -/
def fusedQ (s : State) (q : Nat) : Bool := s.nvm.part9624 && decide (24 ≤ q % 48)

/-- Whether an instance belongs to a fused port, or is a port-class shaper of one (R3). -/
def fusedInst (s : State) (cls inst : Nat) : Bool :=
  if cls = clsHport ∨ cls = clsLport ∨ cls = clsLink ∨ cls = clsGate then fusedQ s inst
  else if cls = clsShp ∧ 32768 ≤ inst then fusedQ s ((inst - 32768) / 8)
  else false

/-- Width and read-only mark of the attributes that hport and lport share. -/
def portSpec (a : Nat) : Option (Nat × Bool) :=
  if 0x10 ≤ a ∧ a ≤ 0x17 then some (8, false)
  else match a with
    | 0x01 => some (1, false) | 0x02 => some (1, false) | 0x03 => some (2, false) | 0x04 => some (1, false)
    | 0x05 => some (1, false) | 0x06 => some (1, true) | 0x07 => some (1, false) | 0x08 => some (2, false)
    | 0x09 => some (2, false) | 0x0A => some (4, true) | 0x0B => some (4, false) | 0x0C => some (2, false)
    | 0x0D => some (2, false) | 0x0E => some (2, false) | 0x0F => some (1, false) | _ => none

def devSpec : Nat → Option (Nat × Bool)
  | 0x01 => some (8, true) | 0x02 => some (8, true) | 0x03 => some (1, false) | 0x04 => some (2, false)
  | 0x05 => some (1, false) | 0x06 => some (1, false) | 0x07 => some (2, false) | 0x08 => some (1, false)
  | 0x09 => some (2, false) | 0x0A => some (1, false) | 0x0B => some (2, false) | 0x0C => some (2, false)
  | 0x0D => some (1, false) | 0x0E => some (4, true) | 0x0F => some (4, true) | 0x10 => some (4, true) | _ => none

def chanSpec : Nat → Option (Nat × Bool)
  | 0x01 => some (1, true) | 0x02 => some (1, false) | 0x03 => some (1, false) | 0x04 => some (1, false)
  | 0x05 => some (1, false) | 0x06 => some (1, false) | 0x07 => some (1, false) | 0x08 => some (1, false)
  | 0x09 => some (2, false) | 0x0A => some (2, false) | 0x0B => some (8, false) | 0x0C => some (8, false)
  | 0x0D => some (4, false) | 0x0E => some (4, false) | 0x0F => some (1, true) | 0x10 => some (1, false)
  | 0x11 => some (1, false) | 0x12 => some (8, false) | 0x13 => some (8, false) | 0x14 => some (1, false)
  | 0x15 => some (4, false) | 0x16 => some (1, false) | 0x17 => some (1, false) | 0x18 => some (2, true)
  | 0x19 => some (2, false) | 0x1A => some (4, false) | 0x1B => some (4, false) | 0x1C => some (2, false)
  | 0x1D => some (2, false) | 0x1E => some (8, true) | _ => none

def caSpec : Nat → Option (Nat × Bool)
  | 0x01 => some (2, true) | 0x02 => some (2, false) | 0x03 => some (33, false) | 0x04 => some (1, false)
  | 0x05 => some (2, false) | 0x06 => some (2, false) | 0x07 => some (2, false) | 0x08 => some (4, false)
  | 0x09 => some (1, true) | 0x0A => some (1, true) | 0x0B => some (1, true) | 0x0C => some (4, true) | _ => none

def pairSpec : Nat → Option (Nat × Bool)
  | 0x01 => some (8, true) | 0x02 => some (1, true) | 0x03 => some (1, true) | 0x04 => some (1, true)
  | 0x05 => some (1, false) | 0x06 => some (2, false) | 0x07 => some (2, false) | 0x08 => some (1, false)
  | 0x09 => some (2, false) | 0x0A => some (4, false) | 0x0B => some (4, true) | _ => none

def perfSpec (inst : Nat) : Nat → Option (Nat × Bool)
  | 0x01 => some (1, false)
  | 0x02 => if inst = 256 then none else some (2, false)
  | 0x03 => some (2, false) | 0x04 => some (1, false) | 0x05 => some (1, false) | 0x06 => some (8, false)
  | 0x07 => some (8, false) | 0x08 => some (1, false)
  | 0x09 => if inst = 256 then none else some (1, false)
  | 0x0A => if inst = 256 then none else some (1, false)
  | 0x0B => if inst = 256 then some (1, false) else none
  | 0x0C => if inst = 256 then some (4, false) else none
  | _ => none

/-- Width in bytes of an attribute and whether it is read-only; none where the instance does not carry it (R392, R395). -/
def attrSpec (cls inst a : Nat) : Option (Nat × Bool) :=
  match cls with
  | 0x01 => devSpec a
  | 0x02 => portSpec a
  | 0x03 => match a with
    | 0x20 => some (1, false) | 0x21 => some (2, false) | 0x22 => some (1, false) | 0x03 => none | 0x04 => none | _ => portSpec a
  | 0x04 => chanSpec a
  | 0x05 => match a with
    | 0x01 => some (1, false) | 0x02 => some (4, false) | 0x03 => some (4, false) | 0x04 => some (4, false)
    | 0x05 => some (4, false) | 0x06 => some (1, false) | 0x07 => some (1, false) | _ => none
  | 0x06 => match a with
    | 0x01 => some (4, false) | 0x02 => some (4, false) | 0x03 => some (1, false) | 0x04 => some (1, false) | _ => none
  | 0x07 => match a with
    | 0x01 => some (1, true) | 0x02 => some (10, true) | 0x03 => some (4, true) | 0x04 => some (2, true) | _ => none
  | 0x08 => match a with
    | 0x01 => some (1, true) | 0x02 => some (8, true) | _ => none
  | 0x09 => caSpec a
  | 0x0A => match a with
    | 0x01 => some (2, false) | 0x02 => some (4, false) | 0x03 => some (1, false) | 0x04 => some (1, false)
    | 0x05 => some (1, false) | 0x06 => some (1, false) | 0x07 => some (2, false) | 0x08 => some (1, true)
    | 0x09 => some (4, true) | 0x0A => some (1, true) | _ => none
  | 0x0B => match a with
    | 0x01 => some (1, true) | 0x02 => some (2, true) | 0x03 => some (2, true) | 0x04 => some (2, true)
    | 0x05 => some (2, true) | _ => none
  | 0x0C => pairSpec a
  | 0x0D =>
    if 0x40 ≤ a ∧ a ≤ 0x6F then some (2, false)
    else if inst ≠ 0 then none
    else match a with
      | 0x01 => some (2, false) | 0x02 => some (2, false) | 0x03 => some (1, false) | 0x04 => some (1, false)
      | 0x05 => some (1, false) | 0x06 => some (2, false) | 0x07 => some (1, false) | 0x08 => some (2, false)
      | 0x09 => some (2, false) | _ => none
  | 0x0E => match a with
    | 0x01 => some (1, false) | 0x02 => some (1, false)
    | 0x03 => if 5 ≤ inst ∧ inst ≤ 9 then none else some (1, false)
    | 0x04 => some (1, false) | 0x05 => some (1, true) | _ => none
  | 0x0F => perfSpec inst a
  | 0x10 => match a with
    | 0x01 => some (1, true) | 0x02 => some (4, true) | _ => none
  | 0x11 => if a = 0x01 then some (2, false) else none
  | 0x12 => match a with
    | 0x01 => some (1, true) | 0x02 => some (8, true) | 0x03 => some (8, false) | 0x04 => some (4, true) | _ => none
  | _ => none

/-- The specification of an ID on this device: BAD_OBJECT is none (R392, R3). -/
def idSpec (s : State) (cls inst a : Nat) : Option (Nat × Bool) :=
  if clsCount cls ≤ inst ∨ fusedInst s cls inst = true then none else attrSpec cls inst a

/-- Defaults of the attributes hport and lport share; filter targets default to GYDOM (R378). -/
def portDefault (a : Nat) : Nat :=
  if 0x10 ≤ a ∧ a ≤ 0x17 then 0xFF * 2 ^ 48
  else match a with
    | 0x03 => 0xFFFF | 0x04 => 20 | 0x08 => 100 | 0x0B => 10000 | 0x0C => 512 | 0x0D => 128 | 0x0E => 100
    | 0x21 => 0xFFFF | 0x22 => 0xFF | _ => 0

def devDefault : Nat → Nat
  | 0x04 => 1000 | 0x05 => 5 | 0x06 => 8 | 0x07 => 10 | 0x08 => 50 | 0x09 => 4096 | 0x0B => 24 | 0x0C => 600 | _ => 0

def chanDefault : Nat → Nat
  | 0x05 => 1 | 0x12 => 2 ^ 62 | 0x13 => 2 ^ 64 - 2 ^ 32 | 0x14 => 1 | 0x18 => 0xFFFF | 0x19 => 3000 | 0x1A => 1000
  | 0x1B => 1000 | 0x1C => 1 | 0x1D => 1 | _ => 0

def tamperFilter (src : Nat) : Nat :=
  if src = 0 then 10 else if src ≤ 4 then 20 else if src = 5 then 4 else if src ≤ 7 then 3 else if src ≤ 9 then 1
  else if src ≤ 11 then 4 else 1

/-- What an attribute reads as before anything has written it. -/
def attrDefault (cls inst a : Nat) : Nat :=
  match cls with
  | 0x01 => devDefault a
  | 0x02 => portDefault a
  | 0x03 => portDefault a
  | 0x04 => chanDefault a
  | 0x09 => match a with
    | 0x01 => 0xFFFF | 0x04 => 16 | 0x05 => 2000 | 0x06 => 500 | 0x07 => 6000 | _ => 0
  | 0x0A => match a with
    | 0x04 => 64 | 0x05 => 2 | 0x06 => 4 | 0x07 => 20 | _ => 0
  | 0x0C => match a with
    | 0x06 => 600 | 0x07 => 150 | 0x08 => 28 | 0x09 => 500 | 0x0A => 1000 | _ => 0
  | 0x0D => match a with
    | 0x01 => 920 | 0x02 => 1800 | 0x03 => 5 | 0x04 => 1 | 0x05 => 16 | 0x06 => 1800 | 0x08 => 700 | 0x09 => 850 | _ => 0
  | 0x0E => match a with
    | 0x01 => 1 | 0x02 => tamperFilter inst | 0x03 => b01 (inst == 0) | 0x04 => 1 | _ => 0
  | 0x0F => match a with
    | 0x03 => 0xFFFF | 0x04 => 0xF | 0x05 => 0x7F | 0x07 => 0xFFFFFFFFFF | 0x08 => 0xFF | 0x0C => 65536 | _ => 0
  | 0x11 => 50
  | _ => 0

/-- An entry of the set as written at test: a free value, but at (0.75 V, ≤ 95 °C), entry 4·6 + 4, at least 1,800 (R174). -/
def factoryPace (c i : Nat) : Nat := if i = 28 then max 1800 (Config.calPace c i).toNat else (Config.calPace c i).toNat

/-- Entry i of cluster c's pace table in the stored calibration set (R174, Table 12-10). -/
def calEntry (n : Nvm) (c i : Nat) : Nat :=
  match n.cal with
  | none => factoryPace c i
  | some b => leAt b (32 + (c * 48 + i) * 2) 2

/-- The stored value of an attribute; tamper settings are kept in the Standpipe (R338), pace entries load from the set. -/
def attr (s : State) (cls inst a : Nat) : Nat :=
  if cls = clsTamper then tget (attrDefault cls inst a) s.stp.settings (oid cls inst a)
  else if cls = clsPmu ∧ 0x40 ≤ a then tget (calEntry s.nvm inst (a - 0x40)) s.objs (oid cls inst a)
  else if cls = clsChan ∧ a = 0x0B then
    tget ((Config.portMac (tget 0 s.objs (oid clsChan inst 0x03))).toNat * 65536 + 1) s.objs (oid cls inst a)
  else tget (attrDefault cls inst a) s.objs (oid cls inst a)

/-- The object table with an attribute written; attributes whose default depends on other state stay listed. -/
def putAttr (objs : Tab Nat) (cls inst a v : Nat) : Tab Nat :=
  if (cls = clsPmu ∧ 0x40 ≤ a) ∨ (cls = clsChan ∧ a = 0x0B) then tins objs (oid cls inst a) v
  else tset (attrDefault cls inst a) objs (oid cls inst a) v

/-- Write an attribute. -/
def setAttr (s : State) (cls inst a v : Nat) : State :=
  if cls = clsTamper then
    { s with stp := { s.stp with settings := tset (attrDefault cls inst a) s.stp.settings (oid cls inst a) v } }
  else { s with objs := putAttr s.objs cls inst a v }

/-- The object table without an instance's attributes (R24: a FREE channel reads every attribute at its default). -/
def dropInst (objs : Tab Nat) (cls inst : Nat) : Tab Nat :=
  objs.filter (fun p => !decide (p.1 / 256 = cls * 65536 + inst))

/-- Whether a value of a port attribute is in its range (R225, Table 16-5). -/
def portRange (a v : Nat) : Bool :=
  match a with
  | 0x01 => decide (v < 2) | 0x02 => decide (v < 4) | 0x04 => decide (v ≤ 50) | 0x05 => decide (v < 3) | 0x07 => decide (v ≤ 3)
  | 0x08 => decide (10 ≤ v ∧ v ≤ 1000) | 0x09 => decide (v ≤ 10000) | 0x0B => decide (100 ≤ v ∧ v ≤ 100000)
  | 0x0C => decide (v ≤ 8192) | 0x0D => decide (v ≤ 4096) | 0x0E => decide (v ≤ 10000) | 0x0F => decide (v < 2)
  | 0x20 => decide (v < 2) | 0x22 => decide (v ≤ 7 ∨ v = 0xFF)
  | _ =>
    if 0x10 ≤ a ∧ a ≤ 0x17 then
      (decide (bits v 55 48 ≤ 7) || bits v 55 48 == 0xFF) && decide (bits v 63 56 < 2)
    else true

def devRange (a v : Nat) : Bool :=
  match a with
  | 0x03 => decide (v < 2) | 0x04 => decide (10 ≤ v ∧ v ≤ 10000) | 0x05 => decide (v ≤ 50) | 0x06 => decide (1 ≤ v ∧ v ≤ 64)
  | 0x07 => decide (1 ≤ v ∧ v ≤ 1000) | 0x08 => decide (10 ≤ v ∧ v ≤ 80) | 0x09 => decide (64 ≤ v ∧ v ≤ 16384)
  | 0x0A => decide (v < 2) | 0x0B => decide (v ≤ 720) | 0x0C => decide (30 ≤ v ∧ v ≤ 3600) | 0x0D => decide (v < 2) | _ => true

def chanRange (a v : Nat) : Bool :=
  match a with
  | 0x02 => decide (v < 48) | 0x03 => decide (v < 48) | 0x04 => decide (v < 8) | 0x05 => decide (v < 2) | 0x06 => decide (v < 2)
  | 0x07 => v == 0 || v == 30 || v == 50 | 0x08 => decide (v < 3) | 0x09 => decide (v ≤ 4094) | 0x0A => decide (v ≤ 4094)
  | 0x10 => decide (v < 4) | 0x11 => decide (v < 4) | 0x12 => decide (1 ≤ v) | 0x13 => decide (v ≤ 2 ^ 64 - 2 ^ 32)
  | 0x14 => decide (v < 2) | 0x15 => decide (v ≤ 2 ^ 30) | 0x16 => decide (v < 3) | 0x17 => decide (v < 2)
  | 0x19 => decide (v ≤ 60000) | 0x1A => decide (1 ≤ v ∧ v ≤ 800000) | 0x1B => decide (1 ≤ v ∧ v ≤ 800000)
  | 0x1C => decide (1 ≤ v) | 0x1D => decide (1 ≤ v) | _ => true

def caRange (a v : Nat) : Bool :=
  match a with
  | 0x02 => decide (v < 1024)
  | 0x03 => decide (1 ≤ v % 256 ∧ v % 256 ≤ 32) && decide (v / 256 < 256 ^ (v % 256))
  | 0x05 => decide (500 ≤ v ∧ v ≤ 10000) | 0x06 => decide (100 ≤ v) | 0x07 => decide (v ≤ 60000)
  | 0x08 => v == 0 || decide (60 ≤ v ∧ v ≤ 86400) | _ => true

/-- Whether a value lies in the range its defining table gives, seen by itself (step 6 of R393). -/
def attrRange (cls a v : Nat) : Bool :=
  match cls with
  | 0x01 => devRange a v
  | 0x02 => portRange a v
  | 0x03 => portRange a v
  | 0x04 => chanRange a v
  | 0x05 => match a with
    | 0x01 => decide (v < 2) | 0x02 => decide (v ≤ 800000) | 0x03 => decide (v ≤ 16777215) | 0x04 => decide (v ≤ 800000)
    | 0x05 => decide (v ≤ 16777215) | 0x06 => decide (v < 2) | 0x07 => decide (v < 2) | _ => true
  | 0x06 => match a with
    | 0x01 => decide (1 ≤ v ∧ v ≤ 800000) | 0x02 => decide (64 ≤ v ∧ v ≤ 16777215) | 0x03 => decide (v < 2)
    | 0x04 => decide (v < 2) | _ => true
  | 0x09 => caRange a v
  | 0x0A => match a with
    | 0x01 => decide (v < 1024) | 0x03 => decide (v < 2) | 0x04 => decide (1 ≤ v ∧ v ≤ 64) | 0x05 => decide (1 ≤ v ∧ v ≤ 7)
    | 0x06 => decide (1 ≤ v ∧ v ≤ 15) | 0x07 => decide (10 ≤ v ∧ v ≤ 1000) | _ => true
  | 0x0C => match a with
    | 0x05 => decide (v < 2) | 0x06 => decide (400 ≤ v ∧ v ≤ 5000) | 0x07 => decide (50 ≤ v) | 0x08 => decide (20 ≤ v ∧ v ≤ 40)
    | 0x09 => decide (v ≤ 20000) | 0x0A => decide (10 ≤ v ∧ v ≤ 100000) | _ => true
  | 0x0D => match a with
    | 0x01 => decide (800 ≤ v ∧ v ≤ 950) | 0x02 => decide (800 ≤ v ∧ v ≤ 1800) | 0x03 => decide (1 ≤ v ∧ v ≤ 50)
    | 0x04 => decide (v < 2) | 0x05 => decide (8 ≤ v ∧ v ≤ 32) | 0x06 => decide (800 ≤ v ∧ v ≤ 1800) | 0x07 => decide (v < 2)
    | 0x08 => decide (650 ≤ v ∧ v ≤ 850) | 0x09 => decide (650 ≤ v ∧ v ≤ 850) | _ => true
  | 0x0E => match a with
    | 0x01 => decide (v < 2) | 0x02 => decide (1 ≤ v) | 0x03 => decide (v < 2) | 0x04 => decide (v < 2) | _ => true
  | 0x0F => match a with
    | 0x01 => decide (v < 2) | 0x03 => decide (v ≤ 95 ∨ v = 0xFFFF) | 0x04 => decide (v < 16) | 0x05 => decide (v < 128)
    | 0x06 => decide (v < 2 ^ 40) | 0x07 => decide (v < 2 ^ 40) | 0x09 => decide (v < 2) | 0x0A => decide (v < 2)
    | 0x0B => decide (v < 4) | 0x0C => decide (1 ≤ v ∧ v ≤ 16777216) | _ => true
  | 0x11 => decide (1 ≤ v ∧ v ≤ 10000)
  | 0x12 => decide (v < 2 ^ 48)
  | _ => true

end Sys2Proof.Machine
end

