-- ==== Sys2Proof/Machine/Ops.lean ====
section
/-! DEFINITION. The shared operations: random draws, time, counters and sampler (chapter 14), device memory behind the access
checker and IME (chapter 9), events and interrupts (R375, R376), the fault log (R391) and Sump discards (R353, R357). -/

namespace Sys2Proof.Machine

open Sys2Proof

/-! Draws and time -/

/-- The next DRBG output of w bits (R161): a free value, log 1. -/
def draw (w : Nat) (s : State) : BitVec w × State := (Config.drbg s.rng w, { s with rng := s.rng + 1 })

/-- The next value the spec leaves open: a free value, log 2. -/
def freeVal (w : Nat) (s : State) : BitVec w × State := (Config.free s.rng w, { s with rng := s.rng + 1 })

/-- Nanoseconds of a reading. -/
def Stamp.ns (t : Stamp) : Nat := t.sub / 2 ^ 32

/-- The 16-bit fraction of a nanosecond of a reading. -/
def Stamp.frac (t : Stamp) : Nat := t.sub / 2 ^ 16 % 2 ^ 16

/-- A reading in nanoseconds. -/
def Stamp.total (t : Stamp) : Nat := t.sec * 10 ^ 9 + t.ns

/-- Network time in nanoseconds. -/
def netNs (s : State) : Nat := s.time.now.total

/-- Whether an interval of ns has passed since a tick. -/
def passed (s : State) (since ns : Nat) : Bool := decide (since + ns ≤ s.time.ticks)

/-- Whether the device is halted (R283): a cause is recorded. -/
def halted (s : State) : Bool := decide (s.glb.haltCause ≠ 0)

/-- Whether the device is held in reset or has no main power, so that nothing but the Standpipe acts (R311, R409). -/
def asleep (s : State) : Bool := s.glb.inReset || !s.stp.main

/-- Whether the PCIe link has trained: not after a cold reset whose boot has stopped at the loss of REFCLK_SYS (R313). -/
def pcieUp (s : State) : Bool := !(s.glb.haltCause == 6 && s.glb.mode == .boot && !s.glb.booted && !s.glb.warm)

/-- Whether the block acts on traffic and commands at all: out of reset, powered and not halted. -/
def live (s : State) : Bool := !asleep s && !halted s

/-! Power domains (chapter 12) -/

/-- The domains of the fused ports of the NQX-9624 (R3). -/
def fusedDom (n : Nat) : Bool := decide ((46 ≤ n ∧ n ≤ 49) ∨ (54 ≤ n ∧ n ≤ 57) ∨ (61 ≤ n ∧ n ≤ 63) ∨ (67 ≤ n ∧ n ≤ 69))

/-- A domain; on the NQX-9624 the fused ones are always OFF (R3). -/
def domOf (s : State) (n : Nat) : Dom :=
  let d := tget {} s.pmu.doms n
  if s.nvm.part9624 && fusedDom n then { d with state := .off, toward := .off } else d

/-- Whether a power domain is ON (R321). -/
def domOn (s : State) (n : Nat) : Bool := (domOf s n).state == .on

def setDom (s : State) (n : Nat) (d : Dom) : State := { s with pmu := { s.pmu with doms := tset {} s.pmu.doms n d } }

/-! Counters (R351, R353) and their events (Table 14-2) -/

/-- An event of the catalogue: group, code, instance, and the filters it carries. -/
structure Ev where
  group : Nat
  code : Nat
  inst : Nat := 0xFFFF
  tc : Option Nat := none
  world : Option Nat := none
  master : Option Nat := none
  addr : Option Nat := none

/-- Counters whose enable is ON. -/
def enabledCounters (objs : Tab Nat) : List Nat :=
  objs.filterMap (fun p => if p.1 / 2 ^ 24 = clsPerf ∧ p.1 % 256 = 1 ∧ p.2 = 1 ∧ p.1 / 256 % 65536 < 256
    then some (p.1 / 256 % 65536) else none)

/-- Whether the filters of perf[n] let the event through (Table 14-1). -/
def filtersAdmit (s : State) (n : Nat) (e : Ev) : Bool :=
  (attr s clsPerf n 3 == 0xFFFF || attr s clsPerf n 3 == e.inst)
  && (match e.tc with | none => attr s clsPerf n 8 == 0xFF | some c => bit (attr s clsPerf n 8) c)
  && (match e.world with | none => true | some w => bit (attr s clsPerf n 4) w)
  && (match e.master with | none => true | some m => bit (attr s clsPerf n 5) m)
  && (match e.addr with | none => true | some a => decide (attr s clsPerf n 6 ≤ a ∧ a ≤ attr s clsPerf n 7))

/-- Whether counter n counts the event. -/
def qualifies (s : State) (n : Nat) (e : Ev) : Bool :=
  (attr s clsPerf n 2 == e.group * 256 + e.code || (e.group == 2 && attr s clsPerf n 2 == 0x200)) && filtersAdmit s n e

/-- One counter advanced by size, wrapping at 2^48 with its overflow bit (R351). -/
def bumpCounter (size : Nat) (p : Perf) (n : Nat) : Perf :=
  let v := tget 0 p.cnt n + size
  { p with cnt := tset 0 p.cnt n (v % 2 ^ 48), ovf := if 2 ^ 48 ≤ v then p.ovf ||| (1 <<< n) else p.ovf }

/-- An event counted by every programmable counter that it qualifies for; counters stop at a halt (R357). -/
def countEv (e : Ev) (size : Nat) (s : State) : State :=
  if halted s then s
  else { s with perf := ((enabledCounters s.objs).filter (fun n => qualifies s n e)).foldl (bumpCounter size) s.perf }

/-- Fixed counter m advanced by n, with its overflow bit (R353). -/
def bumpFix (m n : Nat) (s : State) : State :=
  let v := tget 0 s.perf.fix m + n
  { s with perf := { s.perf with
      fix := tset 0 s.perf.fix m (v % 2 ^ 48)
      fovf := if 2 ^ 48 ≤ v then s.perf.fovf ||| (1 <<< m) else s.perf.fovf } }

/-- Fixed counter m advanced by n; counters stop at a halt (R357). -/
def countFix (m n : Nat) (s : State) : State := if halted s then s else bumpFix m n s

/-- The tick of a halt is over: faults of other classes detected in that tick are still recorded (R275). -/
def haltOver (s : State) : Bool := halted s && s.glb.haltTick != s.time.ticks

/-! Sampler (R358, R359) -/

/-- What a sampled event brings to its record (Table 14-8). -/
structure Smp where
  kind : Nat
  reason : Nat := 0
  dec : Bool := false
  tc : Option Nat := none
  master : Option Nat := none
  world : Option Nat := none
  port : Nat := 0xFFFF
  chan : Nat := 0xFFFF
  req : Nat := 0x3F * 2 ^ 20
  addr : Nat := 0
  colour : Nat := 0
  latency : Nat := 0

/-- The 32 bytes of a sampling record (Table 14-8). -/
def smpRecord (now : Stamp) (m : Smp) : Bytes :=
  leBytes 4 now.ns ++ leBytes 4 now.sec ++ leBytes 1 m.kind ++ leBytes 1 m.reason
  ++ leBytes 1 (b01 m.dec + 2 * m.tc.getD 0 + 128 * b01 m.tc.isNone)
  ++ leBytes 1 (m.master.getD 0 + 8 * m.world.getD 0)
  ++ leBytes 2 m.port ++ leBytes 2 m.chan ++ leBytes 4 m.req ++ leBytes 6 m.addr ++ leBytes 1 m.colour ++ [0]
  ++ leBytes 4 (min m.latency 0xFFFFFFFF)

/-- Whether the sampler's programming admits the event. -/
def smpAdmits (s : State) (m : Smp) : Bool :=
  attr s clsPerf 256 1 == 1 && attr s clsPerf 256 0x0B + 1 == m.kind
  && (if m.kind ≤ 2 then attr s clsPerf 256 3 == 0xFFFF || attr s clsPerf 256 3 == m.port else true)
  && (if m.kind ≤ 2 then
        (match m.tc with | none => attr s clsPerf 256 8 == 0xFF | some c => bit (attr s clsPerf 256 8) c) else true)
  && (match m.world with | none => true | some w => bit (attr s clsPerf 256 4) w)
  && (match m.master with | none => true | some k => bit (attr s clsPerf 256 5) k)
  && (if m.kind = 3 then decide (attr s clsPerf 256 6 ≤ m.addr ∧ m.addr ≤ attr s clsPerf 256 7) else true)

/-- A qualifying event of an instant offered to the sampler: every period-th writes one record, at most one per TIME
tick, that of the lowest port. -/
def sampleAt (t : Stamp) (m : Smp) (s : State) : State :=
  if halted s || !smpAdmits s m then s
  else
    let p := s.perf
    if p.smpCount + 1 < attr s clsPerf 256 0x0C then { s with perf := { p with smpCount := p.smpCount + 1 } }
    else if p.smpTick = some s.time.ticks then
      let i := (p.smpWr + 4095) % 4096
      { s with perf := { p with
          smpCount := 0
          smpSkip := min 0xFFFF (p.smpSkip + 1)
          smpRec := if m.port < leAt (tget [] p.smpRec i) 12 2 then tset [] p.smpRec i (smpRecord t m) else p.smpRec } }
    else if p.smpFill = 4096 then { s with perf := { p with smpCount := 0, smpLost := min 0xFFFF (p.smpLost + 1) } }
    else { s with perf := { p with
        smpCount := 0
        smpTick := some s.time.ticks
        smpRec := tset [] p.smpRec p.smpWr (smpRecord t m)
        smpWr := (p.smpWr + 1) % 4096
        smpFill := p.smpFill + 1 } }

/-- A qualifying event of the present instant. -/
def sample (m : Smp) (s : State) : State := sampleAt s.time.now m s

/-- A master access offered to the sampler (MEM). The time that an access takes is not stated: a free value beside what a hold of the
checker made it wait (log 2). -/
def sampleMem (m : Smp) (s : State) : State :=
  let (v, s) := freeVal 32 s
  sample { m with kind := 3, latency := s.mem.waited + v.toNat } s

/-! Device addresses (Table 9-1) and regions (R269) -/

/-- Control RAM, private to CP. -/
def isCtl (a : Nat) : Bool := decide (a < 0x400000)

/-- Scratch RAM. -/
def isScratch (a : Nat) : Bool := decide (0x1000000 ≤ a ∧ a < 0x1100000)

/-- The Reservoir. -/
def isRes (a : Nat) : Bool := decide (0x1000000000 ≤ a ∧ a < 0x1C00000000)

/-- The host window of the Reservoir. -/
def inHost (a : Nat) : Bool := decide (0x1000000000 ≤ a ∧ a < 0x1400000000)

def region (s : State) (n : Nat) : Region := tget {} s.mem.regions n

def Region.size (r : Region) : Nat := r.attr.toNat % 64

/-- A region is enabled with EN and a SIZE of 12 to 36 (Table 9-14). -/
def Region.enabled (r : Region) : Bool := r.attr.getLsbD 31 && decide (12 ≤ r.size ∧ r.size ≤ 36)

/-- The base, with its low SIZE bits ignored (R269). -/
def Region.base (r : Region) : Nat :=
  ((r.hi.toNat % 256) * 2 ^ 32 + r.lo.toNat / 4096 * 4096) / 2 ^ r.size * 2 ^ r.size

def Region.tag (r : Region) : Nat := bits r.attr.toNat 27 22

/-- Whether an enabled sub-region of an enabled region covers the address. -/
def Region.covers (r : Region) (a : Nat) : Bool :=
  r.enabled && decide (r.base ≤ a ∧ a < r.base + 2 ^ r.size)
  && !r.attr.getLsbD (6 + (a - r.base) / 2 ^ (r.size - 3))

/-- The regions that cover an address: 12–31 in the host window, 0–11 elsewhere (R269). -/
def coverers (s : State) (a : Nat) : List Nat :=
  (if inHost a then upFrom 12 20 else upFrom 0 12).filter (fun n => (region s n).covers a)

def causeNoRegion : Nat := 1
def causeOverlap : Nat := 2
def causeMaster : Nat := 3
def causeRights : Nat := 4
def causeColour : Nat := 5
def causeNoKey : Nat := 6
def causeUnmapped : Nat := 7
def causeHoldLong : Nat := 8

def mCp : Nat := 0
def mDp : Nat := 1
def mDma : Nat := 2
def mLa : Nat := 3
def mSweep : Nat := 4
def mMate : Nat := 5
def mDbg : Nat := 6

/-- The checks of Table 9-9 in order; 0 is a pass. CP reaches control RAM unchecked (R268). -/
def checkCause (s : State) (master colour a : Nat) (write : Bool) : Nat :=
  if master = mCp ∧ isCtl a then 0
  else match coverers s a with
    | [] => causeNoRegion
    | _ :: _ :: _ => causeOverlap
    | [n] =>
      let r := region s n
      if master ≠ mSweep ∧ !r.attr.getLsbD (14 + master) then causeMaster
      else if master ≠ mSweep ∧ !(if write then r.attr.getLsbD 30 else r.attr.getLsbD 29) then causeRights
      else if colour ≠ r.tag then causeColour
      else if colour = 0 ∧ isRes a then causeNoKey
      else if !(isRes a || isScratch a) then causeUnmapped
      else 0

/-- What the Reservoir test writes over (R320): all of the Reservoir but the FW and SA ranges (Table 9-3). -/
def tested (a : Nat) : Bool := isRes a && !decide (0x1980000000 ≤ a ∧ a < 0x1A00000000)

/-! Inline memory encryption (R260 to R265) -/

def imeKey (s : State) (k : Nat) : ImeK := tget {} s.mem.imeK k

/-- The generation that an access of index k to an address uses (R262, R264). -/
def imeGen (s : State) (k a : Nat) : Bool :=
  match s.mem.sweep with
  | some w => if w.index = k ∧ a / 64 * 64 < w.ptr then w.target else (imeKey s k).gen
  | none => (imeKey s k).gen

/-- The inline-memory key line, by 2k + generation, that an access of index k to an address uses. -/
def imeSlot (s : State) (k a : Nat) : Nat := 2 * k + b01 (imeGen s k a)

/-- The data key and tweak key of that line. -/
def xtsKey (s : State) (k a : Nat) : BitVec 512 := lineVal (tget {} s.keys.ime (imeSlot s k a))

/-- The bytes listed for a line. -/
def lineBytes (m : Tab Byte) (ln : Nat) : Bytes := (upFrom (ln * 64) 64).map (tget 0 m)

/-- The ciphertext that a line holds. -/
def lineCipher (s : State) (ln : Nat) : NatList :=
  match tget none s.mem.lines ln with
  | some key => xtsEnc key ln (octets (lineBytes s.mem.bytes ln))
  | none => octets ((upFrom (ln * 64) 64).map (Config.blank (if tested (ln * 64) then s.mem.patterns else s.mem.start)))

/-- One byte of memory as read with key index k: decrypted in the Reservoir, which gives the plaintext back under the key that it was
encrypted under; outside the Reservoir no key applies. -/
def memByte (s : State) (k a : Nat) : Byte :=
  if isRes a ∧ tget none s.mem.lines (a / 64) ≠ some (xtsKey s k a) then
    (ofOctets (xtsDec (xtsKey s k a) (a / 64) (lineCipher s (a / 64)))).getD (a % 64) 0
  else tget 0 s.mem.bytes a

/-- n bytes read with key index k. -/
def memRead (s : State) (k a n : Nat) : Bytes := (upFrom a n).map (memByte s k)

/-- Bytes put into the sparse memory from an address on. -/
def putBytes : Tab Byte → Nat → Bytes → Tab Byte
  | m, _, [] => m
  | m, a, b :: r => putBytes (tset 0 m a b) (a + 1) r

/-- Data cut at every multiple of w of the address. -/
def pieces (w : Nat) : (fuel a : Nat) → Bytes → List (Nat × Bytes)
  | 0, _, _ => []
  | fuel + 1, a, l =>
    if l.isEmpty then [] else (a, l.take (w - a % w)) :: pieces w fuel (a + (w - a % w)) (l.drop (w - a % w))

/-- Set the pending bit of an index (R263): no effect while it is pending or being swept. -/
def pendSweep (k : Nat) (s : State) : State :=
  if (match s.mem.sweep with | some w => decide (w.index = k) | none => false) then s
  else { s with mem := { s.mem with pendingSweep := s.mem.pendingSweep ||| (1 <<< k) } }

/-- The write counter of index k advanced for a line written at an address (R262, R264), and its limit (R263). -/
def imeCount (k a : Nat) (s : State) : State :=
  if (match s.mem.sweep with | some w => decide (w.index = k ∧ w.ptr ≤ a / 64 * 64) | none => false) then s
  else
    let x := imeKey s k
    let s := { s with mem := { s.mem with imeK := tset {} s.mem.imeK k { x with wcnt := (x.wcnt + 1) % 2 ^ 48 } } }
    if 2 ^ x.limit ≤ x.wcnt + 1 then pendSweep k s else s

/-- An access of index k uses the key line of an address. -/
def useLine (k a : Nat) (s : State) : State := onMem (fun m => { m with used := imeSlot s k a :: m.used }) s

/-- A line's content replaced under a key. -/
def putLine (key : BitVec 512) (ln : Nat) (b : Bytes) (s : State) : State :=
  onMem (fun m => { m with bytes := putBytes m.bytes (ln * 64) b, lines := tset none m.lines ln (some key) }) s

/-- Bytes within one Reservoir line written under key index k; a partial line is read, merged and written (R260). -/
def writeLine (k a : Nat) (d : Bytes) (s : State) : State :=
  let ln := a / 64
  let old := memRead s k (ln * 64) 64
  let s1 := putLine (xtsKey s k a) ln (old.take (a % 64) ++ d ++ old.drop (a % 64 + d.length)) (useLine k a s)
  let s2 := if d.length < 64 then countEv { group := 6, code := 3 } 1 (countFix 58 1 s1) else s1
  imeCount k a (countEv { group := 6, code := 4 } 1 (countFix 59 1 s2))

/-- Bytes written to existing memory under key index k. -/
def memWrite (k a : Nat) (d : Bytes) (s : State) : State :=
  if isRes a then (pieces 64 (d.length + 1) a d).foldl (fun s p => writeLine k p.1 p.2 s) s
  else { s with mem := { s.mem with bytes := putBytes s.mem.bytes a d } }

/-- Lines that an access touches. -/
def lineCount (a n : Nat) : Nat := if n = 0 then 0 else (a + n - 1) / 64 - a / 64 + 1

/-- A Reservoir read with key index k: the keys it uses, and its counts (Table 14-4). -/
def countRead (k a n : Nat) (s : State) : State :=
  if isRes a then
    let s := (upFrom (a / 64) (lineCount a n)).foldl (fun s ln => useLine k (64 * ln) s) s
    countEv { group := 6, code := 3 } (lineCount a n) (countFix 58 (lineCount a n) s)
  else s

/-! Interrupts (R375) -/

def irqMap (s : State) (e : Nat) : Nat := tget 0 s.irq.map e

/-- The vector a code is mapped and enabled to; EV_MBX14 and EV_MBX15 have no effect through their mapping. -/
def vectorOf (s : State) (e : Nat) : Option Nat :=
  if bit (irqMap s e) 8 ∧ e ≤ 55 ∧ e ≠ evMbx 14 ∧ e ≠ evMbx 15 then some (irqMap s e % 64) else none

/-- Send a vector's message, which disarms it; while it is masked its pending bit sets instead. -/
def sendMsix (v : Nat) (s : State) : State :=
  let q := s.irq
  if q.masked.getLsbD v then { s with irq := { q with armed := q.armed &&& ~~~((1 : W64) <<< v), pba := q.pba ||| (1 <<< v) } }
  else { s with irq := { q with armed := q.armed &&& ~~~((1 : W64) <<< v) }, out := .msix v :: s.out }

/-- Whether any mapped, enabled cause of a vector is set. -/
def vectorCause (s : State) (v : Nat) : Bool :=
  (upFrom 0 56).any (fun e => s.irq.cause.getLsbD e && vectorOf s e == some v)

/-- An armed vector with a cause set sends at once (rearm, MSI-X enable, mapping enable). -/
def sendIfDue (v : Nat) (s : State) : State :=
  if s.irq.msix && s.irq.armed.getLsbD v && vectorCause s v then sendMsix v s else s

/-- The cause bit of an event sets; an armed vector mapped to it sends, EV_HALT whatever the armed state. -/
def setCause (e : Nat) (s : State) : State :=
  let s1 := { s with irq := { s.irq with cause := s.irq.cause ||| (1 <<< e) } }
  match vectorOf s1 e with
  | none => s1
  | some v => if s1.irq.msix && (s1.irq.armed.getLsbD v || e == evHalt) then sendMsix v s1 else s1

/-! Rings (R377) -/

def ringOf (s : State) (r : Nat) : Ring := tget {} s.rings r
def setRing (r : Nat) (x : Ring) (s : State) : State := { s with rings := tset {} s.rings r x }

/-- A frame or record dropped, counted in RING_r_DROP, saturating. -/
def ringDrop (r : Nat) (s : State) : State :=
  let x := ringOf s r
  setRing r { x with drop := min 0xFFFFFFFF (x.drop + 1) } s

/-- A refused access of a ring's engine: EN clears, ACC_ERR sets, the frame or record is dropped (R381). -/
def ringFail (r : Nat) (s : State) : State :=
  let x := ringOf s r
  setRing r { x with en := false, accErr := true, drop := min 0xFFFFFFFF (x.drop + 1) } s

/-! Faults of the access checker and event records -/

/-- Whether the checker holds new accesses (R272, R273). -/
def holding (s : State) : Bool := !s.mem.mpuEn || s.mem.gydomHold

/-- The counts and the capture of a failed access (R271): the first since VALID was clear, of two in one tick that of the lower master. -/
def captureFault (master colour world a : Nat) (write : Bool) (cause : Nat) (s : State) : State :=
  let takes (m : Mem) : Bool := match m.fault with
    | none => true
    | some f => decide (m.faultAt = s.time.ticks ∧ master < f.2.1)
  let s := onMem (fun m => { m with
    faultCount := min 0xFFFFFFFF (m.faultCount + 1)
    fault := if takes m then some (a % 2 ^ 40, master, colour, write, cause) else m.fault
    faultAt := if takes m then s.time.ticks else m.faultAt }) s
  countEv { group := 6, code := 2, world := some world, master := some master, addr := some a } 1 (countFix 40 1 s)

/-- The DATA of EV_MPU_FAULT. -/
def mpuData (master colour a : Nat) (write : Bool) (cause : Nat) : Bytes :=
  leBytes 5 a ++ leBytes 1 master ++ leBytes 1 colour ++ leBytes 1 (b01 write) ++ leBytes 1 cause

/-- A record written to the event ring by the DMA master (R376, R381), and whether the ring was empty before. A refused write stops the
ring; its own EV_MPU_FAULT then finds the ring stopped, so that its record is dropped. -/
def ringWrite (rcd : Bytes) (s : State) : Bool × State :=
  let x := ringOf s 16
  let n := 2 ^ x.size
  if !x.en || decide ((x.prod + 1) % n = x.cons) then (false, ringDrop 16 s)
  else
    let a := x.base + x.prod * 32
    let c := checkCause s mDma x.colour a true
    let s := sampleMem { kind := 3, reason := c, master := some mDma, world := some 3, addr := a, colour := x.colour }
      (countEv { group := 6, code := 1, world := some 3, master := some mDma, addr := some a } 1 s)
    match c with
    | 0 =>
      let s := memWrite x.colour a (rcd ++ zeros (32 - rcd.length)) s
      (decide (x.prod = x.cons), setRing 16 { ringOf s 16 with prod := (x.prod + 1) % n } s)
    | c => (false, ringDrop 16 (setCause evMpuFault (captureFault mDma x.colour 3 a true c (ringFail 16 s))))

/-- The record of an event (R376), without its count. -/
def eventRecord (s : State) (code : Nat) (data : Bytes) : Bytes :=
  leBytes 1 code ++ [0] ++ leBytes 2 s.irq.records ++ leBytes 4 s.time.now.ns ++ leBytes 6 s.time.now.sec ++ [0, 0]
  ++ data ++ zeros (16 - data.length)

/-- One more record counted. -/
def countRecord (s : State) : State := { s with irq := { s.irq with records := (s.irq.records + 1) % 65536 } }

/-- A record given to the event ring. Where the ring was empty and its IRQ_EN is 1, the code of the ring is raised too, which as every
event writes a record of its own (Table 15-13, R376). -/
def ringRecord (rcd : Bytes) (s : State) : State :=
  match ringWrite rcd s with
  | (false, s) => s
  | (true, s) =>
    if !(ringOf s 16).irqEn then s
    else setCause evRing16 (ringWrite (eventRecord s evRing16 (leBytes 2 (ringOf s 16).prod)) (countRecord s)).2

/-- An access kept waiting by a hold (R272). -/
def keepWaiting (w : Waiter) (s : State) : State :=
  { s with mem := { s.mem with waiting := s.mem.waiting ++ [(s.time.ticks, w)] } }

/-- An event other than EV_HALT is raised: its cause bit sets and its record goes to the event ring, after the end of a hold
of the checker where one is in force; a halted device writes no record (Table 10-5). -/
def raise (code : Nat) (data : Bytes) (s : State) : State :=
  if asleep s then s
  else if halted s then setCause code s
  else
    let rcd := eventRecord s code data
    let s := countRecord s
    let s := if holding s then keepWaiting (.record rcd) s else ringRecord rcd s
    setCause code s

/-- A failed access of a master (R271). -/
def mpuFault (master colour world a : Nat) (write : Bool) (cause : Nat) (s : State) : State :=
  raise evMpuFault (mpuData master colour a write cause) (captureFault master colour world a write cause s)

/-! Accesses by masters -/

/-- One access of at most 256 bytes that a master reads: the data, zeros on failure, and the cause. -/
def masterRead (master colour world a n : Nat) (s : State) : (Bytes × Nat) × State :=
  let c := checkCause s master colour a false
  let ev : Ev := { group := 6, code := 0, world := some world, master := some master, addr := some a }
  let smp : Smp := { kind := 3, reason := c, master := some master, world := some world, addr := a, colour := colour }
  if c = 0 then ((memRead s colour a n, 0), sampleMem smp (countEv ev 1 (countRead colour a n s)))
  else ((zeros n, c), sampleMem smp (mpuFault master colour world a false c (countEv ev 1 s)))

/-- One access of at most 256 bytes that a master writes: the cause. -/
def masterWrite (master colour world a : Nat) (d : Bytes) (s : State) : Nat × State :=
  let c := checkCause s master colour a true
  let ev : Ev := { group := 6, code := 1, world := some world, master := some master, addr := some a }
  let smp : Smp := { kind := 3, reason := c, master := some master, world := some world, addr := a, colour := colour }
  if c = 0 then (0, sampleMem smp (countEv ev 1 (memWrite colour a d s)))
  else (c, sampleMem smp (mpuFault master colour world a true c (countEv ev 1 s)))

/-- The accesses of a transfer of n bytes: addresses and lengths, cut at every 256 bytes. -/
def cuts : (fuel a n : Nat) → List (Nat × Nat)
  | 0, _, _ => []
  | fuel + 1, a, n => if n = 0 then [] else
      let k := min n (256 - a % 256)
      (a, k) :: cuts fuel (a + k) (n - k)

def readCuts (master colour world : Nat) : List (Nat × Nat) → Bytes → State → Option Bytes × State
  | [], acc, s => (some acc, s)
  | (a, n) :: r, acc, s =>
    let ((d, c), s) := masterRead master colour world a n s
    if c = 0 then readCuts master colour world r (acc ++ d) s else (none, s)

/-- A buffer of n bytes read by a master; none where the checker refuses an access (R386). -/
def bufRead (master colour world a n : Nat) (s : State) : Option Bytes × State :=
  readCuts master colour world (cuts (n / 256 + 2) a n) [] s

def writeCuts (master colour world : Nat) : List (Nat × Bytes) → State → Bool × State
  | [], s => (true, s)
  | (a, d) :: r, s =>
    let (c, s) := masterWrite master colour world a d s
    if c = 0 then writeCuts master colour world r s else (false, s)

/-- A buffer written by a master; false where the checker refuses an access. -/
def bufWrite (master colour world a : Nat) (d : Bytes) (s : State) : Bool × State :=
  writeCuts master colour world (pieces 256 (d.length / 256 + 2) a d) s

/-! Fault log (R391) and DEGRADE faults (R282) -/

/-- A fault counted on its fixed counter; one detected in the tick of a halt is recorded too (R275). -/
def countFault (m : Nat) (s : State) : State := if haltOver s then s else bumpFix m 1 s

/-- A RECORD (0), RETIRE (1) or DEGRADE (2) fault entered in the log of the last 4,096, with its row of Table 10-2. Gydom keeps the
log, so that a halt ends it, once the faults of its own tick are recorded (R275). -/
def logFault (cls row detail : Nat) (s : State) : State :=
  if haltOver s then s else
  let r : FaultRec := { index := s.maint.nextIndex, sec := s.time.now.sec, ns := s.time.now.ns, cls := cls, row := row, detail := detail }
  let l := s.maint.log ++ [r]
  { s with maint := { s.maint with log := l.drop (l.length - 4096), nextIndex := s.maint.nextIndex + 1 } }

/-- A DEGRADE fault: counted, logged, and EV_DEGRADE with every condition in force, the new one included. -/
def degrade (row detail : Nat) (conditions : BitVec 4) (s : State) : State :=
  let s := { s with maint := { s.maint with degrade := s.maint.degrade ||| conditions } }
  raise evDegrade (leBytes 1 s.maint.degrade.toNat) (logFault 2 row detail (countFault 42 s))

/-! Granules of the Cistern (R251, R253) and lines of the spill range -/

/-- The first number from g on, cyclically below n, that is not in use. -/
def freeFrom (n : Nat) (used : List Nat) : (fuel g : Nat) → Nat
  | 0, g => g % n
  | fuel + 1, g => if used.contains (g % n) then freeFrom n used fuel (g + 1) else g % n

/-- count numbers below n, none in use: which of them is not stated (log 6). -/
def pick (n : Nat) : (count : Nat) → (used : List Nat) → State → List Nat × State
  | 0, _, s => ([], s)
  | count + 1, used, s =>
    let (v, s) := freeVal 32 s
    let g := freeFrom n used used.length v.toNat
    let (l, s) := pick n count (g :: used) s
    (g :: l, s)

/-- The granules that are not on the free list: those of frames in flight, of diverted frames and of frames of the control complex, staging
granules, and those in quarantine. -/
def granulesInUse (s : State) : List Nat :=
  (s.traffic.frames.map (fun p => p.2.chain ++ p.2.outs)).flatten
  ++ (s.rings.map (fun r => (r.2.waiting.map (·.chain)).flatten)).flatten
  ++ (s.traffic.ports.map (fun p => (p.2.mgmt.map (·.chain)).flatten)).flatten
  ++ (s.la.map (fun q => (q.2.work.map (·.chain)).flatten)).flatten
  ++ s.mem.quarantine ++ s.mem.heldGranules

/-- Granules for n bytes, taken from the free list. -/
def takeGranules (n : Nat) (s : State) : List Nat × State := pick 393216 (cdiv n 256) (granulesInUse s) s

/-- The link RAM's entries of a chain that holds n bytes (R251): each granule with the next one and its count of valid bytes. -/
def links : List Nat → (n : Nat) → List (Nat × Option Nat × Nat)
  | [], _ => []
  | g :: r, n => (g, r.head?, min n 256) :: links r (n - 256)

/-- The bytes of a chain's granules that hold n bytes of data (R252): each is filled whole, with zeros beyond the data's end. -/
def fills : List Nat → Bytes → List (Nat × Bytes)
  | [], _ => []
  | g :: r, b => (g, b.take 256 ++ zeros (256 - b.length)) :: fills r (b.drop 256)

/-! Sump discards -/

/-- A discarded frame as the Sump counts it: its port, its channel and direction once found, its class, and its first granule where it has
been given granules of its own. -/
structure Lost where
  q : Nat
  chan : Option (Nat × Dir) := none
  tc : Option Nat := none
  fid : Option Nat := none
  tr : Nat := 0
  place : Nat := 0x3F
  granule : Option Nat := none

def dirIx (c : Nat) (d : Dir) : Nat := 2 * c + (match d with | .enc => 0 | .dec => 1)

/-- A frame discarded into the Sump with a reason: fixed counters, tables, programmable counters and sampler (R353, R357). -/
def sump (r : Reason) (l : Lost) (s : State) : State :=
  if halted s then s
  else
    let s := countFix r.code 1 (countFix 0 1 s)
    let k := 32 * l.q + r.code
    let s := onTraffic (fun t => { t with sump := tmod 0 t.sump k (fun n => (n + 1) % 2 ^ 48) }) s
    let bump (x : ChanCount) : ChanCount := { x with discarded := (x.discarded + 1) % 2 ^ 48, lastReason := r.code }
    let s := match l.chan with
      | none => s
      | some (c, d) => onTraffic (fun t => { t with chanCounts := tmod {} t.chanCounts (dirIx c d) bump }) s
    let s := countEv { group := 2, code := r.code, inst := l.q, tc := l.tc } 1 s
    let (g, s) := freeVal 19 s
    sample { kind := 2, reason := r.code, dec := (match l.chan with | some (_, .dec) => true | _ => false), tc := l.tc, port := l.q,
             chan := (match l.chan with | some (c, _) => c | none => 0xFFFF),
             req := (match l.fid with | some f => f % 2 ^ 20 | none => 0) + l.place * 2 ^ 20, addr := l.granule.getD (g.toNat % 393216),
             latency := s.time.ticks - l.tr } s

end Sys2Proof.Machine
end

