-- ==== Sys2Proof/Machine/RingOps.lean ====
section
/-! DEFINITION. Ring steps that other blocks take (R379 to R382): a ring that stops, and transmit descriptors completed in ring order. -/

namespace Sys2Proof.Machine

open Sys2Proof

/-- Frames of the control complex forget the transmit ring they came from: their completion goes nowhere. -/
def forgetRing (r : Nat) (s : State) : State :=
  let s := onTraffic (fun t => { t with ports := t.ports.map (fun p =>
    (p.1, { p.2 with mgmt := p.2.mgmt.map (fun m => if m.ring = some r then { m with ring := none } else m) })) }) s
  let lose (m : CtlMsg) : CtlMsg := if m.ring = some r then { m with ring := none } else m
  { s with
    wh := s.wh.map (fun w => (w.1, { w.2 with tx := { w.2.tx with ready := w.2.tx.ready.map (fun m => (m.1, lose m.2)) } }))
    reqs := s.reqs.map (fun x => (x.1, match x.2.kind with | .seal p m => { x.2 with kind := .seal p (lose m) } | _ => x.2)) }

/-- A ring whose EN has cleared: its waiting frames are dropped as frames for a ring that is off (R378), descriptors taken are
forgotten. -/
def ringStopped (r : Nat) (s : State) : State :=
  let s := ((ringOf s r).waiting).foldl (fun s _ => ringDrop r s) s
  let x := ringOf s r
  forgetRing r (setRing r { x with waiting := [], reserved := none, finished := [], next := x.cons } s)

/-- An access of a ring's engine refused by the checker (R381). -/
def ringRefused (r : Nat) (s : State) : State := ringStopped r (ringFail r s)

/-- The code that a receive or transmit ring raises (Table 15-13). -/
def ringCode (r : Nat) : Nat := if r < 8 then evRx r else evTx (r - 8)

/-- CONS advanced by n, with the ring's code where IRQ_EN is 1 (R379, R382). -/
def ringAdvance (r n : Nat) (s : State) : State :=
  let x := ringOf s r
  let c := (x.cons + n) % 2 ^ x.size
  let s := setRing r { x with cons := c } s
  if x.irqEn then raise (ringCode r) (leBytes 2 c) s else s

/-- Descriptors completed in ring order: STATUS written, then CONS advanced (R382). A hold of the access checker lets them wait. -/
def txFlush (r : Nat) : Nat → State → State
  | 0, s => s
  | fuel + 1, s =>
    let x := ringOf s r
    if !x.en || holding s || halted s then s
    else match x.finished.find? (fun d => d.1 == x.cons) with
      | none => s
      | some (i, st) =>
        let s := setRing r { x with finished := x.finished.filter (fun d => !(d.1 == i)) } s
        let (c, s) := masterWrite mDma x.colour 3 (x.base + 32 * i + 28) (leBytes 2 st) s
        if c = 0 then txFlush r fuel (ringAdvance r 1 s) else ringRefused r s

/-- A transmit descriptor is done with, with its STATUS; its write-back takes its turn among the accesses that a hold keeps (R272). -/
def txDone (r index status : Nat) (s : State) : State :=
  let x := ringOf s r
  if !x.en then s
  else
    let s := setRing r { x with finished := x.finished ++ [(index, status)] } s
    if holding s then keepWaiting (.descriptors r) s else txFlush r 4096 s

end Sys2Proof.Machine
end

