-- ==== Sys2Proof/Machine/Halt.lean ====
section
/-! DEFINITION. Frames leaving the device without transmission, the halt (R283, R284, R424), the Standpipe log (R341 to R343) and
the destruction line (R166, R123). -/

namespace Sys2Proof.Machine

open Sys2Proof

/-! Channels, clusters and frames -/

def chanOf (s : State) (c : Nat) : Chan := tget {} s.traffic.chans c
def setChan (c : Nat) (x : Chan) (s : State) : State := onTraffic (fun t => { t with chans := tset {} t.chans c x }) s

def clusterOf (s : State) (c : Nat) : Cluster := tget {} s.pmu.clusters c
def setCluster (c : Nat) (x : Cluster) (s : State) : State := onPmu (fun p => { p with clusters := tset {} p.clusters c x }) s

def frameOf (s : State) (fid : Nat) : Option Frame := (s.traffic.frames.find? (fun p => p.1 == fid)).map (·.2)

def putFrame (fid : Nat) (f : Frame) (s : State) : State :=
  onTraffic (fun t => { t with frames := tins t.frames fid f }) s

/-! Requests other than frames (Table 4-2) -/

def reqOf (s : State) (id : Nat) : Option Req := (s.reqs.find? (fun p => p.1 == id)).map (·.2)
def putReq (id : Nat) (r : Req) (s : State) : State := { s with reqs := tins s.reqs id r }

/-- A request takes the next request number. -/
def addReq (r : Req) (s : State) : State :=
  putReq s.traffic.nextFid r (onTraffic (fun t => { t with nextFid := t.nextFid + 1 }) s)

/-- A pipeline without a request: what it ran or held suspended is gone. -/
def Pipe.without (fid : Nat) (p : Pipe) : Pipe :=
  let p := if p.run = some fid then { p with run := none, left := 0 } else p
  if p.susp = some fid then { p with susp := none, suspLeft := 0 } else p

/-- A cluster without a request. -/
def Cluster.without (fid : Nat) (c : Cluster) : Cluster :=
  { c with queue := c.queue.filter (fun f => !(f == fid)), pipes := c.pipes.map (fun p => (p.1, p.2.without fid)) }

/-! Roles -/

/-- The numbers 0 to 33. -/
def allClusters : List Nat := upFrom 0 34

/-- Clusters of a role. -/
def byRole (s : State) (r : Role) : List Nat := allClusters.filter (fun c => (clusterOf s c).role == r)

/-- N, the number of ACTIVE clusters (R178). -/
def nAct (s : State) : Nat := (byRole s .active).length

/-- C computed anew from N, p_adm and the lookaside floor (R178). -/
def recount (s : State) : State :=
  onPmu (fun m => { m with
    capAct := nAct s, capFig := 4 * nAct s * m.pAdm * (1 - (attr s clsDev 0 5 : Rat) / 1000) }) s

/-- A cluster's domain follows its role (Table 12-1). -/
def roleDom : Role → DomState
  | .active => .on | .test => .on | .idle => .ret | .spare => .ret | .retired => .off

/-- A cluster takes a role; a change of N counts at once (R178). -/
def setRole (c : Nat) (r : Role) (s : State) : State :=
  let t := setCluster c { clusterOf s c with role := r } s
  let t := setDom t c { domOf t c with state := roleDom r, toward := roleDom r }
  if nAct t = nAct s then t else recount t

/-- Whether a cluster holds no request. -/
def emptyCluster (s : State) (c : Nat) : Bool :=
  let x := clusterOf s c
  x.queue.isEmpty && x.pipes.all (fun p => p.2.run.isNone && p.2.susp.isNone)

def underTest (s : State) (c : Nat) : Bool := match s.maint.rotating with | some (k, _) => k == c | none => false

/-- Clusters whose replacement is in its known-answer test. -/
def awaits (s : State) (c : Nat) : Bool := s.maint.replacing.any (fun r => r.1 == c)

/-- The cluster under test enters TEST once a spare has become ACTIVE and it is empty (R280). -/
def tryTest (s : State) : State :=
  match s.maint.rotating with
  | none => s
  | some (c, _) =>
    let r := (clusterOf s c).role
    if (r == .active || r == .idle || r == .spare) && !awaits s c && emptyCluster s c then setRole c .test s else s

/-- What follows when a cluster has become empty: the domain of an IDLE one goes to retention (R195), one to be tested enters TEST.
DEDUCED (log 117): a cluster moved to IDLE with requests in it finishes them before its domain sleeps. -/
def emptied (c : Nat) (s : State) : State :=
  if !emptyCluster s c then s
  else
    let d := domOf s c
    let s := if (clusterOf s c).role == .idle && d.state == .on then
        setDom s c { d with state := .ret, toward := .ret, asked := s.time.ticks }
      else s
    tryTest s

/-- A request leaves its cluster. -/
def vacate (c id : Nat) (s : State) : State := emptied c (setCluster c ((clusterOf s c).without id) s)

/-- A request other than a frame's removed, from its cluster too. -/
def dropReq (id : Nat) (s : State) : State :=
  match reqOf s id with
  | none => s
  | some r =>
    let s := { s with reqs := s.reqs.filter (fun p => !(p.1 == id)) }
    match r.cluster with
    | some c => vacate c id s
    | none => s

/-- The work of a lookaside queue with one descriptor replaced. -/
def putWork (n : Nat) (w : LaWork) (s : State) : State :=
  { s with la := tmod {} s.la n (fun q => { q with work := q.work.map (fun x => if x.index = w.index then w else x) }) }

/-- A descriptor ended with a status; its staging granules are zeroed (R129). -/
def LaWork.fail (w : LaWork) (st : Status) : LaWork := { w with status := st, done := true, outp := [] }

/-- A request other than a frame's discarded from the array: a chunk ends its descriptor with INTERNAL (R118), a control message of
a transmit ring completes its descriptor with the reason's code, any other is lost. -/
def loseReq (r : Reason) (id : Nat) (s : State) : State :=
  match reqOf s id with
  | none => s
  | some x =>
    let s := dropReq id s
    match x.kind with
    | .seal _ m => (match m.ring with | some n => txDone n m.index r.code s | none => s)
    | .unseal _ _ _ => s
    | .chunk n _ _ w => putWork n (w.fail .internal) s

/-- Every request other than a frame's that a test admits, discarded from the array. -/
def loseReqs (r : Reason) (p : Req → Bool) (s : State) : State :=
  ((s.reqs.filter (fun x => p x.2)).map (·.1)).foldl (fun s id => loseReq r id s) s

/-- A frame removed: out of its queue and cluster, its reservation ended, its marked granules to quarantine (R255). -/
def removeFrame (fid : Nat) (s : State) : State :=
  match frameOf s fid with
  | none => s
  | some f =>
    let s := onTraffic (fun t => { t with frames := t.frames.filter (fun p => !(p.1 == fid)) }) s
    let s := onMem (fun m => { m with quarantine := m.quarantine ++ f.marked }) s
    let s := match f.stage with
      | .inCluster c => vacate c fid s
      | _ => s
    let waits := match f.stage with | .queued => true | .spilling => true | .spilled => true | .released => true | _ => false
    if waits && f.dir == .enc then
      let x := chanOf s f.chan
      setChan f.chan { x with reserved := x.reserved - 1 } s
    else s

/-- A frame as the Sump counts it. -/
def Frame.lost (f : Frame) (fid : Nat) : Lost :=
  { q := f.ingress, chan := some (f.chan, f.dir), tc := some f.tc, fid := some fid, tr := f.tr, place := f.place, granule := f.chain.head? }

/-- A frame discarded into the Sump with a reason. -/
def discard (r : Reason) (fid : Nat) (s : State) : State :=
  match frameOf s fid with
  | none => s
  | some f => sump r (f.lost fid) (removeFrame fid s)

/-- Every frame that a test admits, discarded with a reason. -/
def discardAll (r : Reason) (p : Frame → Bool) (s : State) : State :=
  ((s.traffic.frames.filter (fun x => p x.2)).map (·.1)).foldl (fun s fid => discard r fid s) s

/-- A frame counted for its channel and reserved PNs forgotten: all frames gone at a halt, a reset or RECOVERY. -/
def clearFrames (s : State) : State :=
  let s := onTraffic (fun t => { t with
    frames := []
    ports := t.ports.map (fun p => (p.1, { p.2 with mgmt := [], launchHeld := false, busyUntil := 0, cuttable := none, stopped := none }))
    chans := t.chans.map (fun p => (p.1, { p.2 with reserved := 0 })) }) s
  let s := onPmu (fun p => { p with clusters := p.clusters.map (fun c => (c.1, { c.2 with queue := [], pipes := [] })) }) s
  { s with
    reqs := []
    wh := s.wh.map (fun w => (w.1, { w.2 with tx := { w.2.tx with segs := [], ready := [] } }))
    rings := s.rings.map (fun r => (r.1, { r.2 with waiting := [] })) }

/-! The Standpipe log -/

/-- The POWER byte of a record (Table 13-2). -/
def powerByte (s : State) : Nat := b01 s.stp.main + 2 * b01 s.stp.aOk + 4 * b01 s.stp.bOk

/-- A record with the next SEQ; the ring keeps the last 128 (R341). The RTC_SUB field carries OSC in bit 15. -/
def stpRecord (source kind detail : Nat) (s : State) : State :=
  let r : LogRec := {
    seq := s.stp.nextSeq, rtcSec := s.stp.rtcSec, rtcSub := s.stp.rtcSub + 0x8000 * b01 s.stp.osc,
    source := source, kind := kind, power := powerByte s,
    ntSec := if s.stp.main then s.time.now.sec else 0, ntNs := if s.stp.main then s.time.now.ns else 0, detail := detail }
  onStp (fun p =>
    let l := p.log ++ [r]
    { p with log := l.drop (l.length - 128), nextSeq := (p.nextSeq + 1) % 2 ^ 32 }) s

def kindAssert : Nat := 0x01
def kindClear : Nat := 0x02
def kindZeroized : Nat := 0x10
def kindMainLost : Nat := 0x20
def kindMainBack : Nat := 0x21
def kindBackupLoss : Nat := 0x30
def kindTimeLink : Nat := 0x31
def kindConfig : Nat := 0x32
def kindSuppressed : Nat := 0x33
def kindLifecycle : Nat := 0x34

/-! The mated link -/

/-- A message sent on the mated link while it is KEYED: one sealed control message (R285). -/
def mate (type : Nat) (body : Bytes) (s : State) : State :=
  if !s.pair.linkUp then s
  else
    let m := leBytes 1 type ++ body
    emit (.mate m) (addReq { kind := .seal 48 { data := m } } s)

/-- HALTING with a cause (Table 10-7). -/
def mateHalting (cause : Nat) (s : State) : State := mate 0x12 (beBytes 1 cause) s

/-! The halt -/

/-- Frames in transmission end with an inverted FCS (Table 10-5). -/
def cutFrames (s : State) : State :=
  (s.traffic.ports.filter (fun p => decide (s.time.ticks < p.2.busyUntil))).foldl (fun s p => emit (.cut p.1) s) s

/-- A halt cause is detected. The first cause halts the device (R284); of causes detected in one tick the lowest code is
recorded (R424); later causes are not recorded. -/
def halt (cause : Nat) (s : State) : State :=
  if asleep s then s
  else if halted s then
    if s.glb.haltTick = s.time.ticks ∧ cause < s.glb.haltCause then onGlb (fun g => { g with haltCause := cause }) s else s
  else
    let s := onGlb (fun g => { g with
      haltCause := cause, haltTick := s.time.ticks, haltNs := s.time.now.ns, haltSec := s.time.now.sec }) s
    let s := setCause evHalt s
    let s := clearFrames (cutFrames s)
    let s := { s with wh := s.wh.map (fun w =>
      (w.1, if w.1 < 48 then { w.2 with tx := { w.2.tx with running := false } } else w.2)) }
    let s := onTime (fun t => { t with ppsOut := false }) s
    mateHalting cause (emit .idle s)

/-! The destruction line -/

/-- Requests discarded from the array when the line is driven (R123). -/
def inArray (f : Frame) : Bool := match f.stage with | .inCluster _ => true | _ => false

/-- The destruction line is driven by a source of Table 15-13 (0 ZEROIZE_N, 1 KEY.ZEROIZE, 2 change to DEBUG): every key, the
Standpipe banks and the cluster registers are cleared (R166, R123, Table 5-10). A line driven again keeps its first source. DESIGN
CHOICE (log 106): a lookaside descriptor in progress, whose status the spec does not name here, ends with INTERNAL. -/
def destroy (source : Nat) (s : State) : State :=
  let s := loseReqs .zeroize (fun r => r.cluster.isSome) (discardAll .zeroize inArray s)
  let s := onPmu (fun p => { p with clusters := p.clusters.map (fun c => (c.1, { c.2 with queue := [], pipes := [] })) }) s
  let s := onStp (fun p => { p with bankA := none, bankB := none, bankSelB := false }) s
  let wipe (q : LaQ) : LaQ := { q with work := q.work.map (fun w => w.fail .internal) }
  let noKeys (w : Wh) : Wh :=
    { w with tx := { w.tx with salt0 := {}, salt1 := {}, next := false }, rx := { w.rx with salt0 := {}, salt1 := {}, next := false } }
  let s := { s with la := s.la.map (fun q => (q.1, wipe q.2)), wh := s.wh.map (fun w => (w.1, noKeys w.2)) }
  let s := onPair (fun p => { p with exch := {} }) s
  onKeys (fun k => { k with
    kslot := [], gslot := [], ime := [], internal := [], drk := none,
    line := match k.line with | none => some source | some o => some o }) s

end Sys2Proof.Machine
end

