-- ==== Sys2Proof/Machine/Errors.lean ====
section
/-! DEFINITION. Errors of the memories (Table 9-5): Reservoir errors (R267), parity of the Cistern (R255, R257) and of SA state (R266), and
the quarantine (R256). -/

namespace Sys2Proof.Machine

open Sys2Proof

/-! The Reservoir -/

def sat16 (n : Nat) : Nat := min 0xFFFF n

/-- A corrected error of a stack: counted in IME_CE_COUNT and a RECORD fault. -/
def correctable (stack : Nat) (s : State) : State :=
  logFault 0 4 stack (countFault 36 (onMem (fun m =>
    if stack = 0 then { m with ce0 := sat16 (m.ce0 + 1) } else { m with ce1 := sat16 (m.ce1 + 1) }) s))

/-- The inline-memory key lines that a step from one state to another has used. -/
def newlyUsed (s r : State) : List Nat := r.mem.used.take (r.mem.used.length - s.mem.used.length)

/-- A step whose Reservoir accesses meet what the checks report: a bad line of a key that it uses (R165), parity of IME state (R266) and an
uncorrectable error (R267) halt the device before anything is done; a corrected error is recorded. A step that does not reach the
Reservoir meets nothing. -/
def withEcc (e : Ecc) (step : State → State) (s : State) : State :=
  let r := step s
  let l := newlyUsed s r
  if l.isEmpty then r
  else if !l.all (fun n => lineOk (tget {} s.keys.ime n) || tget {} s.keys.ime n == {}) then halt haltKeyState s
  else match e with
    | .ok => r
    | .corrected k => step (correctable k s)
    | .uncorrectable => halt haltReservoir s
    | .imeState => halt haltSaState s

/-! The Cistern -/

/-- The granules of a chain that a read finds in error. -/
def granulesBad (e : Errs) (chain : List Nat) : List Nat := ((indexed 0 chain).filter (fun x => e.data.contains x.1)).map (·.2)

/-- A RECORD fault for data parity, naming the first granule. -/
def parityFault (bad : List Nat) (s : State) : State := logFault 0 3 (bad.headD 0) (countFault 35 s)

/-- Data parity in a frame: every granule in error is marked, for quarantine as the frame's granules are freed (R255). -/
def granuleError (fid : Nat) (bad : List Nat) (s : State) : State :=
  let s := parityFault bad s
  match frameOf s fid with
  | none => s
  | some f => putFrame fid { f with marked := f.marked ++ bad } s

/-- Data parity in granules that are freed at once. -/
def looseError (bad : List Nat) (s : State) : State :=
  onMem (fun m => { m with quarantine := m.quarantine ++ bad }) (parityFault bad s)

/-- Permanent quarantine that reaches dev[0].quarantine_max is a DEGRADE fault (R256), once until a reset clears the Cistern. -/
def quarantineLimit (s : State) : State :=
  if attr s clsDev 0 9 ≤ s.mem.heldGranules.length ∧ s.maint.degrade.getLsbD 1 = false then degrade 11 s.mem.heldGranules.length 2 s else s

end Sys2Proof.Machine
end

