-- ==== Sys2Proof/Machine/KeyStore.lean ====
section
/-! DEFINITION. The key store's operations (chapter 5): slots, installs, the attribute checks, derived keys, persisted records. -/

namespace Sys2Proof.Machine

open Sys2Proof

def kslotOf (s : State) (n : Nat) : Slot := tget {} s.keys.kslot n
def gslotOf (s : State) (g : Nat) : Slot := tget {} s.keys.gslot g
def putK (n : Nat) (x : Slot) (s : State) : State := onKeys (fun k => { k with kslot := tset {} k.kslot n x }) s
def putG (g : Nat) (x : Slot) (s : State) : State := onKeys (fun k => { k with gslot := tset {} k.gslot g x }) s

/-- The octets of a slot's key that its KTYPE uses (R138). -/
def slotOctets (x : Slot) : NatList := (keyOctets (lineKey x.line)).take (ktypeBytes (attrKtype x.attr))

/-- A slot line: the key, and H = E(K, 0^128) computed at the install (R138). -/
def slotLine (ktype : Nat) (key : Key) (mask : BitVec 512) : Line :=
  let h := hashSubkey (aesRounds ((keyOctets key).take (ktypeBytes ktype)))
  mkLine (BitVec.ofNat 512 (key.toNat * 2 ^ 256 + h * 2 ^ 128)) mask

/-- A line holding a 256-bit value and no hash subkey. -/
def plainLine (v : Key) (mask : BitVec 512) : Line := mkLine (BitVec.ofNat 512 (v.toNat * 2 ^ 256)) mask

/-! The device root and what derives from it (R142, R143) -/

/-- The test root of DEBUG: bytes 0x00 to 0x1F (R142). -/
def testRoot : NatList := upFrom 0 32

/-- The root in use: the test root in DEBUG, none in RETIRED, otherwise the working copy of the DRK. -/
def rootOctets (s : State) : Option NatList :=
  match s.glb.lifecycle with
  | .debug => some testRoot
  | .retired => none
  | _ => s.keys.drk.map (fun l => keyOctets (lineKey l))

/-- Whether a read of the root finds no error: the working copy passes its CRC check (R165). -/
def rootGood (s : State) : Bool :=
  match s.glb.lifecycle with
  | .debug => true
  | .retired => true
  | _ => s.keys.drk.all lineOk

/-- l bits derived from the root under a label (Table 5-3); with no root the value is open (log 12). -/
def rootKdf (s : State) (label : String) (context : NatList) (l : Nat) : NatList :=
  match rootOctets s with
  | some r => kdf r (octets (ascii label)) context l
  | none => beOct (l / 8) (Config.free l l).toNat

/-- XDRK-CHECK of a root. -/
def drkCheck (drk : Key) : W64 := BitVec.ofNat 64 (natBe (kdf (keyOctets drk) (octets (ascii "XDRK-CHECK")) [] 64))

/-- dev[0].device_id. -/
def deviceId (s : State) : Nat := natBe (rootKdf s "XDEV-ID" [] 64)

/-- Seeds d ‖ z of the import decapsulation key. -/
def importSeed (s : State) : BitVec 512 := BitVec.ofNat 512 (natBe (rootKdf s "XIMP-KEM" [] 512))

/-- The import ECDH scalar. -/
def importScalar (s : State) : Nat := natBe (rootKdf s "XIMP-EC" [] 448) % (p384N - 1) + 1

/-- The key-wrap key of persisted slots, derived at a start. -/
def persistKey (s : State) : Key := keyOf (rootKdf s "XPERSIST" [] 256)

/-- The context-wrap key (R131, R144), derived at a start. -/
def ctxWrapKey (s : State) : Key := keyOf (rootKdf s "XCTX-WRAP" (beOct 8 s.keys.bootNonce.toNat) 256)

/-- The import encapsulation key, 1,184 bytes. -/
def importEk (s : State) : Bytes := ofOctets (kemEk (beOct 64 (importSeed s).toNat))

/-- The import P-384 public key, 97 bytes. -/
def importPoint (s : State) : Bytes := ofOctets (pointOctets (ecMul (importScalar s) (some (p384Gx, p384Gy))))

/-- The item of KEY.IDENTITY, 1,289 bytes (R431). -/
def identityItem (s : State) : Bytes := importEk s ++ importPoint s ++ beBytes 8 (deviceId s)

/-! Slot enable bits (R154) -/

/-- Steps 1 to 6 of R152 for the data path: INTERNAL, CP, the present lifecycle and mode. -/
def enableBit (s : State) (x : Slot) : Bool :=
  x.state == .valid && attrUsage x.attr useEnc && attrUsage x.attr useDec && attrWorld x.attr .internal && attrMaster x.attr mCp
  && attrLc x.attr s.glb.lifecycle && attrMode x.attr s.glb.mode

/-- The enable bits of all channel slots recomputed, before a new mode or lifecycle takes effect. -/
def recompute (s : State) : State :=
  onKeys (fun k => { k with kslot := k.kslot.map (fun p => (p.1, { p.2 with enabled := enableBit s p.2 })) }) s

/-- The destruction line is driven: whatever key would be made or re-shared in the same instant, the line wins (R168). -/
def lineDriven (s : State) : Bool := s.keys.line.isSome

/-! Internal keys by handle (R137) -/

/-- The line of an internal key as read; a CRC error halts (R165). -/
def readInternal (h : Nat) (s : State) : Option NatList × State :=
  let l := tget {} s.keys.internal h
  if lineOk l || l == {} then (some (keyOctets (lineKey l)), s) else (none, halt haltKeyState s)

def handleCtx : Nat := 0
def handlePersist : Nat := 1
def handlePairWrap : Nat := 2
def handlePairLink : Nat := 3
def handleIck (ca : Nat) : Nat := 16 + 2 * ca
def handleKek (ca : Nat) : Nat := 17 + 2 * ca
/-- The first handle of the link keys. -/
def linkBase : Nat := 16 + 2 * 4096

def holdInternal (h : Nat) (l : Line) (s : State) : State :=
  if lineDriven s then s else onKeys (fun k => { k with internal := tset {} k.internal h l }) s

/-- An internal key held under a handle. -/
def putInternal (h : Nat) (v : Key) (s : State) : State :=
  let (m, s) := draw 512 s
  holdInternal h (plainLine v m) s

/-- An internal AES-256 key held with its hash subkey, for fetches over the key bus (R107). -/
def putKeyed (h : Nat) (v : Key) (s : State) : State :=
  let (m, s) := draw 512 s
  holdInternal h (slotLine 2 v m) s

def dropInternal (h : Nat) (s : State) : State := onKeys (fun k => { k with internal := tset {} k.internal h {} }) s

/-! Installs (R147) -/

/-- The SA of a channel slot starts anew: PN 1, nothing received, no threshold raised (R44, R45, R46), no watermark and no
jump (R297). -/
def freshSa (n : Nat) (s : State) : State :=
  onPair (fun p => { p with
    markSent := tset 0 p.markSent n 0
    markAcked := tset 0 p.markAcked n 0
    markGot := tset 0 p.markGot n 0
    starts := tset 0 p.starts n 0
    batches := p.batches.map (fun b => (b.1, b.2.filter (fun m => !(m.1 == n)))) }) <|
  onTraffic (fun t => { t with
    pns := tset 1 t.pns n 1
    replay := tset {} t.replay n {}
    threshRaised := t.threshRaised.filter (fun x => !(x == n)) }) s

/-- A key committed into a channel slot with the fixed word of R150. DESIGN CHOICE (log 115): the slot keeps the KTYPE of the suite at
its install, also where CHAN.SET then changes the record's suite in CONFIG. -/
def installK (n suite origin : Nat) (key : Key) (salt : Salt) (s : State) : State :=
  if lineDriven s then s else
  let (m, s) := draw 512 s
  let word := chanWord suite origin
  let x : Slot := { state := .valid, attr := word, salt := salt, line := slotLine (attrKtype word) key m, fresh := true }
  let s := putK n { x with enabled := enableBit s x } (freshSa n s)
  let c := chanOf s (n / 2)
  setChan (n / 2) (if c.phase == decide (n % 2 = 1) then c else { c with superseded := false }) s

/-- A channel slot destroyed: EMPTY, its line, salt and word zeroed, its replay state cleared. -/
def destroyK (n : Nat) (s : State) : State := putK n {} (freshSa n s)

/-- The ICK and KEK of a CA derived from a CAK into tied lines (R146); PRESUMED (log 11): IEEE 802.1X-2020, 6.2. -/
def tieKeys (ca size : Nat) (cak : NatList) (s : State) : State :=
  let ckn := octets (leBytes 16 (attr s clsCa ca 3 / 256))
  let key (label : String) : Key := keyOf (kdfMka cak (octets (ascii label)) ckn (8 * size))
  putInternal (handleKek ca) (key "IEEE8021 KEK") (putInternal (handleIck ca) (key "IEEE8021 ICK")
    { s with cas := tmod {} s.cas ca (fun x => { x with kekBytes := size }) })

/-- The tied lines of a CA destroyed. -/
def untieCa (ca : Nat) (s : State) : State := dropInternal (handleKek ca) (dropInternal (handleIck ca) s)

/-- The CAs that name a CAK slot. -/
def casOf (s : State) (g : Nat) : List Nat :=
  (s.cas.filter (fun p => p.2.exist && attr s clsCa p.1 2 == g)).map (·.1)

/-- Whether the expiry time of a slot has passed (R153). -/
def expired (s : State) (x : Slot) : Bool := x.expires != 0 && decide (x.expires ≤ s.time.now.sec)

/-- A key that MKA may derive from: a VALID CAK with USAGE DERIVE (R152 as a DERIVE use by INTERNAL and CP). -/
def cakUsable (s : State) (g : Nat) : Bool :=
  let x := gslotOf s g
  x.state == .valid && attrUsage x.attr useDerive && attrWorld x.attr .internal && attrMaster x.attr mCp
  && attrLc x.attr s.glb.lifecycle && attrMode x.attr s.glb.mode && !expired s x

/-- The line of a general slot as the key store reads it, and the keys tied to it: a CRC error zeroes the slot, makes it INVALID and
is a RECORD fault (R165). -/
def readG (g : Nat) (s : State) : Option NatList × State :=
  let x := gslotOf s g
  if lineOk x.line then (some (slotOctets x), s)
  else (none, (casOf s g).foldl (fun s ca => untieCa ca s)
    (logFault 0 2 g (countFault 34 (putG g { commits := x.commits, state := .invalid } s))))

/-- The ICK and KEK of a CA derived from its CAK slot, which is read for it; a slot past its expiry becomes EXPIRED (R152 step 7). -/
def tieCa (ca g : Nat) (s : State) : State :=
  let x := gslotOf s g
  if x.state == .valid && expired s x then putG g { x with state := .expired } s
  else if !cakUsable s g then s
  else match readG g s with
    | (none, s) => s
    | (some cak, s) => tieKeys ca (ktypeBytes (attrKtype x.attr)) cak s

/-- The tied lines of every CA naming a slot follow its commit. -/
def retie (g : Nat) (s : State) : State := (casOf s g).foldl (fun s ca => tieCa ca g (untieCa ca s)) s

/-- The CAs without tied lines tried again, once a new mode holds. DESIGN CHOICE (log 11): R146 does not say when a CAK whose masks
refused the derivation at its commit is tried again. -/
def tieAll (s : State) : State :=
  ((s.cas.filter (fun p => p.2.exist)).map (·.1)).foldl (fun s ca =>
    if tget {} s.keys.internal (handleKek ca) = {} then tieCa ca (attr s clsCa ca 2) s else s) s

/-- A key committed into a general slot; the install count increases by one (R147, R159), the salt is zero and no expiry is
set. -/
def installG (g : Nat) (word : W64) (key : Key) (s : State) : State :=
  if lineDriven s then s else
  let (m, s) := draw 512 s
  let old := gslotOf s g
  retie g (putG g { state := .valid, attr := word, line := slotLine (attrKtype word) key m, commits := old.commits + 1 } s)

/-- A general slot made EMPTY, its install count kept. -/
def destroyG (g : Nat) (s : State) : State :=
  retie g (putG g { commits := (gslotOf s g).commits } s)

/-- gslot[g].install_count: drawn at the last redraw, plus the commits since (R159). -/
def installCount (s : State) (g : Nat) : Nat :=
  ((Config.drbg (s.keys.installBase + g) 32).toNat + (gslotOf s g).commits) % 2 ^ 32

/-- Every install count drawn anew (R159). -/
def redrawCounts (s : State) : State :=
  { s with rng := s.rng + 1024, keys := { s.keys with
      installBase := s.rng
      gslot := s.keys.gslot.map (fun p => (p.1, { p.2 with commits := 0 })) } }

/-! Use of a general slot (R152, R153) -/

/-- One use charged; reaching 0 makes the slot SPENT and raises EV_KEY_SPENT. -/
def chargeUse (g : Nat) (s : State) : State :=
  let x := gslotOf s g
  if attrUseLimit x.attr then
    let u := attrUsesLeft x.attr - 1
    let y := { x with attr := withUses x.attr u }
    if u = 0 then raise evKeySpent (leBytes 1 1 ++ leBytes 2 g) (putG g { y with state := .spent } s) else putG g y s
  else s

/-- Steps 3 to 6 of R152 for a world and a master. -/
def maskChecks (s : State) (x : Slot) (w : World) (master : Nat) : Option Status :=
  if !attrWorld x.attr w then some .keyAttr
  else if !attrMaster x.attr master then some .keyAttr
  else if !attrLc x.attr s.glb.lifecycle then some .keyAttr
  else if !attrMode x.attr s.glb.mode then some .keyAttr
  else none

/-- Steps 1 to 6 of R152 for a use by a world and a master. -/
def useMasks (s : State) (x : Slot) (use : Nat) (w : World) (master : Nat) : Option Status :=
  match x.state.refusal with
  | some st => some st
  | none => if !attrUsage x.attr use then some .keyAttr else maskChecks s x w master

/-- The checks of R152 in order: none where the use passes, charged where charge says so. -/
def useG (g use : Nat) (w : World) (master : Nat) (charge : Bool) (s : State) : Option Status × State :=
  let x := gslotOf s g
  match useMasks s x use w master with
  | some st => (some st, s)
  | none =>
    if expired s x then (some .keyExpired, putG g { x with state := .expired } s)
    else if charge && attrUseLimit x.attr && attrUsesLeft x.attr == 0 then (some .keySpent, s)
    else (none, if charge then chargeUse g s else s)

/-! Inline-memory keys (R145) -/

/-- Generation g of index k destroyed and generated afresh. -/
def newImeKey (k : Nat) (g : Bool) (s : State) : State :=
  let n := 2 * k + b01 g
  let (v, s) := draw 512 s
  let (m, s) := draw 512 s
  if lineDriven s then s
  else onKeys (fun x => { x with ime := tset {} x.ime n (mkLine v m) }) s

/-- Both generations of every index 1 to 63 generated. -/
def newImeKeys (s : State) : State :=
  (upFrom 1 63).foldl (fun s k => newImeKey k true (newImeKey k false s)) s

/-! Persist area (R160) -/

/-- The 64 octets of a record's plaintext (Table 5-12). -/
def PersistCopy.plain (c : PersistCopy) : NatList :=
  keyOctets c.key ++ octets (leBytes 8 c.attr.toNat ++ zeros 12 ++ leBytes 2 c.slot ++ zeros 2 ++ leBytes 4 c.seq ++ zeros 4)

/-- What a copy unwraps to; none where it is erased or does not unwrap. -/
def unwrapCopy (kek : NatList) (c : Bytes) : Option PersistCopy :=
  if allZero c then none
  else (kwUnwrap kek (octets c)).map (fun o =>
    let b := ofOctets o
    { key := keyOf (o.take 32), attr := BitVec.ofNat 64 (leAt b 32 8), slot := leAt b 52 2, seq := leAt b 56 4 })

/-- The newer valid copy of a record, and whether it is copy b: the one with the higher sequence number. -/
def PersistRec.newer (kek : NatList) (r : PersistRec) : Option (PersistCopy × Bool) :=
  match unwrapCopy kek r.a, unwrapCopy kek r.b with
  | some a, some b => if b.seq > a.seq then some (b, true) else some (a, false)
  | some a, none => some (a, false)
  | none, some b => some (b, true)
  | none, none => none

/-- The record that holds a slot. -/
def persistIx (kek : NatList) (s : State) (g : Nat) : Option Nat :=
  (s.nvm.persist.find? (fun p => (p.2.newer kek).any (fun c => c.1.slot == g))).map (·.1)

/-- A record not in use. -/
def freeIx (s : State) : Option Nat := (upFrom 0 32).find? (fun i => tget {} s.nvm.persist i == {})

/-- Both copies of a slot's record overwritten with zeros. -/
def erasePersist (g : Nat) (s : State) : State :=
  match readInternal handlePersist s with
  | (none, s) => s
  | (some kek, s) => match persistIx kek s g with
    | none => s
    | some i => onNvm (fun n => { n with persist := tset {} n.persist i {} }) s

/-- A copy written over the older copy of the slot's record, or into a free record; false where 32 records are in use. -/
def writePersist (g : Nat) (word : W64) (key : Key) (s : State) : Bool × State :=
  match readInternal handlePersist s with
  | (none, s) => (false, s)
  | (some kek, s) => match (persistIx kek s g).orElse (fun _ => freeIx s) with
    | none => (false, s)
    | some i =>
      let r := tget {} s.nvm.persist i
      let newer := r.newer kek
      let seq := newer.elim 0 (fun c => (c.1.seq + 1) % 2 ^ 32)
      let c : PersistCopy := { slot := g, attr := word, key := key, seq := seq }
      let w := ofOctets (kwWrap kek c.plain)
      let r' : PersistRec := match newer with | some (_, false) => { r with b := w } | _ => { r with a := w }
      (true, onNvm (fun n => { n with persist := tset {} n.persist i r' }) s)

/-- A general slot installed with what R160 asks of its persist record; BUSY where the area is full. -/
def installPersisted (g : Nat) (word : W64) (key : Key) (s : State) : Option Status × State :=
  if attrPersist word then
    let (okw, s) := writePersist g word key s
    if okw then (none, installG g word key s) else (some .busy, s)
  else (none, installG g word key (erasePersist g s))

/-- R156 and R23 for an install into a channel slot or its destruction: the next slot of an ACTIVE or FROZEN channel, either slot
in CONFIG, none of a FREE channel. -/
def chanSlotRefused (s : State) (n : Nat) : Bool :=
  let c := chanOf s (n / 2)
  match c.state with
  | .free => true
  | .config => false
  | _ => c.phase == decide (n % 2 = 1)

/-- A key command returns LIFECYCLE in RETIRED (R308), and INTERNAL where a known-answer test failed at boot (Table 11-12). -/
def keyGate (s : State) : Option Status :=
  if s.glb.lifecycle = .retired then some .lifecycle
  else if s.keys.katFailed then some .internal
  else none

end Sys2Proof.Machine
end

