-- ==== Sys2Proof/Machine/Channels.lean ====
section
/-! DEFINITION. Ports and channels: rates, overheads, effective PN limits (R81), the PN threshold and limit (R46, R47), rekey requests,
and the destruction of a channel's SAs (R22). Ports are numbered q as in R203. -/

namespace Sys2Proof.Machine

open Sys2Proof

/-! Ports -/

/-- The class and instance of port q. -/
def pcls (q : Nat) : Nat := if q < 48 then clsHport else clsLport
def pattr (s : State) (q a : Nat) : Nat := attr s (pcls q) (q % 48) a
def setPattr (s : State) (q a v : Nat) : State := setAttr s (pcls q) (q % 48) a v

def portOf (s : State) (q : Nat) : PortSt := tget {} s.traffic.ports q
def setPort (q : Nat) (x : PortSt) (s : State) : State := onTraffic (fun t => { t with ports := tset {} t.ports q x }) s

/-- Whether q is a sealed line port. -/
def sealedQ (s : State) (q : Nat) : Bool := decide (48 ≤ q) && attr s clsLport (q % 48) 0x20 == 1

/-- Administratively up. -/
def adminUp (s : State) (q : Nat) : Bool := pattr s q 1 == 1

/-- The port rate in Gb/s. -/
def speedGb (s : State) (q : Nat) : Nat := 100 * 2 ^ pattr s q 2

/-- The modes in which ports carry anything (R306). -/
def portsRun (s : State) : Bool := s.glb.mode == .provision || s.glb.mode == .service || s.glb.mode == .maintenance

/-- The power domain of a port's MAC group (Table 12-1): PD_MH0–5 are 58–63, PD_ML0–5 64–69. -/
def portDom (q : Nat) : Nat := if q < 48 then 58 + q / 8 else 64 + (q - 48) / 8

/-- The SerDes group of a port (R404). -/
def portSg (q : Nat) : Nat := if q < 48 then q / 6 else 8 + (q - 48) / 6

/-- Whether the domains of a port are ON: its MAC group's and its SerDes group's. -/
def portPowered (s : State) (q : Nat) : Bool := domOn s (portDom q) && domOn s (42 + portSg q)

/-! Channels -/

/-- chan[c] attribute. -/
def cattr (s : State) (c a : Nat) : Nat := attr s clsChan c a

/-- The egress and ingress ports of a channel's direction. -/
def egressQ (s : State) (c : Nat) : Dir → Nat
  | .enc => 48 + cattr s c 3
  | .dec => cattr s c 2
def ingressQ (s : State) (c : Nat) (d : Dir) : Nat := egressQ s c (match d with | .enc => .dec | .dec => .enc)

/-- The record that a frame admitted now is processed under (R24). -/
def recordOf (s : State) (c : Nat) : FrameRec :=
  { protect := cattr s c 6, confOffset := cattr s c 7, txSci := cattr s c 0x0B, ssciTx := cattr s c 0x0D, ssciRx := cattr s c 0x0E
    an0 := cattr s c 0x10, an1 := cattr s c 0x11 }

/-- The AN that a record gives a channel slot. -/
def FrameRec.an (r : FrameRec) (slot : Nat) : Nat := if slot % 2 = 0 then r.an0 else r.an1

/-- Clear tags of a line frame under a tic_mode: where they end, S-VID, C-VID, and the S-tag's DEI bit. -/
def clearTags (tic : Nat) (b : Bytes) : Nat × Option Nat × Option Nat × Bool :=
  if tic = 0 ∨ beAt b 12 2 ≠ 0x88A8 then (12, none, none, false)
  else
    let v := some (beAt b 14 2 % 4096)
    let dei := bit (beAt b 14 2) 12
    if tic = 2 ∧ beAt b 16 2 = 0x8100 then (20, v, some (beAt b 18 2 % 4096), dei) else (16, v, none, dei)

/-- Whether clear tags select the SecY of a channel (R31). -/
def tagsSelect (s : State) (c : Nat) (sv cv : Option Nat) : Bool :=
  cattr s c 8 == 0 || (sv == some (cattr s c 9) && (cattr s c 8 == 1 || cv == some (cattr s c 0x0A)))

/-- Current slot of a channel (R20). -/
def curSlot (s : State) (c : Nat) : Nat := 2 * c + b01 (chanOf s c).phase
def nextSlot (s : State) (c : Nat) : Nat := 2 * c + 1 - b01 (chanOf s c).phase

/-- A channel whose record counts in the configuration checks: ACTIVE, FROZEN, or CONFIG with its enable pending. -/
def Chan.enabled (x : Chan) : Bool := x.state == .active || x.state == .frozen || x.pendingEnable

/-- The numbers of the enabled channels. -/
def enabledChans (s : State) : List Nat := (s.traffic.chans.filter (fun p => p.2.enabled)).map (·.1)

/-- The effective PN limit and threshold of a channel (R81). -/
def effLimit (s : State) (c : Nat) : Nat :=
  if sealedQ s (48 + cattr s c 3) then min (cattr s c 0x13) (2 ^ 62 - 2 ^ 32) else cattr s c 0x13
def effThresh (s : State) (c : Nat) : Nat :=
  if sealedQ s (48 + cattr s c 3) then min (cattr s c 0x12) (2 ^ 61) else cattr s c 0x12

/-- The next PN under a channel slot: chan[n].tx_pn of the current slot. -/
def pnOf (s : State) (n : Nat) : Nat := tget 1 s.traffic.pns n
def setPn (n pn : Nat) (s : State) : State := onTraffic (fun t => { t with pns := tset 1 t.pns n pn }) s

/-! Connectivity associations -/

def caOf (s : State) (n : Nat) : Ca := tget {} s.cas n
def setCa (n : Nat) (x : Ca) (s : State) : State := { s with cas := tset {} s.cas n x }

/-- The channel a CA is bound to; its value while none is. -/
def caChan (s : State) (ca : Nat) : Nat := attr s clsCa ca 1

/-- Key server election (R56): the lowest priority wins, a tie goes to the lowest SCI; 255 declines. -/
def keyServer (s : State) (ca : Nat) : Bool :=
  let p := attr s clsCa ca 4
  let sci := cattr s (caChan s ca) 0x0B
  (caOf s ca).exist && p != 255
    && (caOf s ca).peers.all (fun x => decide (p < x.priority) || (p == x.priority && decide (sci ≤ x.sci)))

/-- A trigger of a rekey of a CA of which this device is key server, that may start from a tick on (R60, R61). It is merged into a
rekey of its own in progress; one that a former key server began is abandoned for it. -/
def rekeyFrom (tick ca : Nat) (s : State) : State :=
  let x := caOf s ca
  if x.exist && !x.stopped && keyServer s ca && !(x.active && x.ours) then
    setCa ca { x with due := true, active := false, dueFrom := if x.due then min x.dueFrom tick else tick } s
  else s

/-- A trigger of a rekey at once. -/
def rekeyDue (ca : Nat) (s : State) : State := rekeyFrom s.time.ticks ca s

/-- The rekey that a channel's PN threshold or limit requests: of its CA, with keying = MKA (R46). -/
def requestRekey (c : Nat) (s : State) : State :=
  if cattr s c 0x17 = 0 ∧ (chanOf s c).ca ≠ 0xFFFF then rekeyDue (chanOf s c).ca s else s

/-- EV_PN_THRESH and EV_PN_LIMIT carry the channel and the kslot number. -/
def pnData (c n : Nat) : Bytes := leBytes 2 c ++ leBytes 2 n

/-- EV_PN_THRESH once per SA, with the rekey request (R46, R394). -/
def pnThresh (c n : Nat) (s : State) : State :=
  if s.traffic.threshRaised.contains n then s
  else requestRekey c (raise evPnThresh (pnData c n) (onTraffic (fun t => { t with threshRaised := t.threshRaised ++ [n] }) s))

/-- A channel that reaches its PN limit enters FROZEN and raises EV_PN_LIMIT (R47). -/
def freeze (c : Nat) (s : State) : State :=
  let x := chanOf s c
  if x.state = .active then raise evPnLimit (pnData c (curSlot s c)) (setChan c { x with state := .frozen } s) else s

/-- The comparisons of R394 after a change of limits. -/
def limitsChanged (c : Nat) (s : State) : State :=
  let x := chanOf s c
  if x.state = .active ∨ x.state = .frozen then
    let pn := pnOf s (curSlot s c)
    let s := if effThresh s c ≤ pn then pnThresh c (curSlot s c) s else s
    if effLimit s c ≤ pn + x.reserved then freeze c s else s
  else s

/-- A channel freed: both slots destroyed, replay state cleared, its CA stopped (R22, R23); its record reads at its defaults
(R24). -/
def freeChan (c : Nat) (s : State) : State :=
  let ca := (chanOf s c).ca
  let s := destroyK (2 * c + 1) (destroyK (2 * c) s)
  let s := if ca = 0xFFFF then s else
    setCa ca { caOf s ca with stopped := true, secured := false, due := false, active := false, peers := [], potential := [] } s
  setChan c {} { s with objs := dropInst s.objs clsChan c }

/-- Whether any frame of a channel is in the device. -/
def hasFrames (s : State) (c : Nat) : Bool :=
  s.traffic.frames.any (fun p => p.2.chan == c) || s.wh.any (fun w => w.2.tx.segs.any (fun g => g.chan == c))

/-- Whether a frame is released and not yet transmitted. -/
def isReleased (f : Frame) : Bool :=
  match f.stage with | .released => true | .inCluster _ => true | .complete => true | _ => false

/-- Whether a frame is out of the reorder stage: complete, and no frame of its channel and direction released before it is left. -/
def ordered (s : State) (f : Frame) : Bool :=
  f.stage == .complete && !s.traffic.frames.any (fun p => p.2.chan == f.chan && p.2.dir == f.dir && isReleased p.2
    && decide (p.2.released < f.released))

/-- Whether an express frame waits to be sent on port q. -/
def expressWaits (s : State) (q : Nat) : Bool :=
  s.traffic.frames.any (fun p => p.2.egress == q && p.2.tc == 7 && !p.2.shadow && ordered s p.2)

/-! Clusters -/

/-- The capacity figure C in M slots/s, as last computed (R178). -/
def capacity (s : State) : Rat := s.pmu.capFig

/-- Slots that have entered a pipeline since a tick, at p_disp (R106). -/
def slotsSince (s : State) (since : Nat) : Nat := (s.time.ticks - since) * s.pmu.pDisp / 1000

/-- Slots of the running request still to enter. -/
def pipeLeft (s : State) (p : Pipe) : Nat := p.left - slotsSince s p.since

/-- p_disp takes a value; what has entered so far counts at the pace it had. -/
def setPDisp (p : Nat) (s : State) : State :=
  let now := s.time.ticks
  let fix (x : Pipe) : Pipe := { x with left := pipeLeft s x, since := now }
  onPmu (fun m => { m with
    pDisp := p
    clusters := m.clusters.map (fun c => (c.1, { c.2 with pipes := c.2.pipes.map (fun x => (x.1, fix x.2)) })) }) s

/-- A cluster's power domain is its number. -/
def powered (s : State) (c : Nat) : Bool := domOn s c

end Sys2Proof.Machine
end

