-- ==== Sys2Proof/Machine/Bounds.lean ====
section
/-! DEFINITION. The bounds of chapter 6 and the quantities they take from scheduling (chapter 7): egress rates and overheads, gate
figures, the deadlines of R182 to R185, the configuration checks of R186 to R187 with R204, R223 and R253, and the projection of
R190. Rates are in Gb/s (bits per ns), times in ns, sizes in bytes. -/

namespace Sys2Proof.Machine

open Sys2Proof

/-- Sum of a list of rationals. -/
def rsum (l : List Rat) : Rat := l.foldl (· + ·) 0

/-- The traffic-class groups (R206): 0 Express, 1 Assured, 2 Best. -/
def tcGroup (tc : Nat) : Nat := if tc = 7 then 0 else if 4 ≤ tc then 1 else 2

/-- Segment capacity of a sealed port in Gb/s (Table 3-10). -/
def segCapacity (speed : Nat) : Rat := (992 : Rat) / 10 * 2 ^ speed

/-- Duration of one cell of 1,024 bytes in ns: 8,192 bits at the cell stream rate of Table 3-10. -/
def cellNs (speed : Nat) : Rat :=
  8192 / (match speed with | 0 => (1004 : Rat) / 10 | 1 => (2008 : Rat) / 10 | 2 => (4015 : Rat) / 10 | _ => 803)

/-- u_p: the port rate, and on a sealed port the cover share of its segment capacity (R86). -/
def rateQ (s : State) (q : Nat) : Rat :=
  if sealedQ s q then segCapacity (pattr s q 2) * attr s clsLink (q % 48) 4 / 64 else speedGb s q

/-- The tic_mode of a line port: that of its enabled channels, which all agree (R31). -/
def portTic (s : State) (q : Nat) : Nat :=
  if q < 48 then 0 else
    ((enabledChans s).filter (fun c => cattr s c 3 + 48 == q)).foldl (fun m c => max m (cattr s c 8)) 0

/-- o_p (Table 6-5). -/
def overhead (s : State) (q : Nat) : Nat :=
  if q < 48 then 20 else if sealedQ s q then 28 else 52 + 4 * portTic s q

/-- e(F) (Table 6-5, R100); a MAC pads a shorter frame to 64 bytes (R35). -/
def eBytes (s : State) (q f : Nat) : Nat :=
  let f := max 64 f
  if sealedQ s q then f + 24 + 4 * cdiv (f + 24) 1012 else f + overhead s q

/-- x_p. -/
def burstX (s : State) (q : Nat) : Rat := (64 + overhead s q : Rat) / 64

/-- S_out, with the cell wait of a sealed port. -/
def sOut (s : State) (q f : Nat) : Rat :=
  8 * eBytes s q f / rateQ s q + (if sealedQ s q then (66 - attr s clsLink (q % 48) 4 : Rat) * cellNs (pattr s q 2) else 0)

/-- Authenticated-only and text bytes of a channel's frame (Table 4-1). -/
def work (s : State) (c f : Nat) : Nat × Nat :=
  if sealedQ s (48 + cattr s c 3) then (10, f - 4)
  else if cattr s c 6 = 1 then (f + 12, 0)
  else (28 + min (cattr s c 7) (f - 16), f - 16 - cattr s c 7)

/-- Slots of a request (R103). -/
def slotsOf (a t : Nat) : Nat := cdiv a 16 + cdiv t 16 + 1
def frameSlots (s : State) (c f : Nat) : Nat := slotsOf (work s c f).1 (work s c f).2

/-- Slots of a request other than a frame's (Table 4-1): of a control message a = 11; a kind 0x02 segment holds 25 bytes beside its
text. -/
def Req.slots (r : Req) : Nat :=
  match r.kind with
  | .seal _ m => slotsOf 11 m.data.length
  | .unseal _ x _ => slotsOf 11 (x.data.length - 25)
  | .chunk _ a t _ => slotsOf a t

/-- Control messages are express, lookaside chunks are not (Table 4-2, R128). -/
def Req.express (r : Req) : Bool := match r.kind with | .chunk _ _ _ _ => false | _ => true

/-! Policers, rates and weights of a channel and direction -/

def polNo (c : Nat) (d : Dir) : Nat := dirIx c d
/-- ρ_j and b_j: the committed pair of the policer (R201). -/
def rho (s : State) (c : Nat) (d : Dir) : Rat := (attr s clsPol (polNo c d) 2 : Rat) / 1000
def burst (s : State) (c : Nat) (d : Dir) : Nat := attr s clsPol (polNo c d) 3
/-- g_j of an Assured channel (R210). -/
def gRate (s : State) (c : Nat) (d : Dir) : Rat :=
  (cattr s c (match d with | .enc => 0x1A | .dec => 0x1B) : Rat) / 1000
/-- w_j of a Best channel (R210). -/
def weight (s : State) (c : Nat) (d : Dir) : Nat := cattr s c (match d with | .enc => 0x1C | .dec => 0x1D)

/-- The enabled channels and directions whose egress port is q. -/
def flows (s : State) (q : Nat) : List (Nat × Dir) :=
  ((enabledChans s).map (fun c => [(c, Dir.enc), (c, Dir.dec)])).flatten.filter (fun f => egressQ s f.1 f.2 == q)

def groupFlows (s : State) (q g : Nat) : List (Nat × Dir) := (flows s q).filter (fun f => tcGroup (cattr s f.1 4) == g)

/-- The management queue's guaranteed rate (R208): none on a sealed port. -/
def mgmtRate (s : State) (q : Nat) : Rat := if sealedQ s q then 0 else (pattr s q 8 : Rat) / 1000

/-- Σ x_p ρ_i over express, Σ g_j over Assured with the management queue, Σ x_p b_i over express (β_p). -/
def exprRate (s : State) (q : Nat) : Rat := burstX s q * rsum ((groupFlows s q 0).map (fun f => rho s f.1 f.2))
def assuredRate (s : State) (q : Nat) : Rat := mgmtRate s q + rsum ((groupFlows s q 1).map (fun f => gRate s f.1 f.2))
def betaP (s : State) (q : Nat) : Rat := burstX s q * rsum ((groupFlows s q 0).map (fun f => (burst s f.1 f.2 : Rat)))

/-- A frame of the control complex put at the end of a port's management queue, with its tag (R208, R211). -/
def pushMgmt (q : Nat) (m : MgmtFrame) (s : State) : State :=
  let x := portOf s q
  let now : Rat := (s.time.now.total : Rat)
  let e := eBytes s q (m.data.length + 4)
  let r := mgmtRate s q
  let ahead : Nat := x.mgmt.foldl (fun a f => a + f.ebytes) 0
  let t := max now (min x.mgmtTag (now + 8 * (ahead : Rat) / r)) + 8 * (e : Rat) / r
  let (chain, s) := takeGranules m.data.length s
  setPort q { x with mgmt := x.mgmt ++ [{ m with ebytes := e, tag := t, chain := chain }], mgmtTag := t } s

/-! Gates (R217) -/

def gateOf (s : State) (q : Nat) : Gate := tget {} s.traffic.gates q
def setGate (q : Nat) (x : Gate) (s : State) : State := onTraffic (fun t => { t with gates := tset {} t.gates q x }) s
def entryGates (w : Nat) : Nat := bits w 63 56
def entryOp (w : Nat) : Nat := bits w 55 52
def entryNs (w : Nat) : Nat := bits w 29 0

/-- Nanoseconds for which class c is open in a list. -/
def openNs (c : Nat) (ws : List Nat) : Nat := ws.foldl (fun a w => if bit (entryGates w) c then a + entryNs w else a) 0

/-- The longest run of closed time of class c in a sequence of entries. -/
def longestClosed (c : Nat) (ws : List Nat) : Nat :=
  (ws.foldl (fun (a : Nat × Nat) w =>
    if bit (entryGates w) c then (0, a.2) else (a.1 + entryNs w, max a.2 (a.1 + entryNs w))) (0, 0)).2

/-- A list cut at an offset into its cycle: the entries before and after, the cut entry in both parts. -/
def cutList : (ofs : Nat) → List Nat → List Nat × List Nat
  | _, [] => ([], [])
  | ofs, w :: r =>
    if ofs < entryNs w then
      let part (n : Nat) : Nat := w - entryNs w + n
      (if ofs = 0 then [] else [part ofs], part (entryNs w - ofs) :: r)
    else
      let x := cutList (ofs - entryNs w) r
      (w :: x.1, x.2)

/-- The operational list as it runs for one cycle up to an instant of network time. -/
def runUpTo (g : Gate) (t : Nat) : List Nat :=
  if g.cycle = 0 then [] else
    let x := cutList (tmodInt ((t : Int) - g.start) g.cycle) g.oper
    x.2 ++ x.1
where tmodInt (a : Int) (m : Nat) : Nat := (a % (m : Int)).toNat

/-- f_c,p: a port with no list has every gate open. -/
def openFrac (s : State) (q c : Nat) : Rat :=
  let g := gateOf s q
  if g.cycle = 0 then 1 else (openNs c g.oper : Rat) / g.cycle

/-- The longest closed stretch of class c, across the cycle boundary and across the S of a pending commit. -/
def closedStretch (s : State) (q c : Nat) : Nat :=
  let g := gateOf s q
  let own := min g.cycle (longestClosed c (g.oper ++ g.oper))
  match g.pending with
  | none => own
  | some t => max own (min (g.cycle + g.adminCycle) (longestClosed c (runUpTo g t ++ g.admin)))

/-- Operational preemption (R220) and the fragment of R221. -/
def preemptOn (s : State) (q : Nat) : Bool := (portOf s q).preemptOper && pattr s q 5 != 0 && !sealedQ s q
def mFrag (s : State) (q : Nat) : Nat := 64 * (pattr s q 7 + 1) + 83
/-- Whether class c is preemptible on port q with preemption operational. -/
def preemptible (s : State) (q c : Nat) : Bool :=
  preemptOn s q && (if pattr s q 5 = 1 then decide (c ≠ 7) else decide (c < 4))

/-- guard_c and block_p (Table 7-3), G_c (R217). -/
def guardNs (s : State) (q c : Nat) : Rat :=
  8 * (if preemptible s q c then (mFrag s q : Rat) else eBytes s q 16000) / rateQ s q
def blockNs (s : State) (q : Nat) : Rat :=
  if sealedQ s q then 0 else 8 * (if preemptOn s q then (mFrag s q : Rat) else eBytes s q 16000) / rateQ s q
def gateG (s : State) (q c : Nat) : Rat :=
  let x := closedStretch s q c
  let base : Rat := if x = 0 then 0 else (x : Rat) + guardNs s q c
  if c = 7 then base + blockNs s q else base

/-- m_p (R184, R221). -/
def mP (s : State) (q : Nat) : Rat :=
  if preemptOn s q && pattr s q 5 == 2 then (mFrag s q : Rat) else eBytes s q 16000

/-! Bounds -/

/-- p_b, slots per ns; H in ns; the lookaside floor. -/
def boundPace (s : State) : Rat := (attr s clsPmu 0 2 : Rat) / 1000
def horizonNs (s : State) : Rat := attr s clsPmu 0 3 * 1000
def laFloor (s : State) : Rat := (attr s clsDev 0 5 : Rat) / 1000

/-- The Assured formula of R184 for a request of n slots at a pace, for a burst term of b bytes served at g. -/
def assuredForm (s : State) (q n : Nat) (pace b g : Rat) (tc : Nat) : Rat :=
  1032 + horizonNs s + (81 + n : Rat) / pace + 8 * (b + eBytes s q 16000) / g
  + 8 * (mP s q + betaP s q) / rateQ s q + gateG s q tc

/-- B: the bound of a frame of f bytes and n slots in its class (R182, R184, R185). -/
def boundOf (s : State) (c : Nat) (d : Dir) (f n : Nat) : Rat :=
  let q := egressQ s c d
  let tc := cattr s c 4
  match tcGroup tc with
  | 0 => 1032 + (891 + max n 131 : Rat) / boundPace s + sOut s q f + gateG s q 7 + pattr s q 9
  | 1 => assuredForm s q n (boundPace s) (burstX s q * burst s c d) (gRate s c d) tc
  | _ => pattr s q 0x0B * 1000

/-- f_B,p: the smallest open fraction among the Best classes present. -/
def bestOpen (s : State) (q : Nat) : Rat :=
  (groupFlows s q 2).foldl (fun m f => min m (openFrac s q (cattr s f.1 4))) 1

/-- v_p (Table 6-6). -/
def bestResidual (s : State) (q : Nat) : Rat := bestOpen s q * rateQ s q - exprRate s q - assuredRate s q

/-- Sum of the weights of the enabled Best channels on q, all or of one class. -/
def weightSum (s : State) (q : Nat) (tc : Option Nat) : Nat :=
  (groupFlows s q 2).foldl (fun a f => if tc.all (· == cattr s f.1 4) then a + weight s f.1 f.2 else a) 0

/-! Shapers (R203, R204) -/

def shpOn (s : State) (n : Nat) : Bool := attr s clsShp n 3 == 1
def shpRate (s : State) (n : Nat) : Rat := (attr s clsShp n 1 : Rat) / 1000
def shpDir (s : State) (c : Nat) : Dir := if attr s clsShp c 4 = 0 then .enc else .dec
def clsShaper (q c : Nat) : Nat := 32768 + 8 * q + c
/-- Whether the channel shaper shapes this direction. -/
def chanShaped (s : State) (c : Nat) (d : Dir) : Bool := shpOn s c && decide (shpDir s c = d)

/-- s_j (R205). -/
def bestShare (s : State) (c : Nat) (d : Dir) : Rat :=
  let q := egressQ s c d
  let tc := cattr s c 4
  let w : Rat := weight s c d
  let a := bestResidual s q * w / max 1 (weightSum s q none : Rat)
  let a := if chanShaped s c d then min a (shpRate s c) else a
  if shpOn s (clsShaper q tc) then min a (shpRate s (clsShaper q tc) * w / max 1 (weightSum s q (some tc) : Rat)) else a

/-! Configuration checks (R186) -/

/-- Express rate and Assured reservation of Table 6-6 on port q. -/
def rateCheck (s : State) (q : Nat) : Bool :=
  decide (exprRate s q ≤ openFrac s q 7 * rateQ s q)
  && (groupFlows s q 1).all (fun f => decide (burstX s q * rho s f.1 f.2 ≤ gRate s f.1 f.2)
       && decide (exprRate s q + assuredRate s q ≤ openFrac s q (cattr s f.1 4) * rateQ s q))
  && (sealedQ s q || decide (exprRate s q + assuredRate s q ≤ openFrac s q 6 * rateQ s q))

/-- Best residual and Best sojourn of Table 6-6 on port q; the sojourn with the smallest share of the port (R205). -/
def bestCheck (s : State) (q : Nat) : Bool :=
  match groupFlows s q 2 with
  | [] => true
  | f0 :: r =>
    decide (0 < bestResidual s q)
    && (let least := (f0 :: r).foldl (fun m f => min m (bestShare s f.1 f.2)) (bestShare s f0.1 f0.2)
        decide (0 < least) && (f0 :: r).all (fun f =>
          decide (assuredForm s q (frameSlots s f.1 16000) (boundPace s) 0 least (cattr s f.1 4) ≤ (pattr s q 0x0B * 1000 : Rat))))

/-- The array check of Table 6-6 for n clusters at a pace in slots per ns. -/
def arrayCheck (s : State) (n : Nat) (pace : Rat) : Bool :=
  let one (c : Nat) : Rat := if cattr s c 4 < 4 then 0 else rho s c .enc + rho s c .dec
  decide (rsum ((enabledChans s).map one) / 8 * 6 / 64 ≤ 4 * n * pace * (1 - laFloor s))

/-- The conditions of R204 on enabled shapers. -/
def shaperCheck (s : State) : Bool :=
  (enabledChans s).all (fun c =>
    !shpOn s c || (match tcGroup (cattr s c 4) with
      | 0 => false
      | 1 =>
        let d := shpDir s c
        let q := egressQ s c d
        decide (gRate s c d ≤ shpRate s c) && decide (burstX s q * burst s c d + eBytes s q 16000 ≤ (attr s clsShp c 2 : Rat))
      | _ => true))
  && (upFrom 0 96).all (fun q => [4, 5, 6].all (fun tc =>
    let n := clsShaper q tc
    let g := rsum (((groupFlows s q 1).filter (fun f => cattr s f.1 4 == tc)).map (fun f => gRate s f.1 f.2))
    !shpOn s n || (decide (g + (if tc = 6 then mgmtRate s q else 0) ≤ shpRate s n)
      && decide (eBytes s q 16000 ≤ attr s clsShp n 2))))

/-- Granules that the pools of Table 9-2 leave to the queueing part; below 0 where a horizon takes more than there is. -/
def queuePart (s : State) : Int := 393216 - 16448 - 16384 - 24576 - 16384 * (attr s clsPmu 0 3 : Int)

/-- Granules of the queueing part, and the reservation of a channel and direction (R223). -/
def queueGranules (s : State) : Nat := (queuePart s).toNat
def reservation (s : State) (c : Nat) (d : Dir) : Nat := if cattr s c 4 < 4 then 0 else cdiv (burst s c d) 64 + 126
def totalReserved (s : State) : Nat := (enabledChans s).foldl (fun a c => a + reservation s c .enc + reservation s c .dec) 0

/-- The reservations fit the queueing part (R223, R254). -/
def reserveCheck (s : State) : Bool := decide ((100 * totalReserved s : Int) ≤ attr s clsDev 0 8 * queuePart s)

/-- Every configuration check, against the whole configuration as it stands in s. -/
def configOk (s : State) : Bool :=
  (upFrom 0 96).all (fun q => rateCheck s q && bestCheck s q) && arrayCheck s 32 (boundPace s) && shaperCheck s && reserveCheck s

/-- Q_p (R187), never below 0, rounded up to whole ns for the attribute. -/
def expressQueue (s : State) (q : Nat) : Rat := max 0 (8 * (betaP s q - (64 + overhead s q)) / rateQ s q)

/-- The check writes Q_p of every egress port to express_queue_ns. -/
def storeQueues (s : State) : State :=
  (upFrom 0 96).foldl (fun t q => setPattr t q 0x0A (expressQueue s q).ceil.toNat) s

/-- A change that runs the checks of R186: applied with its Q_p, or NO_BOUND and nothing changed. -/
def checked (s1 : State) : Option State := if configOk s1 then some (storeQueues s1) else none

/-- The replay region of R43: twice the rounded window of every enabled channel, in bits, within 4 GiB. -/
def replayFits (s : State) : Bool :=
  decide ((enabledChans s).foldl (fun a c => a + 2 * (cdiv (cattr s c 0x15) 4096 * 4096)) 0 ≤ 8 * 2 ^ 32)

/-- The spill areas of all ports within the SPILL range of 24 GiB (R225, R258). -/
def spillFits (s : State) : Bool := decide ((upFrom 0 96).foldl (fun a q => a + pattr s q 0x0D) 0 ≤ 24 * 1024)

end Sys2Proof.Machine
end

