-- ==== Sys2Proof/Machine/Pairing.lean ====
section
/-! DEFINITION. A mailbox's answer (R363), and the mated pair's shared operations (chapter 10): mirrored objects and versions (R294),
readiness (R288), STATE messages (R282), the lease (R289 to R293), the PN jump (R297), PSEL (R299) and planned handovers (R302). -/

namespace Sys2Proof.Machine

open Sys2Proof

/-! Mailboxes -/

def mbxOf (s : State) (mb : Nat) : Mbx := tget {} s.mbx mb
def setMbx (mb : Nat) (x : Mbx) (s : State) : State := { s with mbx := tset {} s.mbx mb x }

/-- What a command answers: status and body. -/
abbrev Reply := Status × Bytes

def reply (st : Status) : Reply := (st, [])

/-- A command's answer, waiting for MAILBOX_RESPONSE; an executed command is counted. The answer of one whose mailbox has been reset
since it began goes nowhere (R312). -/
def answer (mb : Nat) (r : Reply) (s : State) : State :=
  let x := mbxOf s mb
  let s :=
    if x.orphan then setMbx mb { x with orphan := false } s
    else setMbx mb { x with answer := some { status := r.1, body := r.2 }, started := none } s
  if r.1 = .ok then
    countEv { group := 7, code := 0, world := x.session.map (fun w => w.world.code) } 1 (countFix 56 1 s)
  else s

/-! The pair -/

/-- Whether a partner is bound (R286). -/
def paired (s : State) : Bool := s.nvm.binding.isSome

/-- The lease states a command asks about. -/
def isHolder (s : State) : Bool := s.pair.lease == .holder
def isStandby (s : State) : Bool := paired s && s.pair.lease == .standby

/-- pair[0] attribute. -/
def pairAttr (s : State) (a : Nat) : Nat := attr s clsPair 0 a

/-- Role A is the device with the lower device_id (R286); true for B. -/
def roleB (s : State) : Bool :=
  match s.nvm.binding with
  | some b => decide (b.id.toNat < deviceId s)
  | none => false

/-! Mirrored objects (Table 10-10): an object's number is its object ID with attribute 0; a CA's protocol state has attribute 0xFF -/

def mirKslot (n : Nat) : Nat := oid clsKslot n 0
def mirGslot (g : Nat) : Nat := oid clsGslot g 0
def mirObj (cls inst : Nat) : Nat := oid cls inst 0
def mirCa (ca : Nat) : Nat := oid clsCa ca 0xFF

/-- The version this device has or holds of an object. -/
def verOf (s : State) (o : Nat) : Nat := max (tget 0 s.pair.versions o) (tget 0 s.pair.heldVer o)

/-- Attribute codes of a class in ascending order. -/
def classCodes (cls inst : Nat) : List Nat := (upFrom 0 256).filter (fun a => (attrSpec cls inst a).isSome)

/-- chan[c]: state, phase, ca and tx_pn come from the channel's state. -/
def chanValue (s : State) (c a : Nat) : Nat :=
  match a with
  | 0x01 => (chanOf s c).state.code | 0x0F => b01 (chanOf s c).phase | 0x18 => (chanOf s c).ca | 0x1E => pnOf s (curSlot s c)
  | _ => attr s clsChan c a

/-- hport and lport: preempt_oper. -/
def portValue (s : State) (q a : Nat) : Nat :=
  if a = 0x06 then b01 (portOf s q).preemptOper else attr s (pcls q) (q % 48) a

/-- gate[q]: pending, start, cycle_ns and entries of its lists; on the standby those of the holder, as last mirrored. -/
def gateWords (s : State) (q : Nat) : Nat × Nat × Nat × Nat :=
  let g := gateOf s q
  let own : Nat × Nat × Nat × Nat :=
    match g.pending.filter (fun t => decide (netNs s < t)) with
    | some t => (1, t / 10 ^ 9 + t % 10 ^ 9 * 2 ^ 48, g.cycle, g.oper.length)
    | none => (0, 0, g.cycle, g.oper.length)
  if isStandby s then g.told.getD own else own
def gateValue (s : State) (q a : Nat) : Nat :=
  let (p, t, c, n) := gateWords s q
  match a with
  | 0x01 => p | 0x02 => t | 0x03 => c | _ => n

/-- link[p]: rx_state, rx_epoch and defects. -/
def linkValue (s : State) (p a : Nat) : Nat :=
  let r := (tget {} s.wh p).rx
  match a with
  | 0x08 => rxCode r | 0x09 => r.epoch | 0x0A => r.defects.toNat | _ => attr s clsLink p a

/-- ca[n].state: DOWN, LIVE, SECURED. -/
def caState (s : State) (ca : Nat) : Nat :=
  let x := caOf s ca
  if !x.exist || x.stopped || x.peers.isEmpty then 0 else if x.secured then 2 else 1

def caValue (s : State) (ca a : Nat) : Nat :=
  match a with
  | 0x09 => caState s ca | 0x0A => b01 (keyServer s ca) | 0x0B => min 255 (caOf s ca).peers.length | 0x0C => (caOf s ca).mn
  | _ => attr s clsCa ca a

/-- What an attribute of a mirrored class reads as. -/
def mirrorAttr (s : State) (cls inst a : Nat) : Nat :=
  match cls with
  | 0x02 => portValue s inst a
  | 0x03 => portValue s (48 + inst) a
  | 0x04 => chanValue s inst a
  | 0x07 => gateValue s inst a
  | 0x09 => caValue s inst a
  | 0x0A => linkValue s inst a
  | _ => attr s cls inst a

/-- Whether an object is a slot, and the slot. -/
def isSlot (o : Nat) : Bool := o / 2 ^ 24 == clsKslot || o / 2 ^ 24 == clsGslot
def slotAt (s : State) (o : Nat) : Slot :=
  if o / 2 ^ 24 = clsKslot then kslotOf s (o / 256 % 65536) else gslotOf s (o / 256 % 65536)

/-- A slot that holds no key to mirror: it is EMPTY, or a general slot whose MASTER_MASK does not hold MATE. -/
def noMirror (o : Nat) (x : Slot) : Bool := x.state == .empty || (o / 2 ^ 24 == clsGslot && x.state == .valid && !attrMaster x.attr mMate)

/-- Whether R152 keeps a slot from being mirrored, a use by INTERNAL and MATE of which no USAGE bit speaks (log 127). -/
def withheld (s : State) (o : Nat) : Bool :=
  let x := slotAt s o
  isSlot o && !noMirror o x && (x.state != .valid || (maskChecks s x .internal mMate).isSome || expired s x)

/-- Key, salt, attribute word and reserved bytes of a slot, wrapped under the pair wrap key (Table 10-10). -/
def wrapSlot (x : Slot) (s : State) : Option Bytes × State :=
  match readInternal handlePairWrap s with
  | (none, s) => (none, s)
  | (some kek, s) =>
    (some (ofOctets (kwWrap kek (keyOctets (lineKey x.line) ++ beOct 12 x.salt.toNat ++ beOct 8 x.attr.toNat ++ beOct 4 0))), s)

/-- The body of a slot's mirror, a read of its line as R165 says; an empty attribute word stands for a slot without a key. None where
R152 or the read refuses. -/
def slotBody (o : Nat) (s : State) : Option Bytes × State :=
  let x := slotAt s o
  let n := o / 256 % 65536
  if noMirror o x then wrapSlot {} s
  else if x.state != .valid || (maskChecks s x .internal mMate).isSome then (none, s)
  else if expired s x then (none, putG n { x with state := .expired } s)
  else if o / 2 ^ 24 = clsKslot then (if lineOk x.line then wrapSlot x s else (none, halt haltKeyState s))
  else match readG n s with
    | (none, s) => (none, s)
    | (some _, s) => wrapSlot x s

/-- The body of a CA's protocol state: member identifier (12), message number (4), count of live peers (1), then each peer's
member identifier (12) and message number (4). -/
def caBody (x : Ca) : Bytes :=
  beBytes 12 x.mi ++ beBytes 4 x.mn ++ beBytes 1 x.peers.length
  ++ (x.peers.map (fun p => beBytes 12 p.mi ++ beBytes 4 p.mn)).flatten

/-- The body of an object's MIRROR message. -/
def mirrorBody (o : Nat) (s : State) : Option Bytes × State :=
  let cls := o / 2 ^ 24
  let inst := o / 256 % 65536
  if isSlot o then slotBody o s
  else if o % 256 = 0xFF then (some (caBody (caOf s inst)), s)
  else (some ((classCodes cls inst).map (fun a =>
    leBytes ((attrSpec cls inst a).getD (0, false)).1 (mirrorAttr s cls inst a))).flatten, s)

/-- Whether the pairing exchange has given the pair its keys (R287). -/
def pairKeyed (s : State) : Bool := tget {} s.keys.internal handlePairLink != {}

/-- Whether MIRROR messages go out: this device holds the lease of a pair whose keys exist. -/
def mirroring (s : State) : Bool :=
  paired s && isHolder s && s.pair.linkUp && pairKeyed s && (s.pair.state == .syncing || s.pair.state == .ready || s.pair.state == .notReady)

def sendMirror (o : Nat) (s : State) : State :=
  match mirrorBody o s with
  | (none, s) => s
  | (some b, s) =>
    mate 0x16 (beBytes 4 o ++ beBytes 8 (verOf s o) ++ beBytes 2 b.length ++ b)
      (onPair (fun p => { p with sentAt := tset 0 p.sentAt o s.time.ticks }) s)

/-- An object changed: its version rises by one, and the holder mirrors it (R294). -/
def touch (o : Nat) (s : State) : State :=
  let v := verOf s o + 1
  let s := onPair (fun p => { p with versions := tset 0 p.versions o v }) s
  if mirroring s then sendMirror o s else s

/-- The classes whose configuration is mirrored. -/
def mirrored (cls : Nat) : Bool :=
  [clsHport, clsLport, clsChan, clsPol, clsShp, clsCa, clsLink, clsPair].contains cls

/-- The objects that hold something to mirror, changed or not since the pair exists. -/
def contents (s : State) : List Nat :=
  s.keys.kslot.map (fun p => mirKslot p.1)
  ++ (s.keys.gslot.filter (fun p => !noMirror (mirGslot p.1) p.2)).map (fun p => mirGslot p.1)
  ++ s.traffic.chans.map (fun p => mirObj clsChan p.1) ++ s.traffic.gates.map (fun p => mirObj clsGate p.1)
  ++ (s.cas.filter (fun p => p.2.exist)).map (fun p => mirObj clsCa p.1) ++ (s.cas.filter (fun p => p.2.exist)).map (fun p => mirCa p.1)
  ++ (s.objs.map (fun p => p.1 / 256 * 256)).filter (fun o => mirrored (o / 2 ^ 24))

/-- Every object sent once: after pairing and after a NOT_READY period (R294). One without a version so far takes version 1. -/
def sendAll (s : State) : State :=
  if mirroring s then
    let s := (contents s).foldl (fun s o =>
      if verOf s o = 0 then onPair (fun p => { p with versions := tset 0 p.versions o 1 }) s else s) s
    ((s.pair.versions.map (·.1)) ++ (s.pair.heldVer.map (·.1)).filter (fun o => tget 0 s.pair.versions o = 0)).foldl
      (fun s o => sendMirror o s) s
  else s

/-! Watermarks (R296) -/

/-- The highest PN assigned under a slot: until the first assignment after a PN jump it is what the jump was counted from. -/
def assignedPn (s : State) (n : Nat) : Nat :=
  if pnOf s n = tget 0 s.pair.starts n then tget 0 s.pair.markGot n else pnOf s n - 1

/-- A slot's watermark: the highest PN assigned or reserved under it; reserved PNs belong to the current slot (R47). -/
def watermarkOf (s : State) (n : Nat) : Nat :=
  let r := if curSlot s (n / 2) = n then (chanOf s (n / 2)).reserved else 0
  if r = 0 then assignedPn s n else pnOf s n - 1 + r

/-- The installed channel slots. -/
def installedSlots (s : State) : List Nat := (s.keys.kslot.filter (fun p => p.2.state == .valid)).map (·.1)

/-- Every assigned PN lies at most 2^pn_jump_log2 − 2^20 above the acknowledged watermark. -/
def watermarkOk (s : State) : Bool :=
  (installedSlots s).all (fun n =>
    decide (assignedPn s n ≤ tget 0 s.pair.markAcked n + (2 ^ pairAttr s 8 - 2 ^ 20)))

/-! Readiness (R288) -/

def hasInvalid (s : State) : Bool :=
  s.keys.kslot.any (fun p => p.2.state == .invalid) || s.keys.gslot.any (fun p => p.2.state == .invalid)

/-- No lease message for lease_us, and the link KEYED for as long (R290). -/
def leaseSilent (s : State) : Bool := passed s (max s.pair.lastLeaseMsg s.pair.keyedAt) (1000 * pairAttr s 6)

/-- Every mirrored object is acknowledged at its current version. The holder knows by itself, slots that R152 keeps from being mirrored
apart. DEDUCED (log 128): the standby knows it from the holder's STATE; where neither device is the holder there is nothing to
acknowledge once no holder has been heard for lease_us. -/
def allAcked (s : State) : Bool :=
  if isHolder s then s.pair.versions.all (fun p => decide (verOf s p.1 ≤ tget 0 s.pair.acked p.1) || withheld s p.1)
  else if s.pair.lease = .standby then s.pair.peerSynced
  else leaseSilent s

/-- The conditions that READY rests on, the holder's acknowledgments apart. -/
def readyKeeps (s : State) : Bool :=
  s.pair.linkUp && pairKeyed s && s.glb.mode == .service
  && (match s.pair.partner with | some (m, _) => m == 3 || m == 4 | none => false)
  && !hasInvalid s && (!isHolder s || watermarkOk s) && (s.pair.lease != .standby || s.pair.peerSynced)

/-- The conditions of becoming READY. A mirror sent while READY has 200 µs for its acknowledgment before READY ends (R295, log 16). -/
def readyConds (s : State) : Bool := readyKeeps s && allAcked s

/-- The STATE message (Table 10-7). -/
def stateMsg (s : State) : Bytes :=
  beBytes 1 s.glb.mode.code ++ beBytes 1 (b01 (s.pair.state == .ready)) ++ beBytes 1 (byRole s .spare).length
  ++ beBytes 1 s.maint.degrade.toNat

/-- The pair state follows its conditions once the exchange is over (R288). Leaving NOT_READY, the holder sends every object. -/
def updateReady (s : State) : State :=
  let ok := readyConds s
  match s.pair.state with
  | .syncing => if ok then onPair (fun p => { p with state := .ready, synced := true }) s else s
  | .ready => if readyKeeps s then s else onPair (fun p => { p with state := .notReady }) s
  | .notReady => if ok then sendAll (onPair (fun p => { p with state := .ready, synced := true }) s) else s
  | _ => s

/-- The holder begins a planned handover (R302): admission refuses with HANDOVER, and prepare is sent. -/
def startHandover (mb : Option Nat) (s : State) : State :=
  mate 0x13 (beBytes 1 1) (onPair (fun p => { p with handover := some (mb, false, s.time.ticks) }) s)

/-- YIELD (R282): with a DEGRADE condition of spares, quarantine or a SerDes group, a READY pair and a partner without one. -/
def tryYield (s : State) : State :=
  let own := s.maint.degrade.toNat % 8
  let clear := match s.pair.partner with | some (_, _, _, d) => d == 0 | none => false
  if attr s clsDev 0 0x0A = 1 ∧ own ≠ 0 ∧ isHolder s ∧ s.pair.state = .ready ∧ clear = true ∧ s.pair.handover = none then
    startHandover none s
  else s

/-- What follows a change of mode, roles, conditions, versions or watermarks: readiness, YIELD, and a STATE message where its fields
have changed since s0. A halted device does nothing more. -/
def settle (s0 s : State) : State :=
  if !paired s || !live s then s
  else
    let s := tryYield (updateReady s)
    if stateMsg s = stateMsg s0 then s else mate 0x18 (stateMsg s) s

/-! The lease -/

/-- PSEL[i] rises for every enabled line port of the holder, and otherwise follows the falls of R299. -/
def raisePsel (s : State) : State :=
  onPair (fun p => { p with psel := (upFrom 0 48).foldl (fun b i => if adminUp s (48 + i) then b ||| (1 <<< i) else b) p.psel }) s
def lowerPsel (s : State) : State := onPair (fun p => { p with psel := 0 }) s

/-- The PN jump of a slot: from the watermark received, or what this device has itself assigned where that is more (log 129). -/
def jumpSlot (n : Nat) (s : State) : State :=
  let base := max (tget 0 s.pair.markGot n) (watermarkOf s n)
  let start := base + 2 ^ pairAttr s 8
  setPn n start (onPair (fun p => { p with markGot := tset 0 p.markGot n base, starts := tset 0 p.starts n start }) s)

/-- The PN jump (R297): each installed slot of a channel starts at its watermark plus 2^pn_jump_log2; a current slot at or beyond the
effective limit freezes its channel and requests a rekey. -/
def pnJump (s : State) : State :=
  let s := (installedSlots s).foldl (fun s n => jumpSlot n s) s
  ((s.traffic.chans.filter (fun p => p.2.state == .active)).map (·.1)).foldl (fun s c =>
    if (kslotOf s (curSlot s c)).state = .valid ∧ effLimit s c ≤ pnOf s (curSlot s c) then requestRekey c (freeze c s) else s) s

/-- The message numbers of every CA advanced by 2^16 (R293). -/
def jumpMn (s : State) : State :=
  { s with cas := s.cas.map (fun p => (p.1, if p.2.exist then { p.2 with mn := (p.2.mn + 2 ^ 16) % 2 ^ 32, sentAt := none } else p.2)) }

/-- Taking the lease as R293 says. -/
def takeLease (s : State) : State :=
  let s := pnJump s
  let s := onPair (fun p => { p with
    lease := .holder, leaseEnd := s.time.ticks + 1000 * pairAttr s 6, renews := [], lastEcho := 0, ackState := 0,
    renewAt := none, took := true, acked := p.heldVer }) s
  jumpMn (raisePsel (raise evLeaseGained [] (countFix 45 1 s)))

/-- An unpaired device becomes the holder (R289, R314): PSEL rises, nothing jumps. -/
def holdUnpaired (s : State) : State :=
  raisePsel (raise evLeaseGained [] (countFix 45 1 (onPair (fun p => { p with lease := .holder }) s)))

/-- A holder that gives up the lease holds its objects at the versions that the partner has acknowledged. -/
def standDown (l : Lease) (s : State) : State :=
  lowerPsel (onPair (fun p => { p with
    lease := l, took := false, heldVer := p.acked.foldl (fun t x => tmod 0 t x.1 (fun v => max v x.2)) p.heldVer }) s)

/-- A planned handover that does not come to its end: its PAIR.HANDOVER answers PAIR_NOT_READY. -/
def dropHandover (s : State) : State :=
  match s.pair.handover with
  | some (some m, _) => answer m (reply .pairNotReady) (onPair (fun p => { p with handover := none }) s)
  | some (none, _) => onPair (fun p => { p with handover := none }) s
  | none => s

/-- The partner is lost (R292, R293): NOT_READY, and a DEGRADE fault while the pair was READY or the lease was taken from the partner. -/
def losePartner (s : State) : State :=
  let was := s.pair.state == .ready || s.pair.took
  let s := onPair (fun p => { p with
    partner := none
    peerSynced := false
    took := false
    state := if p.state = .unpaired ∨ p.state = .pairing then p.state else .notReady }) (dropHandover s)
  if was then degrade 14 0 0 s else s

end Sys2Proof.Machine
end

