-- ==== Sys2Proof/Machine/Mailbox.lean ====
section
/-! DEFINITION. How a mailbox command executes (R365, R386): the checks of Table 16-2 in the order of Table 15-6, its answer, and the
response (R363). -/

namespace Sys2Proof.Machine

open Sys2Proof

/-- A command of this mailbox has begun and waits for what completes it. -/
def waits (s : State) (mb : Nat) : Bool :=
  (match s.glb.serviceWait with | some m => m.val == mb | none => false)
  || (match s.nvm.programming with | some (_, some m) => m.val == mb | _ => false)
  || (match s.maint.rotating with | some (_, some m) => m.val == mb | _ => false)
  || s.pair.mirrorWait.any (fun w => w.2.1 == mb)
  || (match s.pair.handover with | some (some m, _) => m == mb | _ => false)

/-- A mode change is in progress: SYS.MODE SERVICE before its meter round, or SYS.MODE PROVISION while fuses are blown. -/
def changing (s : State) : Bool :=
  s.glb.serviceWait.isSome || (match s.nvm.programming with | some (.sealed, _) => true | _ => false)

/-- A request of an earlier doorbell has not been started yet: requests start in the order of their doorbells (R367). -/
def ahead (s : State) (mb : Nat) : Bool :=
  let x := mbxOf s mb
  x.started.isSome && s.mbx.any (fun p => p.2.started.isSome && decide (p.2.order < x.order) && !waits s p.1)

/-- A command does not run now: its mailbox has one that waits, an earlier request has not been started, or a mode change is in progress,
which holds new commands (R305). -/
def held (s : State) (mb : Nat) : Bool := (waits s mb || ahead s mb || changing s) && !halted s

/-- Checks 1, 5, 7, 8 and 9 of Table 15-6 for a command open to worlds and modes; every mode but BOOT where modes is empty. -/
def gate (worlds : List World) (modes : List Mode) (mb : Nat) (s : State) : Except Status World :=
  if halted s then .error .halted
  else if s.glb.mode = .boot then .error .mode
  else match (mbxOf s mb).session with
    | none => .error .denied
    | some w =>
      if !worlds.contains w.world then .error .denied
      else if !modes.isEmpty && !modes.contains s.glb.mode then .error .mode
      else .ok w.world

/-- A request of the open session passes check 7 (R369): the time from which idleness counts. -/
def useSession (mb : Nat) (s : State) : State :=
  let x := mbxOf s mb
  setMbx mb { x with session := x.session.map (fun w => { w with lastAt := s.time.ticks }) } s

/-- The state in which a command's checks and its own part run: one that no doorbell has brought passes check 7 here. -/
def begun (mb : Nat) (s : State) : State :=
  if (mbxOf s mb).started.isSome || halted s || s.glb.mode == .boot then s else useSession mb s

/-- A command of an open session: its checks, and where they pass its own part. No answer: it waits. -/
def request (worlds : List World) (modes : List Mode) (mb : Nat) (run : World → State → Option Reply × State) (s : State) :
    Result :=
  .next (
    if asleep s || (mbxOf s mb).answer.isSome || held s mb then s
    else
      match gate worlds modes mb (begun mb s) with
      | .error st => answer mb (reply st) (begun mb s)
      | .ok w =>
        match run w (begun mb s) with
        | (some r, s1) => answer mb r s1
        | (none, s1) => s1)

/-- A command refused with a status before any check but the first of Table 15-6. -/
def refuseRequest (mb : Nat) (st : Status) (s : State) : Result :=
  .next (
    if asleep s || (mbxOf s mb).answer.isSome || held s mb then s
    else answer mb (reply (if halted s then .halted else st)) s)

/-- A command that needs no session (Table 15-4). -/
def openRequest (inBoot : Bool) (mb : Nat) (run : State → Reply × State) (s : State) : Result :=
  .next (
    if asleep s || (mbxOf s mb).answer.isSome || held s mb then s
    else if halted s then answer mb (reply .halted) s
    else if s.glb.mode = .boot ∧ !inBoot then answer mb (reply .mode) s
    else
      let (r, s1) := run s
      answer mb r s1)

/-- Worlds and modes of Table 16-2. -/
def off : List World := [.officer]
def offOpr : List World := [.officer, .operator]
def anyWorld : List World := [.officer, .operator, .observer]
def psm : List Mode := [.provision, .service, .maintenance]

/-- An answer that leaves the state as it is. -/
def deny (st : Status) (s : State) : Option Reply × State := (some (reply st), s)
def done (body : Bytes) (s : State) : Option Reply × State := (some (.ok, body), s)

/-- A command that reaches memory cannot complete during a hold of the checker (R272): it waits. -/
def whenFree (k : State → Option Reply × State) (s : State) : Option Reply × State := if holding s then (none, s) else k s

/-- A buffer read by Gydom for a command (R386); DENIED where the checker refuses. -/
def withBuffer (w : World) (addr colour n : Nat) (k : Bytes → State → Option Reply × State) (s : State) : Option Reply × State :=
  whenFree (fun s => match bufRead mCp colour w.code addr n s with
    | (some b, s) => k b s
    | (none, s) => (some (reply .denied), s)) s

/-- A buffer written by Gydom for a command, then its body. -/
def intoBuffer (w : World) (addr colour : Nat) (d body : Bytes) (s : State) : Option Reply × State :=
  whenFree (fun s => match bufWrite mCp colour w.code addr d s with
    | (true, s) => (some (.ok, body), s)
    | (false, s) => (some (reply .denied), s)) s

/-- A session closed (R369): its challenge goes with it, and a data-port claim it holds is released (R371). -/
def closeSession (mb : Nat) (s : State) : State :=
  let x := mbxOf s mb
  let s := setMbx mb { x with session := none, challenge := none } s
  match s.dp.claim with
  | some (m, _) => if m = mb then onDp (fun d => { d with claim := none, en := false }) s else s
  | none => s

def closeAll (s : State) : State := (upFrom 0 16).foldl (fun s m => closeSession m s) s

/-- The enrolment sessions closed: the device leaves ENROL (R309). -/
def closeEnrolment (s : State) : State :=
  (upFrom 0 4).foldl (fun s m => if (mbxOf s m).session.any (·.enrolment) then closeSession m s else s) s

/-- The response is written, then BUSY clears, DONE sets and EV_MBXn is raised (R363). -/
def respond (mb : Nat) (s : State) : State :=
  let x := mbxOf s mb
  match x.answer with
  | none => s
  | some a =>
    let el := a.elapsed.getD ((s.time.ticks - x.rung) / 1000)
    let st := if a.dup && a.status == .ok then Status.duplicate.code else a.status.code
    let head := leBytes 4 x.seq.toNat ++ leBytes 2 st ++ leBytes 2 a.body.length ++ leBytes 2 (b01 a.dup) ++ leBytes 4 el ++ zeros 2
    let y := { x with
      rsp := head ++ a.body, busy := false, done := true, answer := none,
      cache := if a.cached && !a.dup && x.busy then some { a with elapsed := some el } else x.cache }
    let s := setMbx mb y s
    if x.irq then raise (evMbx mb) (leBytes 4 x.seq.toNat) s else s

/-- The mode changed between two commands (R305): enable bits recomputed first, enrolment sessions closed on leaving ENROL. -/
def setMode (m : Mode) (s : State) : State :=
  let s1 := tieAll (recompute (onGlb (fun g => { g with mode := m }) s))
  if s.glb.mode = .enrol ∧ m ≠ .enrol then closeEnrolment s1 else s1

/-- The answer of a command that installs a mirrored slot: given once the partner has acknowledged it while the pair is READY
(R295). No acknowledgment comes for a slot that R152 keeps from being mirrored. -/
def afterMirror (mb : Nat) (o : Nat) (wasReady : Bool) (r : Reply) (s : State) : Option Reply × State :=
  if wasReady && mirroring s && !withheld s o then
    (none, onPair (fun p => { p with mirrorWait := p.mirrorWait ++ [(o, mb, { status := r.1, body := r.2 })] }) s)
  else (some r, s)

/-- The commands that waited for an object's mirror completed. -/
def mirrorDone (o : Nat) (s : State) : State :=
  let w := s.pair.mirrorWait.filter (fun w => w.1 == o)
  let s := onPair (fun p => { p with mirrorWait := p.mirrorWait.filter (fun w => !(w.1 == o)) }) s
  w.foldl (fun s x => answer x.2.1 (x.2.2.status, x.2.2.body) s) s

/-- Whether a port of the chip is fused off or absent (R3); q beyond 95 names none. -/
def absentQ (s : State) (q : Nat) : Bool := decide (96 ≤ q) || fusedQ s q

end Sys2Proof.Machine
end

