-- ==== Sys2Proof/Machine/Standpipe.lean ====
section
/-! DEFINITION. Tamper sources, the Standpipe log and RTC, and main power (chapter 13). -/

namespace Sys2Proof.Machine

open Sys2Proof

/-- A source of no record. -/
def noSource : Nat := 0xFF

/-- Whether a source is enabled; sources 0 and 10 to 12 always are (R338). -/
def srcEnabled (s : State) (n : Nat) : Bool := n == 0 || decide (10 ≤ n) || attr s clsTamper n 1 == 1

/-- A record of a source, with EV_TAMPER where its response is LOG_EVENT, PD_CTRL is on and the device is not halted (R339). -/
def srcRecord (n kind detail : Nat) (s : State) : State :=
  let seq := s.stp.nextSeq
  let s := stpRecord n kind detail s
  if attr s clsTamper n 4 = 1 ∧ live s then raise evTamper (leBytes 4 seq) s else s

/-- A recognition recorded, at most 8 per source and RTC second (R342). -/
def recordRecognition (n kind : Nat) (s : State) : State :=
  if tget 0 s.stp.written n < 8 then srcRecord n kind 0 (onStp (fun p => { p with written := tmod 0 p.written n (· + 1) }) s)
  else onStp (fun p => { p with suppressed := tmod 0 p.suppressed n (· + 1) }) s

/-- What a source stands for besides its record: the oscillator (R345) and the cell bits of STP_POWER. -/
def srcLevel (n : Nat) (alarm : Bool) (s : State) : State :=
  onStp (fun p => { p with
    osc := if n = 12 then alarm else p.osc
    aOk := if n = 10 then !alarm else p.aOk
    bOk := if n = 11 then !alarm else p.bOk }) s

/-- Whether a recognition of a source can occur: sources 8 and 9 are not sampled without main power (R337). -/
def sampled (s : State) (n : Nat) : Bool := srcEnabled s n && (s.stp.main || !(n == 8 || n == 9))

/-- A source recognised in alarm. -/
def assertSource (n : Nat) (s : State) : State :=
  if !sampled s n || s.stp.alarm.contains n then s
  else
    let s := srcLevel n true (onStp (fun p => { p with alarm := (upFrom 0 13).filter (fun k => k == n || p.alarm.contains k) }) s)
    recordRecognition n kindAssert s

/-- The sources recognised in one sample tick, in the order of their numbers; source 0 drives the destruction line (R340, R349).
On the cells the banks clear and ZEROIZED is written in the same step. -/
def execTamperAssert (sources : NatList) (s : State) : Result :=
  let zero := sources.contains 0 && !s.stp.alarm.contains 0
  let s1 := ((upFrom 0 13).filter (fun n => sources.contains n)).foldl (fun t n => assertSource n t) s
  .next (
    if !zero then s1
    else
      let s2 := destroy 0 s1
      if s.stp.main then s2
      else stpRecord noSource kindZeroized 0 (onKeys (fun k => { k with line := none }) s2))

/-- A source recognised clear (R337). -/
def execTamperClear (source : SrcNo) (s : State) : Result :=
  let n := source.val
  .next (
    if !sampled s n then s
    else
      let t := srcLevel n false s
      if !s.stp.alarm.contains n then t
      else recordRecognition n kindClear (onStp (fun p => { p with alarm := p.alarm.filter (fun k => !(k == n)) }) t))

/-- The start of an RTC second: each source's unwritten recognitions go into one SUPPRESSED record (R342); a source disabled
since writes none (R338). -/
def rtcSecond (s : State) : State :=
  let sup := s.stp.suppressed
  let s := onStp (fun p => { p with written := [], suppressed := [] }) s
  sup.foldl (fun t x => if srcEnabled t x.1 then srcRecord x.1 kindSuppressed x.2 t else t) s

/-- The RTC run by a number of 1/32,768 s (R344). -/
def rtcRun (units : Nat) (s : State) : State :=
  let n := s.stp.rtcSub + units
  let s1 := onStp (fun p => { p with rtcSec := (p.rtcSec + n / 32768) % 2 ^ 32, rtcSub := n % 32768 }) s
  if n < 32768 then s1 else rtcSecond s1

/-- The RTC runs on to its next second (R342). -/
def execSuppressedFlush (s : State) : Result := .next (rtcRun (32768 - s.stp.rtcSub) s)

/-- A TIME_LINK record: one RTC reading and one of network time, taken in the same tick (R343). -/
def timeLinkRecord (s : State) : State := stpRecord noSource kindTimeLink 0 (onStp (fun p => { p with linkSec := p.rtcSec }) s)

/-- Whether 86,400 RTC seconds have passed since the last TIME_LINK, across the RTC's wrap. DESIGN CHOICE (log 132): a record at the
network-time step starts them anew, and those of an outage count. -/
def linkDue (s : State) : Bool := decide (86400 ≤ (s.stp.rtcSec + 2 ^ 32 - s.stp.linkSec) % 2 ^ 32)
def execTimeLink (s : State) : Result := .next (if s.stp.main && linkDue s then timeLinkRecord s else s)

/-- Main power falls away (R343, R346): the Standpipe runs from the higher cell, and every key line is lost (R148). -/
def execMainPowerLost (s : State) : Result :=
  .next (
    if !s.stp.main then s
    else
      let (v, s) := freeVal 1 s
      let s := onKeys (fun k => { k with kslot := [], gslot := [], ime := [], internal := [], drk := none }) s
      let b := if s.stp.aOk && !s.stp.bOk then false else if s.stp.bOk && !s.stp.aOk then true else v == 1
      stpRecord noSource kindMainLost 0 (onStp (fun p => { p with main := false, fromB := b }) s))

/-- Both cells below 2.2 V without main power (R348): the Standpipe's SRAM loses its content, the next start is like a first one. DESIGN
CHOICE (log 132): the tamper settings held there return to their defaults. -/
def execBackupCellsLost (s : State) : Result :=
  .next (
    if s.stp.main then s
    else onStp (fun _ => { main := false }) s)

/-- The canary check at a start (R348). -/
def checkCanary (s : State) : State :=
  if s.stp.canary then s
  else
    let s := onStp (fun p => { p with
      log := [], nextSeq := 0, rtcSec := 0, rtcSub := 0, written := [], suppressed := [], linkSec := 0, looked := 0 }) s
    onStp (fun p => { p with canary := true }) (stpRecord noSource kindBackupLoss 0 s)

/-- The records that no start has looked at yet. -/
def newRecords (s : State) : List LogRec :=
  (s.stp.log.reverse.takeWhile (fun r => r.seq != (s.stp.looked + (2 ^ 32 - 1)) % 2 ^ 32)).reverse

/-- Those of sources written while MAIN was 0 (R347). -/
def cellRecords (s : State) : List LogRec := (newRecords s).filter (fun r => r.power % 2 == 0 && decide (r.source ≤ 12))

/-- EV_TAMPER, once, at the start after an outage (R347). -/
def cellTamper (s : State) : State :=
  let l := cellRecords s
  let s := onStp (fun p => { p with looked := p.nextSeq }) s
  match l with
  | [] => s
  | r :: _ => if l.any (fun x => attr s clsTamper x.source 4 == 1) then raise evTamper (leBytes 4 r.seq) s else s

/-- TMP_LOG_SEL (R341): the record of a SEQ loaded, or MISS. -/
def execTmpLogSelWrite (pf : Pf) (seq : W32) (s : State) : Result :=
  .next (
    if asleep s || !pcieUp s || pf == .pf1 then s
    else
      let r := s.stp.log.find? (fun x => x.seq == seq.toNat)
      onStp (fun p => { p with logSel := seq.toNat, logData := r, miss := r.isNone }) s)

/-- A read of STP_RTC_SUB latches STP_RTC_SEC, through either function (Table 13-3, R361). -/
def rtcSubWord (s : State) : Nat := s.stp.rtcSub + 0x8000 * b01 s.stp.osc
def execRtcRead (pf : Pf) (s : State) : Result :=
  .next (
    if asleep s then s
    else match pf with
      | .pf0 | .pf1 =>
        if !pcieUp s then emit (.read (leBytes 4 0xFFFFFFFF)) s
        else emit (.read (leBytes 4 (rtcSubWord s))) (onStp (fun p => { p with rtcLatch := p.rtcSec }) s))

end Sys2Proof.Machine
end

