-- ==== Sys2Proof/Machine/Time.lean ====
section
/-! DEFINITION. Network time (chapter 8): the counter and its tick, the one step, the second boundary, time-stamp queues, PPS and ToD,
and the gates' position in their lists (R217). -/

namespace Sys2Proof.Machine

open Sys2Proof

/-! Gates on network time -/

/-- (now − S) mod cycle_ns, never negative (R216). -/
def gatePos (g : Gate) (now : Nat) : Nat := if g.cycle = 0 then 0 else (((now : Int) - g.start) % (g.cycle : Int)).toNat

/-- The entry that applies at an offset into the cycle, with the entry's start. -/
def entryAt : (ofs start : Nat) → List Nat → Option (Nat × Nat)
  | _, _, [] => none
  | ofs, start, w :: r => if ofs < start + entryNs w then some (w, start) else entryAt ofs (start + entryNs w) r

/-- The gates take the states of the entry that network time stands in. -/
def applyGates (q : Nat) (s : State) : State :=
  let g := gateOf s q
  match entryAt (gatePos g (netNs s)) 0 g.oper with
  | none => s
  | some (w, _) => setPort q { portOf s q with gates := BitVec.ofNat 8 (entryGates w) } s

/-- At S the banks swap (R215): the loaded list becomes operational, and a new load is needed before the next commit. -/
def swapBanks (q : Nat) (s : State) : State :=
  let g := gateOf s q
  match g.pending with
  | none => s
  | some t => applyGates q (setGate q { oper := g.admin, cycle := g.adminCycle, start := t, admin := g.oper, adminCycle := g.cycle } s)

/-- A preemptible transmission whose gate is closed, or under a MAC hold, stops; it goes on when neither holds and no express frame
waits (R218, R219), or when preemption has ceased to be operational. -/
def regulate (q : Nat) (s : State) : State :=
  let x := portOf s q
  let now := s.time.ticks
  match x.cuttable with
  | none => s
  | some c =>
    let blocked := preemptOn s q && (!x.gates.getLsbD c || x.hold)
    match x.stopped with
    | none =>
      if blocked && decide (now < x.busyUntil) then
        countEv { group := 1, code := 5, inst := q } 1 (setPort q { x with stopped := some (x.busyUntil - now) } s)
      else s
    | some left =>
      if blocked || (preemptOn s q && expressWaits s q) then s
      else setPort q { x with stopped := none, busyUntil := max now x.expressUntil + left } s

/-- The operation of the entry that has begun (R219), issued once: a hold or a release with operational preemption. -/
def macOp (q : Nat) (s : State) : State :=
  let g := gateOf s q
  match entryAt (gatePos g (netNs s)) 0 g.oper with
  | none => s
  | some (w, at_) =>
    if g.cur = some at_ then s
    else
      let s := setGate q { g with cur := some at_ } s
      if !preemptOn s q then s
      else if entryOp w = 1 then setPort q { portOf s q with hold := true } s
      else if entryOp w = 2 then setPort q { portOf s q with hold := false } s
      else s

/-- The gates of port q brought to the present instant before anything starts, so that a gate that closes in a tick wins over what
would start in it (R219): a pending S that time has reached swaps, the entry in effect applies. -/
def gateTurn (q : Nat) (s : State) : State :=
  let s := if (gateOf s q).pending.any (fun t => decide (t ≤ netNs s)) then swapBanks q s else applyGates q s
  regulate q (macOp q s)

/-- After a step every list continues at its position of the new time (R216, R217). -/
def regate (s : State) : State := (s.traffic.gates.map (·.1)).foldl (fun s q => gateTurn q s) s

/-! The launch frame at the head (R242, R243) -/

/-- The first management frame taken off, completed with a status. -/
def popMgmt (q status : Nat) (m : MgmtFrame) (s : State) : State :=
  let x := portOf s q
  let s := setPort q { x with mgmt := x.mgmt.drop 1, launchHeld := false } s
  match m.ring with | some r => txDone r m.index status s | none => s

/-- A launch frame discarded into the Sump. -/
def loseLaunch (q : Nat) (r : Reason) (m : MgmtFrame) (s : State) : State :=
  popMgmt q r.code m (sump r { q := q, tc := some 6, tr := s.time.ticks } s)

/-- The frame at the head is to be sent without its launch time, as soon as gate and medium allow (late_launch SEND). -/
def sendLate (q : Nat) (s : State) : State :=
  let x := portOf s q
  match x.mgmt with
  | [] => s
  | m :: r => setPort q { x with mgmt := { m with launch := none, late := true } :: r, launchHeld := false } s

def launchNs (l : Nat × Nat) : Nat := l.1 * 10 ^ 9 + l.2

/-- A late launch frame: DROP or SEND. -/
def lateLaunch (q : Nat) (m : MgmtFrame) (s : State) : State :=
  if pattr s q 0x0F = 1 then sendLate q s else loseLaunch q .launchLate m s

/-- Frames that reach the head of the queue with a launch time are judged, up to one that is held. -/
def judgeHead (q : Nat) : Nat → State → State
  | 0, s => s
  | fuel + 1, s =>
    let x := portOf s q
    match x.mgmt with
    | [] => s
    | m :: _ => match m.launch with
      | none => s
      | some l =>
        if x.launchHeld then s
        else if 1536 < m.data.length + 4 then judgeHead q fuel (loseLaunch q .launchLate m s)
        else if netNs s + 10 ^ 8 < launchNs l then judgeHead q fuel (loseLaunch q .launchFar m s)
        else if launchNs l < netNs s then judgeHead q fuel (lateLaunch q m s)
        else setPort q { x with launchHeld := true } s

/-- A frame put at the end of the management queue, judged at once where it is the head. -/
def addMgmt (q : Nat) (m : MgmtFrame) (s : State) : State := judgeHead q 65 (pushMgmt q m s)

/-- After a step a held launch frame whose time lies in the past is late (R233). -/
def relaunch (q : Nat) (s : State) : State :=
  let x := portOf s q
  match x.mgmt with
  | [] => s
  | m :: _ =>
    if x.launchHeld && m.launch.any (fun l => decide (launchNs l < netNs s)) then judgeHead q 65 (lateLaunch q m s) else s

/-! The second boundary (R245) -/

/-- The WH counters copied and cleared, the time out of SYNC of an enabled sealed port counted first (R99). A STANDARD port has
nothing to count (R427); a domain that is not ON keeps what it holds (R321). -/
def latchWh (s : State) (p : Nat) (w : Wh) : Wh :=
  let on := decide (p = 48) || (sealedQ s (48 + p) && adminUp s (48 + p))
  let us := if on && w.rx.state != .sync then (s.time.ticks - w.rx.oosFrom) / 1000 else 0
  let counts := decide (p = 48) || sealedQ s (48 + p)
  if !domOn s (if p < 48 then portDom (48 + p) else 78) then w else
  { w with
    latched := if counts then { w.live with oosUs := w.live.oosUs + us } else {}
    latSec := s.time.now.sec % 2 ^ 32
    live := if counts then { defects := w.rx.defects } else {}
    rx := { w.rx with oosFrom := w.rx.oosFrom + 1000 * us } }

/-- The PERF latch (R355). -/
def latchPerf (s : State) : Perf :=
  let p := s.perf
  { p with
    lat := p.cnt
    flat := p.fix
    latSec := s.time.now.sec
    cnt := p.cnt.filter (fun x => !(attr s clsPerf x.1 9 == 1)) }

/-- The steps of R245 in order; none during a halt or a reset. PPS_OUT stays low in BOOT (Table 17-10). -/
def boundary (step : Bool) (s : State) : State :=
  if !live s then s
  else
    let sec := s.time.now.sec
    let wh := ((upFrom 0 49).map (fun p => (p, latchWh s p (tget {} s.wh p)))).filter (fun w => w.2 != {})
    let s := { s with wh := wh, perf := latchPerf s }
    let s := onTime (fun t => { t with todAt := some t.ticks }) s
    let s := if s.time.ppsOutEn && s.glb.mode != .boot then onTime (fun t => { t with ppsOut := true, ppsFallAt := t.ticks + t.ppsWidth * 10 ^ 6 }) s else s
    raise evSecond (leBytes 6 sec ++ leBytes 1 (b01 step)) s

/-- The increment of a tick in 2^-32 ns (R228). -/
def tickUnits (s : State) : Nat := ((2 : Int) ^ 32 + s.time.adj.toInt).toNat

/-- 10^9 ns in 2^-32 ns. -/
def secondUnits : Nat := 10 ^ 9 * 2 ^ 32

/-- Whether the clock stands at zero: no main power, or a reset that clears PD_TIME in effect (R228). -/
def clockHeld (s : State) : Bool := !s.stp.main || (s.glb.inReset && !s.glb.warm)

/-- n ticks counted, and the real-time clock with them (R344): on the ring oscillator by a free number within 20 % of what the crystal
would make (R345). -/
def countTicks (n : Nat) (s : State) : State :=
  let rtc := (s.time.ticks + n) * 32768 / 10 ^ 9 - s.time.ticks * 32768 / 10 ^ 9
  let (v, s) := if s.stp.osc then (let (v, t) := freeVal 64 s; (v.toNat, t)) else (rtc / 5, s)
  let rtc := rtc - rtc / 5 + v % (2 * (rtc / 5) + 1)
  rtcRun rtc (onTime (fun t => { t with ticks := t.ticks + n }) s)

/-- The counter run by n TIME ticks that hold at most one second boundary (R228). -/
def runFree (n : Nat) (s : State) : State :=
  let u := s.time.now.sub + n * tickUnits s
  let s1 := countTicks n s
  if u < secondUnits then onTime (fun t => { t with now := { t.now with sub := u } }) s1
  else boundary false (onTime (fun t => { t with now := { sec := (t.now.sec + 1) % 2 ^ 48, sub := u - secondUnits } }) s1)

/-- Network time takes the step target (R231, R233); the step is spent and makes one second boundary with STEP. -/
def makeStep (sec ns : Nat) (s : State) : State :=
  let s := onTime (fun t => { t with
    now := { sec := sec, sub := ns * 2 ^ 32 }, spent := true, armed := none, stepGo := none }) s
  let s := regate s
  let s := (s.traffic.ports.map (·.1)).foldl (fun s q => relaunch q s) s
  timeLinkRecord (boundary true s)

/-- The clock run by n ns; a step that waits is made at the first tick. Where network time is held only the RTC counts. -/
def runTicks (n : Nat) (s : State) : State :=
  if n = 0 then s
  else if clockHeld s then countTicks n s
  else match s.time.stepGo with
    | some (sec, ns) =>
      let s := makeStep sec ns (countTicks 1 s)
      if n = 1 then s else runFree (n - 1) s
    | none => runFree n s

/-! Transmit time-stamp queues (R239 to R241) -/

def tsqOf (s : State) (q : Nat) : Tsq := tget {} s.traffic.tsq q
def setTsq (q : Nat) (x : Tsq) (s : State) : State := onTraffic (fun t => { t with tsq := tset {} t.tsq q x }) s

/-- An entry pushed into a time-stamp queue; at a full one it waits for the end of its tick. -/
def pushStamp (q ident : Nat) (t : Stamp) (s : State) : State :=
  let x := tsqOf s q
  let e : TsEntry := { ident := ident, time := t }
  if x.entries.length < 16 then
    countEv { group := 8, code := 1, inst := q } 1 (countFix 62 1 (setTsq q { x with entries := x.entries ++ [e] } s))
  else setTsq q { x with waiting := x.waiting ++ [e] } s

/-- An entry lost at a full queue (R240). -/
def loseStamp (q : Nat) (e : TsEntry) (s : State) : State :=
  let x := tsqOf s q
  let s := countEv { group := 8, code := 2, inst := q } 1
    (setTsq q { x with ovf := true, lost := min 0xFFFF (x.lost + 1), firstLost := if x.ovf then x.firstLost else e.ident } s)
  if x.ovf then s else raise evTsOvf (leBytes 1 q ++ leBytes 2 e.ident) s

/-- The entries that met a full queue in the tick that ends are lost. -/
def loseStamps (q : Nat) (s : State) : State :=
  let x := tsqOf s q
  x.waiting.foldl (fun s e => loseStamp q e s) (setTsq q { x with waiting := [] } s)

def settleStamps (s : State) : State :=
  ((s.traffic.tsq.filter (fun p => !p.2.waiting.isEmpty)).map (·.1)).foldl (fun s q => loseStamps q s) s

/-- The flip of a channel's phase (R50): a FROZEN channel is ACTIVE again (R48), and the old slot stays for receive; what is
installed then never becomes current by a later switch. -/
def switchSlot (c : Nat) (s : State) : State :=
  let x := chanOf s c
  let stale (n : Nat) (s : State) : State := putK n { kslotOf s n with fresh := false } s
  let s := stale (2 * c + 1) (stale (2 * c) s)
  let s := setChan c { x with
    phase := !x.phase, superseded := true, switchedAt := s.time.ticks, switching := false
    state := if x.state = .frozen then .active else x.state } s
  touch (mirObj clsChan c) s

/-- An accepted switch is made between two dispatches (R50); where its slot is gone by then there is nothing to switch to. -/
def flip (s : State) (c : Nat) : State :=
  let n := kslotOf s (nextSlot s c)
  if n.state = .valid ∧ n.fresh = true then switchSlot c s else setChan c { chanOf s c with switching := false } s

/-- Every accepted switch made. -/
def flipAll (s : State) : State :=
  if live s then ((s.traffic.chans.filter (fun p => p.2.switching)).map (·.1)).foldl flip s else s

/-- Time that passes: what was left to the end of the present tick, the clock, then the switches accepted before it (R50, R52: within 2 µs; here in the next tick, log 57). -/
def pass (n : Nat) (s : State) : State := if n = 0 then s else flipAll (runTicks n (settleStamps s))

/-- One TIME tick: what an empty queue does. -/
def tick (s : State) : State := pass 1 s

/-- The clock runs on to the next second boundary (R245), which is that of a step where one waits. -/
def execSecondBoundary (s : State) : Result :=
  .next (pass (if s.time.stepGo.isSome then 1 else cdiv (secondUnits - s.time.now.sub) (tickUnits s)) s)

/-! The one step (R231 to R233) -/

/-- Whether an armed step has lapsed: 2 s after GO without an edge. -/
def stepLapsed (s : State) : Bool := s.time.armed.isSome && passed s s.time.armedAt (2 * 10 ^ 9)

/-- An armed step that has lapsed is disarmed. -/
def lapse (s : State) : State := if stepLapsed s then onTime (fun t => { t with armed := none, stepRej := true }) s else s

/-- A step armed for the next edge. -/
def armStep (sec ns : Nat) (s : State) : State := onTime (fun t => { t with armed := some (sec, ns), armedAt := t.ticks }) s

/-- A step to be made at the next tick. DESIGN CHOICE (log 121): of two within one tick the later counts; the spec has a step judged by
STEP_SPENT and ARMED alone, neither of which is set before that tick. -/
def goStep (sec ns : Nat) (s : State) : State := onTime (fun t => { t with stepGo := some (sec, ns) }) s

/-- A write of TIME_STEP_CTRL: AT_PPS is stored, CANCEL disarms, and GO is judged on ARMED as it stood before (R232). -/
def stepCtrl (atPps go cancel : Bool) (s : State) : State :=
  let s := lapse s
  let wasArmed := s.time.armed
  let s := onTime (fun t => { t with atPps := atPps, armed := if cancel then none else t.armed }) s
  if !go then s
  else if s.time.spent || wasArmed.isSome || decide (10 ^ 9 ≤ s.time.stepNs) then onTime (fun t => { t with stepRej := true }) s
  else if atPps then armStep s.time.stepSec s.time.stepNs s
  else goStep s.time.stepSec s.time.stepNs s

/-- Whether a PF0 write reaches a register block; PF1 writes are dropped (R361). -/
def written (pf : Pf) (s : State) : Bool := pf == .pf0 && !asleep s && pcieUp s

def execStepGo (pf : Pf) (cancel : Bool) (s : State) : Result :=
  .next (if written pf s then stepCtrl false true cancel s else s)

def execStepArm (pf : Pf) (cancel : Bool) (s : State) : Result :=
  .next (if written pf s then stepCtrl true true cancel s else s)

def execStepCancel (pf : Pf) (atPps : Bool) (s : State) : Result :=
  .next (if written pf s then stepCtrl atPps false true s else s)

/-- No edge within 2 s of GO: the step lapses (R231). -/
def execStepLapse (s : State) : Result := .next (if asleep s then s else lapse s)

/-- SYS.TIME_STEP (R232). -/
def execSysTimeStep (mb : Mb) (seconds ns atPps : Nat) (s : State) : Result :=
  request offOpr [] mb.val (fun _ s =>
    let s := lapse s
    if 2 < atPps then deny .badValue s
    else if atPps = 2 then done [] (onTime (fun t => { t with armed := none }) s)
    else if s.time.spent || s.time.armed.isSome then deny .stepSpent s
    else if 10 ^ 9 ≤ ns then deny .badValue s
    else done [] (if atPps = 1 then armStep seconds ns s else goStep seconds ns s)) s

/-! Registers with an effect -/

/-- A read of TIME_NOW_NS latches the reading function's snapshot (R229). -/
def execTimeNowRead (pf : Pf) (s : State) : Result :=
  .next (
    if asleep s then s
    else if !pcieUp s then emit (.read (leBytes 4 0xFFFFFFFF)) s
    else
      let s := onTime (fun t => match pf with | .pf0 => { t with snap0 := t.now } | .pf1 => { t with snap1 := t.now }) s
      emit (.read (leBytes 4 s.time.now.ns)) s)

/-- TIME_INCR (R230): within ±1,000 ppm from the next tick, otherwise INCR_REJ. -/
def execTimeIncrWrite (pf : Pf) (adj : W32) (s : State) : Result :=
  .next (
    if !written pf s then s
    else if -4294967 ≤ adj.toInt ∧ adj.toInt ≤ 4294967 then onTime (fun t => { t with adj := adj }) s
    else onTime (fun t => { t with incrRej := true }) s)

/-! Time-stamps (R235 to R241) -/

/-- A reading moved by an integer of 2^-32 ns. -/
def Stamp.shift (t : Stamp) (d : Int) : Stamp :=
  let n := ((t.sec * secondUnits + t.sub : Nat) : Int) + d
  let m := (n % ((2 ^ 48 * secondUnits : Nat) : Int)).toNat
  { sec := m / secondUnits, sub := m % secondUnits }

/-- Fixed corrections of Table 8-5 in tenths of ns: transmit, receive. -/
def fixedCorr (speed : Nat) (sealed : Bool) : Nat × Nat :=
  match sealed, speed with
  | false, 3 => (384, 1182) | false, 2 => (416, 1319) | false, 1 => (523, 1604) | false, _ => (701, 2148)
  | true, 3 => (360, 1205) | true, 2 => (392, 1341) | true, 1 => (498, 1627) | true, _ => (675, 2170)

/-- The fixed corrections of port q; 96 is the mated link, a sealed 400G port (R285). -/
def portCorr (s : State) (q : Nat) : Nat × Nat := if 96 ≤ q then fixedCorr 2 true else fixedCorr (pattr s q 2) (sealedQ s q)

/-- A transmit stamp of port q: Table 8-5 added, and the board correction in picoseconds (R236). -/
def txStamp (s : State) (q : Nat) (t : Stamp) : Stamp :=
  t.shift ((portCorr s q).1 * 2 ^ 32 / 10 + (tsqOf s q).corrTx.toInt * 2 ^ 32 / 1000)

/-- A receive stamp of port q: Table 8-5 subtracted, the board correction added. -/
def rxStamp (s : State) (q : Nat) (t : Stamp) : Stamp :=
  t.shift (-(((portCorr s q).2 * 2 ^ 32 / 10 : Nat) : Int) + (tsqOf s q).corrRx.toInt * 2 ^ 32 / 1000)

/-- Whether the registers of port q's MAC group are reached: its domain is ON (R422). -/
def tsqReached (s : State) (q : Nat) : Bool := domOn s (portDom q) && !fusedQ s q

/-- A POP removes the head entry; an entry that met the full queue in this tick then finds room (R241). -/
def execTsqPop (pf : Pf) (q : Port) (s : State) : Result :=
  .next (
    if written pf s && tsqReached s q.val then
      let x := tsqOf s q.val
      let s := setTsq q.val { x with entries := x.entries.drop 1, waiting := [] } s
      x.waiting.foldl (fun s e => pushStamp q.val e.ident e.time s) s
    else s)

/-! PPS and ToD (R246 to R249) -/

/-- A PPS_IN rising edge: captured with IN_EN, and an armed step is made in its tick. -/
def execPpsInEdge (s : State) : Result :=
  .next (
    if asleep s then s
    else
      let s := lapse s
      let t0 := s.time.now
      let armed := s.time.armed
      let s := match armed with | some (sec, ns) => makeStep sec ns s | none => s
      let stamp := if armed.isSome then s.time.now else t0
      if s.time.ppsInEn then
        onTime (fun t => { t with ppsin := stamp, ppsinNew := true, ppsinOvr := t.ppsinOvr || t.ppsinNew }) s
      else s)

/-- PPS_OUT falls WIDTH_MS after the boundary that raised it, or prolonged it. -/
def execPpsOutFall (s : State) : Result :=
  .next (if asleep s || decide (s.time.ticks < s.time.ppsFallAt) then s else onTime (fun t => { t with ppsOut := false }) s)

/-- The check of a ToD message: the CRC of R69 from 0xFFFF over bytes 0 to 13. -/
def todCheck (m : Bytes) : Nat := crc16 0xFFFF (octets (m.take 14))

/-- The ToD message for the next edge (Table 8-9). -/
def todMessage (s : State) : Bytes :=
  let c := s.time.todCtrl.toNat
  let flags := b01 (bit c 8) + 2 * b01 (bit c 9) + 4 * b01 (bit c 10)
  let m := beBytes 2 0x5854 ++ beBytes 1 1 ++ beBytes 1 flags ++ beBytes 6 ((s.time.now.sec + 1) % 2 ^ 48) ++ beBytes 2 (bits c 31 16)
    ++ beBytes 2 0
  m ++ beBytes 2 (todCheck m)

/-- A ToD message is sent 200 ms after each boundary with OUT_EN; TOD_TX stays high through a halt and in BOOT (Tables 10-5, 17-10). -/
def execTodSend (s : State) : Result :=
  .next (
    if live s && s.time.todAt.any (fun t => passed s t (2 * 10 ^ 8)) then
      let s := onTime (fun t => { t with todAt := none }) s
      if bit s.time.todCtrl.toNat 0 && s.glb.mode != .boot then emit (.tod (todMessage s)) s else s
    else s)

/-- A ToD message received with IN_EN (R249). -/
def execTodReceive (message : Bytes) (gapOk : Bool) (s : State) : Result :=
  .next (
    if asleep s || !bit s.time.todCtrl.toNat 1 then s
    else if gapOk && decide (message.length = 16) && beAt message 0 2 == 0x5854 && beAt message 2 1 == 1
        && beAt message 14 2 == todCheck message then
      onTime (fun t => { t with todin := message, todinNew := true }) s
    else onTime (fun t => { t with todinBad := true }) s)

end Sys2Proof.Machine
end

