-- ==== Sys2Proof/Machine/Exchange.lean ====
section
/-! DEFINITION. Link keys and sessions of the Wellhead (R71 to R75) and the pairing exchange that runs over the mated link (R285 to
R287). Wellhead 48 is that of the mated link. -/

namespace Sys2Proof.Machine

open Sys2Proof

def whOf (s : State) (p : Nat) : Wh := tget {} s.wh p
def setWh (p : Nat) (w : Wh) (s : State) : State := { s with wh := tset {} s.wh p w }
def onTx (p : Nat) (f : WhTx → WhTx) (s : State) : State := setWh p { whOf s p with tx := f (whOf s p).tx } s
def onRx (p : Nat) (f : WhRx → WhRx) (s : State) : State := setWh p { whOf s p with rx := f (whOf s p).rx } s
def onLive (p : Nat) (f : WhCnt → WhCnt) (s : State) : State := setWh p { whOf s p with live := f (whOf s p).live } s

/-! Link keys (Table 3-2) -/

/-- The role byte: 0x41 for A, 0x42 for B. -/
def roleByte (r : Nat) : Nat := 0x41 + r % 2

def annKey (master : Key) (linkId role : Nat) : NatList :=
  kdf (keyOctets master) (octets (ascii "XSEAL-ANN")) (beOct 4 linkId ++ [roleByte role]) 256

/-- The keys of one direction and epoch (Table 3-2), with their salts. -/
structure LinkKeys where
  hdr : Key := 0
  hsalt : BitVec 32 := 0
  ctl : Key := 0
  csalt : Salt := 0
  deriving DecidableEq, Repr

/-- The keys of an epoch of one direction. -/
def linkKeys (master : Key) (linkId role : Nat) (nonce : W64) (epoch : Nat) : LinkKeys :=
  let ctx := beOct 4 linkId ++ roleByte role :: beOct 8 nonce.toNat ++ beOct 4 epoch
  let k (label : String) (l : Nat) : NatList := kdf (keyOctets master) (octets (ascii label)) ctx l
  { hdr := keyOf (k "XSEAL-HDR" 256)
    hsalt := BitVec.ofNat 32 (natBe (k "XSEAL-HSALT" 32))
    ctl := keyOf (k "XSEAL-CTL" 256)
    csalt := BitVec.ofNat 96 (natBe (k "XSEAL-CSALT" 96)) }

/-! Link keys in the key store (R73, R137): the master, and K_hdr and K_ctl of each direction for even and for odd epochs -/

def handleMaster (p : Nat) : Nat := linkBase + 16 * p

/-- K_hdr or K_ctl of Wellhead p, of its receiver or its transmitter, in odd or even epochs. -/
def handleLink (p : Nat) (rx odd ctl : Bool) : Nat := linkBase + 16 * p + 1 + 4 * b01 rx + 2 * b01 odd + b01 ctl

def masterOf (s : State) (p : Nat) : Key := lineKey (tget {} s.keys.internal (handleMaster p))
def hasMaster (s : State) (p : Nat) : Bool := tget {} s.keys.internal (handleMaster p) != {}

def oddEpoch (e : Nat) : Bool := decide (e % 2 = 1)

/-- The salts of a direction in odd or even epochs. -/
def saltsOf (s : State) (p : Nat) (rx odd : Bool) : LinkSalts :=
  match rx, odd with
  | false, false => (whOf s p).tx.salt0 | false, true => (whOf s p).tx.salt1
  | true, false => (whOf s p).rx.salt0 | true, true => (whOf s p).rx.salt1

/-- The keys of a direction in odd or even epochs as held. -/
def keysOf (s : State) (p : Nat) (rx odd : Bool) : LinkKeys :=
  { hdr := lineKey (tget {} s.keys.internal (handleLink p rx odd false)), hsalt := (saltsOf s p rx odd).hsalt
    ctl := lineKey (tget {} s.keys.internal (handleLink p rx odd true)), csalt := (saltsOf s p rx odd).csalt }

/-- The keys of the present epoch. -/
def txKeys (s : State) (p : Nat) : LinkKeys := keysOf s p false (oddEpoch (whOf s p).tx.epoch)
def rxKeys (s : State) (p : Nat) : LinkKeys := keysOf s p true (oddEpoch (whOf s p).rx.epoch)

/-- Whether the key lines of a direction and epoch pass their check (R165); no line is held before a session. -/
def linkGood (s : State) (p : Nat) (rx odd : Bool) : Bool :=
  [false, true].all (fun c => let l := tget {} s.keys.internal (handleLink p rx odd c); lineOk l || l == {})

/-- Derived keys loaded for a direction in odd or even epochs (R73). -/
def holdKeys (p : Nat) (rx odd : Bool) (k : LinkKeys) (s : State) : State :=
  let s := putKeyed (handleLink p rx odd true) k.ctl (putInternal (handleLink p rx odd false) k.hdr s)
  let x : LinkSalts := { hsalt := k.hsalt, csalt := k.csalt }
  match rx, odd with
  | false, false => onTx p (fun t => { t with salt0 := x }) s
  | false, true => onTx p (fun t => { t with salt1 := x }) s
  | true, false => onRx p (fun r => { r with salt0 := x }) s
  | true, true => onRx p (fun r => { r with salt1 := x }) s

/-- The keys of the transmitter's or of the receiver's next epoch e derived and held (R75). -/
def deriveTx (p e : Nat) (s : State) : State :=
  let t := (whOf s p).tx
  holdKeys p false (oddEpoch e) (linkKeys (masterOf s p) t.linkId t.role t.nonce e) (onTx p (fun x => { x with next := true }) s)
def deriveRx (p e : Nat) (s : State) : State :=
  let t := (whOf s p).tx
  holdKeys p true (oddEpoch e) (linkKeys (masterOf s p) t.linkId (1 - t.role) (whOf s p).rx.nonce e)
    (onRx p (fun x => { x with next := true }) s)

/-- Every link key of a Wellhead destroyed. -/
def dropLink (p : Nat) (s : State) : State := (upFrom (handleMaster p) 9).foldl (fun s h => dropInternal h s) s

/-! Control messages on their way (R90, R103) -/

/-- A control message given to the array to be sealed. -/
def queueCtl (p : Nat) (m : CtlMsg) (s : State) : State := addReq { kind := .seal p m } s

/-- Whether a request seals a control message of Wellhead p that a test admits. -/
def sealsFor (p : Nat) (f : CtlMsg → Bool) (r : Req) : Bool :=
  match r.kind with | .seal k m => k == p && f m | _ => false

def sealMsg (r : Req) : Option CtlMsg := match r.kind with | .seal _ m => some m | _ => none

/-- The control messages of a Wellhead whose sealing no longer counts, under a new session or epoch, are sealed again where a test
admits them, and are lost otherwise (log 107). -/
def sealAgain (p : Nat) (f : CtlMsg → Bool) (s : State) : State :=
  let mine := s.reqs.filter (fun x => sealsFor p (fun _ => true) x.2)
  let msgs := ((whOf s p).tx.ready.map (·.2) ++ mine.filterMap (fun x => sealMsg x.2)).filter f
  let s := (mine.map (·.1)).foldl (fun s id => dropReq id s) s
  msgs.foldl (fun s m => queueCtl p m s) (onTx p (fun t => { t with ready := [] }) s)

/-! Sessions (R74) -/

/-- The bytes of EV_LOD and EV_RDI: the port as numbered in R203, 96 for the mated link. -/
def lodData (p cause : Nat) (on : Bool) : Bytes := leBytes 1 (48 + p) ++ leBytes 1 cause ++ leBytes 1 (b01 on)

/-- Sealed frames on their way into cells discarded with a reason. -/
def dropSegs (p : Nat) (r : Reason) (which : Seg → Bool) (s : State) : State :=
  let s := ((whOf s p).tx.segs.filter which).foldl (fun s g =>
    sump r { q := ingressQ s g.chan .enc, chan := some (g.chan, .enc), tc := some g.tc, fid := some (g.req % 2 ^ 20), tr := g.tr,
             place := g.req / 2 ^ 20 } s) s
  onTx p (fun t => { t with segs := t.segs.filter (fun g => !which g) }) s

/-- Sealed frames whose sending had begun when a session ends are lost with LINK_DOWN. -/
def cutSegs (p : Nat) (s : State) : State := dropSegs p .linkDown (fun g => g.opened) s

/-- Every frame in the device discarded with a reason, those at the Wellheads with it. -/
def discardQueued (r : Reason) (s : State) : State :=
  (upFrom 0 48).foldl (fun s p => dropSegs p r (fun _ => true) s) (discardAll r (fun _ => true) s)

/-! Ports that go down (R432) -/

/-- Frames that R432 discards at once: accepted for port q and not in the array. -/
def atPort (q : Nat) (f : Frame) : Bool :=
  f.egress == q && !f.shadow && (match f.stage with | .inCluster _ => false | _ => true)

/-- A port that leaves service: the frames queued for it are discarded with a reason, those in the array when their results are
released. Of a sealed port, the frames at the Wellhead that a test admits go with them. -/
def dropQueued (q : Nat) (r : Reason) (which : Seg → Bool) (s : State) : State :=
  let s := discardAll r (atPort q) s
  let s := if sealedQ s q then dropSegs (q - 48) r which s else s
  onTraffic (fun t => { t with frames := t.frames.map (fun p =>
    (p.1, if p.2.egress = q ∧ !p.2.shadow then { p.2 with doomed := some r } else p.2)) }) s

/-- The link of a port goes down, for a reason: a frame in transmission is lost with it. -/
def linkLost (q : Nat) (r : Reason) (s : State) : State :=
  let x := portOf s q
  dropQueued q r (fun _ => true)
    (setPort q { x with link := false, preemptOper := false, hold := false, busyUntil := 0, cuttable := none, stopped := none } s)

def linkOff (q : Nat) (s : State) : State := linkLost q .linkDown s

/-- A session begins under a master: a new nonce, SEQ and epoch 0, an announce in its first cell. Messages of transmit rings wait for
the new session; heartbeats, RDI and MKPDUs not yet sent are lost. -/
def beginSession (p : Nat) (master : Key) (linkId role : Nat) (s : State) : State :=
  let s := cutSegs p s
  let s := sealAgain p (fun m => m.ring.isSome) s
  let (n, s) := draw 64 s
  let s := putInternal (handleMaster p) master s
  let s := onTx p (fun t => { t with
    running := true, nonce := n, linkId := linkId, role := role, epoch := 0, seq := 0, next := false, ctlPn := 1, heartbeat := 0
    announceDue := true }) s
  holdKeys p false false (linkKeys master linkId role n 0) s

/-- The session start of a line port (R72): the check of the link master's slot as a DERIVE use by INTERNAL and CP, then the
session. While an entropy failure is held no nonce is drawn (R162). DESIGN CHOICE (log 108): a 128-bit key in the slot, which R72 does
not expect, is zero-extended as R137 holds it. -/
def startSession (p : Nat) (s : State) : Option Status × State :=
  let g := attr s clsLink p 1
  match useG g useDerive .internal mCp false s with
  | (some st, s) => (some st, s)
  | (none, s) =>
    if s.keys.entropyHeld then (some .busy, s)
    else match readG g s with
      | (none, s) => (some .keyInvalid, s)
      | (some key, s) => (none, beginSession p (keyOf key) (attr s clsLink p 2) (attr s clsLink p 3) s)

/-- The receiver of a port starts afresh in HUNT. Its defects keep their values: R96 and R97 name what clears them. DESIGN CHOICE
(log 109): this start is no entry into HUNT for WH_HUNT, which counts those from another state. -/
def freshRx (p : Nat) (s : State) : State :=
  let now := s.time.ticks
  onRx p (fun r => { oosFrom := now, since := now, lastCtl := now, lastRdi := now, lod := r.lod, lhb := r.lhb, rdi := r.rdi }) s

/-! The mated link -/

def mateLinkId : Nat := 0x50414952

/-- Something put off until a held entropy failure ends (R162). -/
def defer (d : Deferred) (s : State) : State :=
  onKeys (fun k => { k with deferred := k.deferred.filter (fun x => x != d) ++ [d] }) s

/-- The mated link starts a session: the bootstrap master until the exchange has given the pair its own (R287). While an entropy
failure is held it waits (R162). -/
def startMate (s : State) : State :=
  if s.keys.entropyHeld then defer .mate s else
  let l := tget {} s.keys.internal handlePairLink
  freshRx 48 (beginSession 48 (lineKey l) (if l = {} then 0 else mateLinkId) (b01 (roleB s)) s)

/-- The mated link stops: its domain is off or the binding gone. -/
def stopMate (s : State) : State := dropLink 48 (onPair (fun p => { p with linkUp := false }) (setWh 48 {} s))

/-! The pairing exchange -/

/-- 1,088 bytes of ciphertext and 97 of ephemeral key in two PAIR_PART messages, numbered from 1 (log 30). -/
def sendParts (b : Bytes) (s : State) : State :=
  let part (i : Nat) (d : Bytes) : State → State := mate 0x1A (beBytes 1 i ++ beBytes 1 2 ++ beBytes 2 d.length ++ d)
  part 2 (b.drop 960) (part 1 (b.take 960) s)

/-- This device's contribution: an encapsulation to the partner and a fresh ephemeral key; while an entropy failure is held it waits
(R162). -/
def beginExchange (s : State) : State :=
  if s.keys.entropyHeld then defer .exchange s else
  match s.nvm.binding with
  | none => s
  | some b =>
    let (m, s) := draw 256 s
    let (v, s) := draw 448 s
    let d := v.toNat % (p384N - 1) + 1
    let (shared, ct) := kemEncaps (octets b.ek) (keyOctets m)
    let own := ofOctets ct ++ ofOctets (pointOctets (ecMul d (some (p384Gx, p384Gy))))
    sendParts own (onPair (fun p => { p with
      state := .pairing, exch := { ct := own, eph := d, secret := keyOf shared }, exchAt := s.time.ticks }) s)

/-- The partner's contribution has arrived whole: K_pair, its context and what derives from it; none where a point is bad. -/
def pairKeyOf (s : State) : Option (NatList × NatList) :=
  match s.nvm.binding with
  | none => none
  | some b =>
    let x := s.pair.exch
    let ctT := x.theirs.take 1088
    let qT := x.theirs.drop 1088
    match pointOf (octets b.point), pointOf (octets qT) with
    | some pS, some pE =>
      let own := (keyOctets x.secret, (ecdh x.eph pS).take 32)
      let their := (kemDecaps (beOct 64 (importSeed s).toNat) (octets ctT), (ecdh (importScalar s) pE).take 32)
      let r := roleB s
      let ab (o t : Bytes) : NatList := if r then octets t ++ octets o else octets o ++ octets t
      let ctx := ab (beBytes 8 (deviceId s)) (beBytes 8 b.id.toNat) ++ ab (x.ct.take 1088) ctT ++ ab (x.ct.drop 1088) qT
      let ka := if r then their else own
      let kb := if r then own else their
      let one (k : NatList) (label : String) : Nat := natBe (kdf k (octets (ascii label)) ctx 256)
      let k := one ka.1 "XPAIR-KA" ^^^ one kb.1 "XPAIR-KB" ^^^ one ka.2 "XPAIR-EA" ^^^ one kb.2 "XPAIR-EB"
      some (beOct 32 k, ctx)
    | _, _ => none

/-- The tag of a PAIR_CONFIRM sent by a role. -/
def confirmTag (s : State) (k ctx : NatList) (byB : Bool) : Nat :=
  let other := match s.nvm.binding with | some b => b.id.toNat | none => 0
  let ids := if roleB s then beOct 8 other ++ beOct 8 (deviceId s) else beOct 8 (deviceId s) ++ beOct 8 other
  natBe (cmac (kdf k (octets (ascii "XPAIR-CONF")) ctx 256) (roleByte (b01 byB) :: ids))

/-- A PAIR_PART (Table 10-7): the parts of one contribution in order; with the last, K_pair is formed and PAIR_CONFIRM sent. -/
def takePart (part total : Nat) (d : Bytes) (s : State) : State :=
  let x := s.pair.exch
  if x.ct.isEmpty || total != 2 || part != x.parts + 1 then s
  else
    let s := onPair (fun p => { p with exch := { x with theirs := x.theirs ++ d, parts := part } }) s
    if part < 2 ∨ s.pair.exch.theirs.length ≠ 1185 then s
    else if !rootGood s then halt haltKeyState s
    else match pairKeyOf s with
      | none => s
      | some (k, ctx) =>
        mate 0x1B (beBytes 16 (confirmTag s k ctx (roleB s)))
          (onPair (fun p => { p with exch := { p.exch with pairKey := some (keyOf k) } }) s)

/-- A PAIR_CONFIRM: once it verifies, the pair keys are derived and the mated link restarts under them; the pair is SYNCING until the
first full synchronisation. -/
def takeConfirm (tag : Nat) (s : State) : State :=
  if lineDriven s then s else
  match s.pair.exch.pairKey, pairKeyOf s with
  | some _, some (k, ctx) =>
    if confirmTag s k ctx (!roleB s) ≠ tag then s
    else
      let s := putInternal handlePairWrap (keyOf (kdf k (octets (ascii "XPAIR-WRAP")) ctx 256)) s
      let s := putInternal handlePairLink (keyOf (kdf k (octets (ascii "XPAIR-LINK")) ctx 256)) s
      startMate (onPair (fun p => { p with
        linkUp := false, exch := {}, state := if p.synced then .notReady else .syncing }) s)
  | _, _ => s

/-- The mated link has keyed (R95): a fence ends, the exchange runs, or the paired device synchronises. A lease kept without renewals is
renewed again from here on. -/
def mateKeyed (s : State) : State :=
  let now := s.time.ticks
  let s := onPair (fun p => { p with
    linkUp := true, everKeyed := true, partnerHalted := false, alone := false, keyedAt := now
    leaseEnd := if p.alone then now + 1000 * pairAttr s 6 else p.leaseEnd
    lease := if p.lease = .fenced then .none else p.lease }) s
  if !paired s then s
  else if pairKeyed s then settle s (mate 0x18 (stateMsg s) (sendAll s))
  else beginExchange s

/-- The mated link has left SYNC: the partner counts as lost, and a new exchange runs over a bootstrap session. What the partner had
acknowledged counts no more, since it may have started anew. -/
def mateLost (s : State) : State :=
  let s := onPair (fun p => { p with linkUp := false, exch := {}, acked := [], markSent := [], markAcked := [], batches := [] }) s
  if !paired s || !pairKeyed s then s
  else
    let s := losePartner s
    startMate (dropInternal handlePairLink (dropInternal handlePairWrap s))

end Sys2Proof.Machine
end

