-- ==== Sys2Proof/Machine/Fec.lean ====
section
/-! DEFINITION. The octet stream of a sealed port in FEC codewords (R64, R65). PRESUMED (log 103): the RS(544,514) code of IEEE 802.3,
which R64 names and does not restate. -/

namespace Sys2Proof.Machine

open Sys2Proof

/-- Multiplication by x in GF(2^10) with the polynomial x^10 + x^3 + 1. -/
def gfDouble (a : Nat) : Nat := if a.testBit 9 then ((a <<< 1) ^^^ 0x409) % 1024 else a <<< 1

def gfMulStep : Nat → (a b z : Nat) → Nat
  | 0, _, _, z => z
  | k + 1, a, b, z => gfMulStep k (gfDouble a) (b / 2) (if b % 2 = 1 then z ^^^ a else z)

/-- The product in GF(2^10). -/
def gfMul (a b : Nat) : Nat := gfMulStep 10 a b 0

/-- A polynomial, highest coefficient first, times x + r. -/
def polyTimes (p : NatList) (r : Nat) : NatList := List.zipWith (· ^^^ ·) (p ++ [0]) (0 :: p.map (gfMul r))

/-- The generator polynomial: the product of x + α^j for j = 0 to 29, highest coefficient first. -/
def rsGen : (n root : Nat) → NatList → NatList
  | 0, _, p => p
  | n + 1, root, p => rsGen n (gfDouble root) (polyTimes p root)

/-- The 30 parity symbols of a message. -/
def rsParity (gen : NatList) (message : NatList) : NatList :=
  message.foldl (fun (r : NatList) (m : Nat) =>
    let f := m ^^^ nth 0 r 0
    List.zipWith (· ^^^ ·) (r.drop 1 ++ [0]) ((gen.drop 1).map (gfMul f))) (List.replicate 30 0)

/-- A codeword: 514 message symbols and their parity. -/
def rsEncode (message : NatList) : NatList := message ++ rsParity (rsGen 30 1 [1]) message

/-- The bits of an octet, the most significant first (R65). -/
def octetBits (b : Byte) : List Bool := [7, 6, 5, 4, 3, 2, 1, 0].map (fun i => b.getLsbD i)

/-- n symbols of ten message bits each, the first bit the least significant. -/
def symbols : Nat → List Bool → NatList
  | 0, _ => []
  | n + 1, l => (l.take 10).foldr (fun b a => 2 * a + b01 b) 0 :: symbols n (l.drop 10)

/-- An octet placed in the message bits; a group of alignment markers goes first where one is due. -/
def fecOctet (speed : Nat) (f : Fec) (b : Byte) : Fec :=
  let o := octetBits b
  if f.groups = 0 ∨ Config.amOctets speed ≤ f.since then
    { bits := f.bits ++ Config.amGroup speed f.groups f.span ++ o, since := 1, groups := f.groups + 1, span := o.reverse }
  else { f with bits := f.bits ++ o, since := f.since + 1, span := o.reverse ++ f.span }

/-- Codewords that are interleaved at a port speed, and FEC lanes (codes 0 to 3: 100, 200, 400 and 800 Gb/s). -/
def fecWays (speed : Nat) : Nat := nth 1 [1, 2, 2, 4] speed
def fecLanes (speed : Nat) : Nat := nth 4 [4, 8, 16, 32] speed

/-- The symbols of message k of n that share a stream of symbols in turn. -/
def everyNth (n k : Nat) (l : NatList) : NatList := (upFrom 0 514).map (fun i => nth 0 l (n * i + k))

/-- The symbols of FEC lane l: of one codeword in turn, or of two that change places from row to row; 800 Gb/s has two such flows. -/
def fecLane (ways lanes : Nat) (words : List NatList) (l : Nat) : NatList :=
  if ways = 1 then (upFrom 0 (544 / lanes)).map (fun k => nth 0 (nth [] words 0) (lanes * k + l))
  else
    let half := min lanes 16 / 2
    (upFrom 0 (544 / half)).map (fun k => nth 0 (nth [] words (2 * (l / 16) + (l + k) % 2)) (half * k + l % 16 / 2))

/-- Message bits of interleaved codewords encoded and distributed to the lanes. -/
def fecBlock (speed : Nat) (l : List Bool) : List NatList :=
  let n := fecWays speed
  let m := symbols (514 * n) l
  let words := (upFrom 0 n).map (fun k => rsEncode (everyNth n k m))
  (upFrom 0 (fecLanes speed)).map (fecLane n (fecLanes speed) words)

/-- The whole groups of codewords among the message bits, by lane, and the bits left. -/
def fecWords (speed : Nat) : (fuel : Nat) → List Bool → List (List NatList) × List Bool
  | 0, l => ([], l)
  | fuel + 1, l =>
    let n := 5140 * fecWays speed
    if l.length < n then ([], l)
    else
      let x := fecWords speed fuel (l.drop n)
      (fecBlock speed (l.take n) :: x.1, x.2)

/-- Octets placed: the codewords that they complete. -/
def fecPlace (speed : Nat) (d : Bytes) (f : Fec) : List (List NatList) × Fec :=
  let f := d.foldl (fecOctet speed) f
  let x := fecWords speed (f.bits.length / 5140 + 1) f.bits
  (x.1, { f with bits := x.2 })

end Sys2Proof.Machine
end

