-- ==== Sys2Proof/Machine/Wellhead.lean ====
section
/-! DEFINITION. The sealed cell stream (chapter 3): cells and segments sent, delineation, keying, segments received, defects. -/

namespace Sys2Proof.Machine

open Sys2Proof

/-- Whether the lanes of port q work: its MAC group and SerDes group ON (R328), no reference clock or lanes lost (R16). -/
def lanesOn (s : State) (q : Nat) : Bool :=
  portPowered s q && !s.traffic.sgLost.contains (portSg q) && !s.traffic.sgFailed.contains (portSg q)

/-- Whether a Wellhead receives: an enabled sealed port of a live device, or the mated link of a bound one. -/
def listening (s : State) (p : Nat) : Bool :=
  live s && (if p < 48 then portsRun s && sealedQ s (48 + p) && adminUp s (48 + p) && lanesOn s (48 + p) else paired s && domOn s 78)

/-- Whether a Wellhead sends its cells; the mated link goes on during a halt (Table 10-5). -/
def sending (s : State) (p : Nat) : Bool :=
  (whOf s p).tx.running && (if p < 48 then live s && lanesOn s (48 + p) else !asleep s && domOn s 78)

/-! Headers (R68 to R70) -/

def cellHeader (seq kp : Nat) : Bytes :=
  let h := beBytes 5 seq ++ beBytes 1 (128 * (kp % 2))
  h ++ beBytes 2 (hcs (octets h))

def hcsFits (h : Bytes) : Bool := beAt h 6 2 == hcs (octets (h.take 6))
def headSeq (h : Bytes) : Nat := beAt h 0 5
def headKp (h : Bytes) : Bool := bit (beAt h 5 1) 7

/-- A header with bit i of its 64 inverted. -/
def flipBit (h : Bytes) (i : Nat) : Bytes := beBytes 8 (beNat h ^^^ 2 ^ i)

/-- The header corrected by at most one bit (R94), and whether a correction was made. -/
def correctHead (h : Bytes) : Option (Bytes × Bool) :=
  if hcsFits h then some (h, false)
  else ((upFrom 0 64).find? (fun i => hcsFits (flipBit h i))).map (fun i => (flipBit h i, true))

/-! The link keystream (R78) -/

def ksBlock (k : LinkKeys) (epoch seq j : Nat) : NatList :=
  aesEnc (aesRounds (keyOctets k.hdr)) (beOct 4 k.hsalt.toNat ++ beOct 4 epoch ++ beOct 5 seq ++ 0 :: beOct 2 j)

/-- Keystream bytes o to o + 3 as a number. -/
def ksWord (k : LinkKeys) (epoch seq o : Nat) : Nat :=
  natBe (((ksBlock k epoch seq (o / 16) ++ ksBlock k epoch seq (o / 16 + 1)).drop (o % 16)).take 4)

/-- A segment header (Table 3-3). -/
def segHead (chan : Nat) (first last ctrl : Bool) (len : Nat) : Nat :=
  chan * 2 ^ 17 + b01 first * 2 ^ 16 + b01 last * 2 ^ 15 + b01 ctrl * 2 ^ 14 + len

def chanLink : Nat := 0x7FFE
def chanFill : Nat := 0x7FFF

/-! Control segments (R90, R91) -/

def ctlNonce (k : LinkKeys) (pn : Nat) : NatList := beOct 12 (k.csalt.toNat ^^^ pn)
def ctlAad (pn : Nat) : NatList := [0x7F, 0xFE, 2] ++ beOct 8 pn

/-- A sealed control message: kind, PN, ciphertext, ICV. -/
def sealCtl (k : LinkKeys) (pn : Nat) (plain : Bytes) : Bytes :=
  let (c, t) := gcmEnc (keyOctets k.ctl) (ctlNonce k pn) (ctlAad pn) (octets plain)
  beBytes 1 2 ++ beBytes 8 pn ++ ofOctets (c ++ t)

/-- A control segment opened: its plaintext where the ICV passes. -/
def openCtl (k : LinkKeys) (d : Bytes) : Option Bytes :=
  if d.length < 25 ∨ beAt d 0 1 ≠ 2 then none
  else
    let pn := beAt d 1 8
    let c := (d.drop 9).take (d.length - 25)
    let (m, okTag) := gcmDec (keyOctets k.ctl) (ctlNonce k pn) (ctlAad pn) (octets c) (octets (d.drop (d.length - 16)))
    if okTag then some (ofOctets m) else none

def annTag (master : Key) (linkId role : Nat) (d : Bytes) : Nat :=
  natBe (cmac (annKey master linkId role) (beOct 2 0x7FFE ++ octets (d.take 24)))

/-- The epoch announce of the present cell under its master. -/
def announce (master : Key) (t : WhTx) : Bytes :=
  let d := beBytes 1 1 ++ zeros 3 ++ beBytes 8 t.nonce.toNat ++ beBytes 4 t.epoch ++ beBytes 5 t.seq ++ zeros 3
  d ++ beBytes 16 (annTag master t.linkId t.role d)

/-! Cells sent (R79, R84 to R86) -/

/-- The sealed control messages that the room of a body takes, in order, and what stays waiting. -/
def takeCtl : (room : Nat) → List (Bytes × CtlMsg) → List (Bytes × CtlMsg) × List (Bytes × CtlMsg)
  | _, [] => ([], [])
  | room, m :: r =>
    if room < m.1.length + 4 then ([], m :: r)
    else
      let x := takeCtl (room - (m.1.length + 4)) r
      (m :: x.1, x.2)

/-- The number of the earliest-released of the frames waiting that a test admits. -/
def firstSeg (p : Seg → Bool) (segs : List Seg) : Option Nat :=
  ((indexed 0 segs).foldl (fun (m : Option (Nat × Seg)) x =>
    if !p x.2 then m
    else match m with
      | none => some x
      | some y => if x.2.released < y.2.released then some x else some y) none).map (·.1)

/-- The frame whose segment comes next (R79, R209), of those that their gates allow: an open express frame; an express frame waiting,
unless one has come between the segments of the open frame already; the open frame; else the earliest-released Assured, then
Best. -/
def nextSeg (ok : Seg → Bool) (segs : List Seg) : Option Nat :=
  let first (p : Seg → Bool) : Option Nat := firstSeg (fun g => p g && ok g) segs
  let new (g : Seg) : Bool := g.tc == 7 && !g.opened
  if segs.any (fun g => g.opened && g.tc == 7) then first (fun g => g.opened && g.tc == 7)
  else if segs.any (fun g => g.opened && g.hosted) then first (fun g => g.opened)
  else (first new).orElse (fun _ =>
    if segs.any (fun g => g.opened) then first (fun g => g.opened)
    else (first (fun g => tcGroup g.tc == 1)).orElse (fun _ => first (fun g => tcGroup g.tc == 2)))

/-- User segments for the room of a body: plaintext headers with their data, the frames as they then stand, and those whose LAST
segment has gone. -/
def takeSegs (ok : Seg → Bool) : (fuel room : Nat) → List Seg → List (Nat × Bytes) × List Seg × List Seg
  | 0, _, segs => ([], segs, [])
  | fuel + 1, room, segs =>
    if room < 5 then ([], segs, [])
    else match nextSeg ok segs with
      | none => ([], segs, [])
      | some i =>
        let g := nth {} segs i
        let n := min (room - 4) g.data.length
        let last := decide (n = g.data.length)
        let h := segHead g.chan (!g.opened) last false n
        let rest := (indexed 0 segs).filterMap (fun x =>
          if x.1 = i then (if last then none else some { g with opened := true, data := g.data.drop n })
          else some (if x.2.opened && !g.opened then { x.2 with hosted := true } else x.2))
        let x := takeSegs ok fuel (room - 4 - n) rest
        ((h, g.data.take n) :: x.1, x.2.1, if last then g :: x.2.2 else x.2.2)

/-- Segments written from a body offset, each header under the link keystream. -/
def writeSegs (k : LinkKeys) (epoch seq : Nat) : (o : Nat) → List (Nat × Bytes) → Bytes
  | _, [] => []
  | o, (h, d) :: r => beBytes 4 (h ^^^ ksWord k epoch seq o) ++ d ++ writeSegs k epoch seq (o + 4 + d.length) r

/-- A frame that has left port q, its last bit ahead ns from now: its port events and its FRAME sample (R170, Table 14-8). -/
def frameSent (q : Nat) (g : Seg) (bytes ahead : Nat) (s : State) : State :=
  let e : Ev := { group := 1, code := 2, inst := q, tc := some g.tc }
  let s := countEv { e with code := 3 } bytes (countEv e 1 s)
  sampleAt (s.time.now.shift (ahead * 2 ^ 32))
    { kind := 1, dec := decide (q < 48), tc := some g.tc, port := q, chan := g.chan, req := g.req, addr := g.granule,
      latency := s.time.ticks + ahead - g.tr } s

/-- A control message sent in this cell: its time-stamp where one is asked for, its transmit descriptor completed. -/
def ctlSent (q : Nat) (m : CtlMsg) (s : State) : State :=
  let s := match m.ident with | some i => pushStamp q i (txStamp s q s.time.now) s | none => s
  match m.ring with | some r => txDone r m.index 0 s | none => s

/-- Whether segments of a user frame go in a cell (R86). -/
def carrier (s : State) (p : Nat) : Bool := decide (p < 48) && decide ((whOf s p).tx.seq % 64 < attr s clsLink p 4)

/-- The speed at which a Wellhead runs: the mated link is a 400G port (R285). -/
def whSpeed (s : State) (p : Nat) : Nat := if p < 48 then pattr s (48 + p) 2 else 2

/-- Octets of a cell stream go out: the cell, and the codewords that it completes. -/
def sendOctets (p : Nat) (b : Bytes) (s : State) : State :=
  let x := fecPlace (whSpeed s p) b (whOf s p).tx.fec
  x.1.foldl (fun s c => emit (.codewords p c) s) (emit (.cell p b) (onTx p (fun t => { t with fec := x.2 }) s))

/-- n fill bytes of a port's CTR_DRBG (R84), which takes its first seed here where it has none. -/
def fillBytes (p n : Nat) (s : State) : Bytes × State :=
  match (whOf s p).tx.fill with
  | some d => let x := drbgGen n d; (ofOctets x.1, onTx p (fun t => { t with fill := some x.2 }) s)
  | none =>
    let (e, s) := draw 384 s
    let x := drbgGen n (drbgSeed none e)
    (ofOctets x.1, onTx p (fun t => { t with fill := some x.2 }) s)

/-- One cell built and sent, its user segments of frames that a test admits. The wrap of SEQ waits for EPOCH_CHANGE. -/
def sendCell (p : Nat) (ok : Seg → Bool) (s : State) : State :=
  let t := (whOf s p).tx
  let k := txKeys s p
  let ann : List Bytes := if t.announceDue then [announce (masterOf s p) t] else []
  let room := 1016 - (ann.map (fun d => d.length + 4)).sum
  let (ctl, wait) := takeCtl room t.ready
  let link := (ann ++ ctl.map (·.1)).map (fun d => (segHead chanLink true true true d.length, d))
  let used := (link.map (fun x => x.2.length + 4)).sum
  let (user, segs, gone) := if carrier s p then takeSegs ok 300 (1016 - used) t.segs else ([], t.segs, [])
  let all := link ++ user
  let o := (all.map (fun x => x.2.length + 4)).sum
  let mark : List (Nat × Bytes) := if o + 4 ≤ 1016 then [(segHead chanFill false false false 0, [])] else []
  let n := 1016 - o - 4 * mark.length
  let (fill, s) := fillBytes p n s
  let body := writeSegs k t.epoch t.seq 0 (all ++ mark) ++ fill
  let s := onTx p (fun x => { x with seq := x.seq + 1, ready := wait, segs := segs, announceDue := false }) s
  let s := onLive p (fun c => { c with txCells := c.txCells + 1, txFill := c.txFill + b01 (o == 0) }) s
  let s := sendOctets p (cellHeader t.seq t.epoch ++ body) s
  let s := gone.foldl (fun s g => frameSent (48 + p) g g.size (cellNs (whSpeed s p)).ceil.toNat s) s
  ctl.foldl (fun s m => ctlSent (48 + p) m.2 s) s

/-- The keys of the next epoch once SEQ has reached 2^39, on both sides (R75). -/
def execEpochKeyDerive (wport : WPort) (s : State) : Result :=
  .next (
    if asleep s then s
    else
      let p := wport.val
      let t := (whOf s p).tx
      let r := (whOf s p).rx
      let s := if t.running && decide (2 ^ 39 ≤ t.seq) && !t.next then deriveTx p ((t.epoch + 1) % 2 ^ 32) s else s
      if r.keyed && decide (2 ^ 39 ≤ r.seq) && !r.next then deriveRx p ((r.epoch + 1) % 2 ^ 32) s else s)

/-- The first cell of a new epoch is due (R70): SEQ 0, KP toggled, new keys, PN of control messages 1, an announce. -/
def newEpoch (p : Nat) (s : State) : State :=
  let t := (whOf s p).tx
  let s := if t.next then s else deriveTx p (t.epoch + 1) s
  sealAgain p (fun _ => true)
    (onTx p (fun x => { x with seq := 0, epoch := t.epoch + 1, next := false, ctlPn := 1, announceDue := true }) s)

def execEpochChange (wport : WPort) (s : State) : Result :=
  .next (
    let t := (whOf s wport.val).tx
    if sending s wport.val && decide (2 ^ 40 ≤ t.seq) && decide (t.epoch < 2 ^ 32 - 1) then newEpoch wport.val s else s)

/-- The epoch would pass 2^32 − 1 (R71): no more cells until LINK.RESTART. -/
def execEpochEnd (wport : WPort) (s : State) : Result :=
  .next (
    let p := wport.val
    let t := (whOf s p).tx
    if sending s p && decide (2 ^ 40 ≤ t.seq) && decide (2 ^ 32 - 1 ≤ t.epoch) then
      raise evLod (lodData p 3 true) (onTx p (fun x => { x with running := false }) (cutSegs p s))
    else s)

def execAnnounceSend (wport : WPort) (s : State) : Result :=
  .next (if sending s wport.val then onTx wport.val (fun t => { t with announceDue := true }) s else s)

/-- A heartbeat with the next count. DESIGN CHOICE (log 110): its flags byte, to which the spec gives no meaning, is 0, and the first
heartbeat of a session counts 0. -/
def execHeartbeatSend (wport : WPort) (s : State) : Result :=
  .next (
    let p := wport.val
    if sending s p then
      let c := (whOf s p).tx.heartbeat
      onTx p (fun t => { t with heartbeat := (c + 1) % 2 ^ 32 }) (queueCtl p { data := beBytes 1 2 ++ zeros 3 ++ beBytes 4 c } s)
    else s)

/-- RDI while the local receiver has dLOD or dLHB (R97); with both, the cause sent is dLOD (log 31). -/
def execRdiSend (wport : WPort) (s : State) : Result :=
  .next (
    let p := wport.val
    let r := (whOf s p).rx
    if sending s p && (r.lod || r.lhb) && (whOf s p).tx.rdiAt.all (fun t => passed s t 10000) then
      queueCtl p { data := beBytes 1 3 ++ beBytes 1 (if r.lod then 1 else 2) ++ zeros 2 }
        (onTx p (fun t => { t with rdiAt := some s.time.ticks }) s)
    else s)

/-- The fill generator of a port takes entropy of the key store (R84). -/
def execFillDrbgReseed (wport : WPort) (s : State) : Result :=
  .next (
    if sending s wport.val then
      let (e, s) := draw 384 s
      onTx wport.val (fun t => { t with fill := some (drbgSeed t.fill e) }) s
    else s)

/-! Defects (R96, R97) -/

/-- A defect set or cleared: EV_LOD with its cause, EV_RDI for dRDI; a set defect counts for the second. dRDI that sets discards the
frames queued for the port, not one whose transmission has begun (R432). -/
def setDefect (p : Nat) (cause : Nat) (on : Bool) (s : State) : State :=
  let r := (whOf s p).rx
  let was := if cause = 1 then r.lod else if cause = 2 then r.lhb else r.rdi
  if was = on then s
  else
    let s := onRx p (fun r => match cause with
      | 1 => { r with lod := on } | 2 => { r with lhb := on } | _ => { r with rdi := on }) s
    let s := onLive p (fun c => { c with defects := c.defects ||| (whOf s p).rx.defects }) s
    let s := if cause = 3 ∧ on ∧ p < 48 then dropQueued (48 + p) .linkDown (fun g => !g.opened) s else s
    if cause ≤ 2 then raise evLod (lodData p cause on) s else raise evRdi (leBytes 1 (48 + p) ++ leBytes 1 (b01 on)) s

/-- 125 µs continuously out of SYNC. -/
def execDlodSet (wport : WPort) (s : State) : Result :=
  .next (
    let r := (whOf s wport.val).rx
    if listening s wport.val && r.state != .sync && passed s r.since 125000 then setDefect wport.val 1 true s else s)

/-- 125 µs continuously in SYNC. -/
def execDlodClear (wport : WPort) (s : State) : Result :=
  .next (
    let r := (whOf s wport.val).rx
    if listening s wport.val && r.state == .sync && passed s r.since 125000 then setDefect wport.val 1 false s else s)

/-- In SYNC, and 100 µs without a kind 0x02 segment that has passed. -/
def execDlhbSet (wport : WPort) (s : State) : Result :=
  .next (
    let r := (whOf s wport.val).rx
    if listening s wport.val && r.state == .sync && passed s r.lastCtl 100000 then setDefect wport.val 2 true s else s)

/-- KEYED for 100 µs without an RDI; dRDI keeps its value while the receiver is not KEYED. -/
def execDrdiClear (wport : WPort) (s : State) : Result :=
  .next (
    let r := (whOf s wport.val).rx
    if listening s wport.val && r.keyed && passed s r.lastRdi 100000 then setDefect wport.val 3 false s else s)

/-! Cells received -/

/-- A frame discarded on reassembly: its channel is not known to be the port's, so it counts for the port alone. -/
def loseSeg (p : Nat) (s : State) : State := sump .segErr { q := 48 + p } s

/-- Every open frame of a port lost (R87). -/
def loseOpen (p : Nat) (s : State) : State :=
  let o := (whOf s p).rx.opened
  o.foldl (fun s _ => loseSeg p s) (onRx p (fun r => { r with opened := [] }) s)

/-- Time out of SYNC counted up to now. -/
def countOos (p : Nat) (s : State) : State :=
  let r := (whOf s p).rx
  let us := (s.time.ticks - r.oosFrom) / 1000
  onLive p (fun c => { c with oosUs := c.oosUs + us }) (onRx p (fun r => { r with oosFrom := r.oosFrom + 1000 * us }) s)

/-- Entry into HUNT with the octets from which it looks on; from SYNC the receiver stops being KEYED (R95). -/
def toHunt (p : Nat) (buf : Bytes) (s : State) : State :=
  let r := (whOf s p).rx
  let s := if r.state = .sync then loseOpen p s else s
  let s := onRx p (fun x => { x with
    state := .hunt, buf := buf, good := 0, bad := 0, keyed := false, next := false
    since := if x.state = .sync then s.time.ticks else x.since
    oosFrom := if x.state = .sync then s.time.ticks else x.oosFrom }) s
  let s := onLive p (fun c => { c with hunt := c.hunt + 1 }) s
  if p = 48 ∧ r.keyed then mateLost s else s

/-- A user segment (R88) of a cell whose last bit came in a tick: at most two open frames, 16,020 bytes each. -/
def userSeg (p chan tr : Nat) (first last : Bool) (d : Bytes) (s : State) : State :=
  let o := (whOf s p).rx.opened
  let here := o.any (fun x => x.1 == chan)
  if !first && !here then loseSeg p s
  else
    let s := if first && here then loseSeg p s else if first && decide (2 ≤ o.length) then loseSeg p s else s
    let o := if first then (if here then o.filter (fun x => x.1 != chan) else if 2 ≤ o.length then o.drop 1 else o) ++ [(chan, [])]
      else o
    let whole := (match o.find? (fun x => x.1 == chan) with | some x => x.2 | none => []) ++ d
    let gone := o.filter (fun x => x.1 != chan)
    if 16020 < whole.length then loseSeg p (onRx p (fun r => { r with opened := gone }) s)
    else if last then onRx p (fun r => { r with opened := gone, closed := r.closed ++ [(chan, whole, tr)] }) s
    else onRx p (fun r => { r with opened := o.map (fun x => if x.1 = chan then (chan, whole) else x) }) s

def ctlFail (p : Nat) (s : State) : State := onLive p (fun c => { c with ctlFail := c.ctlFail + 1 }) s

/-- A link-channel segment of a KEYED receiver (R90, R95): an announce is verified; a kind 0x02 segment, which holds at least its kind,
PN and ICV, goes to the array to be opened. -/
def linkSeg (p seq : Nat) (kp : Bool) (now : Stamp) (d : Bytes) (s : State) : State :=
  let t := (whOf s p).tx
  let r := (whOf s p).rx
  if beAt d 0 1 = 1 then
    if d.length = 40 ∧ annTag (masterOf s p) t.linkId (1 - t.role) d = beAt d 24 16 ∧ beAt d 4 8 = r.nonce.toNat ∧ beAt d 12 4 = r.epoch
    then s else ctlFail p s
  else if beAt d 0 1 = 2 ∧ 25 ≤ d.length then
    addReq { kind := .unseal p { data := d, seq := seq, kp := kp, time := now } (oddEpoch r.epoch) } s
  else ctlFail p s

/-- The segments of a body from an offset on (R76, R77, R87). -/
def parseBody (p seq tr : Nat) (kp : Bool) (now : Stamp) : (fuel o : Nat) → Bytes → State → State
  | 0, _, _, s => s
  | fuel + 1, o, b, s =>
    if b.length < o + 4 then s
    else
      let h := beAt b o 4 ^^^ ksWord (rxKeys s p) (whOf s p).rx.epoch seq o
      let chan := bits h 31 17
      let first := bit h 16
      let last := bit h 15
      let ctrl := bit h 14
      let len := bits h 12 0
      let d := (b.drop (o + 4)).take len
      let fits := decide (1 ≤ len ∧ o + 4 + len ≤ b.length)
      if chan = chanFill ∧ !first ∧ !last ∧ !ctrl ∧ len = 0 then s
      else if chan = chanLink ∧ first ∧ last ∧ ctrl ∧ fits then
        parseBody p seq tr kp now fuel (o + 4 + len) b (linkSeg p seq kp now d s)
      else if chan ≤ 32765 ∧ !ctrl ∧ fits then
        parseBody p seq tr kp now fuel (o + 4 + len) b (userSeg p chan tr first last d s)
      else loseOpen p (onLive p (fun c => { c with segErr := c.segErr + 1 }) s)

/-- The expected SEQ and KP move on; at SEQ 0 a KEYED receiver takes the keys of the next epoch (R75, R94). -/
def advance (p : Nat) (s : State) : State :=
  let r := (whOf s p).rx
  if r.seq + 1 < 2 ^ 40 then onRx p (fun r => { r with seq := r.seq + 1 }) s
  else
    let e := (r.epoch + 1) % 2 ^ 32
    let s := if r.keyed && !r.next then deriveRx p e s else s
    onRx p (fun r => { r with seq := 0, kp := !r.kp, next := false, epoch := if r.keyed then e else r.epoch }) s

/-- An announce where a body that cannot be parsed begins with one: its kind fits (R95); reserved bytes are ignored (R6). -/
def announceAt (b : Bytes) : Option Bytes :=
  let d := bsub b 4 40
  if beAt d 0 1 = 1 then some d else none

/-- ns that n octets of a Wellhead's cell stream take. -/
def octetNs (s : State) (p n : Nat) : Rat := cellNs (whSpeed s p) * n / 1024

/-- One cell in SYNC (R94, R95). Its time-stamp is that of its header's first octet (R92, R235). DESIGN CHOICE (log 111): WH_RX_CORR
counts a corrected header where it is good; one that then carries an unexpected SEQ or KP counts in WH_RX_BAD alone. -/
def syncCell (p : Nat) (s : State) : State :=
  let r := (whOf s p).rx
  let b := r.buf.take 1024
  let now := rxStamp s (48 + p) (r.stamp.shift (-(octetNs s p r.buf.length * 2 ^ 32).floor))
  let tr := r.tick - (octetNs s p (r.buf.length - 1024)).floor.toNat
  let s := onRx p (fun x => { x with buf := x.buf.drop 1024 }) s
  match correctHead (b.take 8) with
  | some (h, fixed) =>
    if headSeq h = r.seq ∧ headKp h = r.kp then
      let s := onLive p (fun c => { c with rxCells := c.rxCells + 1, rxCorr := c.rxCorr + b01 fixed }) s
      let s := onRx p (fun x => { x with bad := 0 }) s
      let s := if r.keyed then parseBody p r.seq tr r.kp now 300 0 (b.drop 8) s
        else
          let s := onLive p (fun c => { c with unkeyed := c.unkeyed + 1 }) s
          match announceAt (b.drop 8) with
          | some d => onRx p (fun x => { x with inbox := x.inbox ++ [{ announce := true, data := d, seq := r.seq, kp := r.kp, time := now }] }) s
          | none => s
      advance p s
    else badCell r b s
  | none => badCell r b s
where
  badCell (r : WhRx) (b : Bytes) (s : State) : State :=
    let s := loseOpen p (onLive p (fun c => { c with rxBad := c.rxBad + 1 }) s)
    if attr s clsLink p 6 ≤ r.bad + 1 then toHunt p (b.drop 1 ++ (whOf s p).rx.buf) s
    else advance p (onRx p (fun x => { x with bad := r.bad + 1 }) s)

/-- An announce waits to be verified: what follows its cell is decoded with the keys it brings. -/
def annWaits (r : WhRx) : Bool := !r.keyed && r.state == .sync && r.inbox.any (·.announce)

/-- One octet dropped, one candidate checked or one cell taken; DELTA and ALPHA of the mated link are the defaults. DESIGN CHOICE (log
112): the header that completes DELTA begins the first cell in SYNC, which is counted and parsed as such. -/
def huntStep (p : Nat) (s : State) : Option State :=
  let r := (whOf s p).rx
  if annWaits r then none
  else match r.state with
    | .hunt =>
      if r.buf.length < 8 then none
      else if hcsFits (r.buf.take 8) then
        some (onRx p (fun x => { x with state := .presync, seq := headSeq r.buf, kp := headKp r.buf, good := 0 }) s)
      else some (onRx p (fun x => { x with buf := x.buf.drop 1 }) s)
    | .presync =>
      let o := 1024 * (r.good + 1)
      if r.buf.length < o + 8 then none
      else
        let h := bsub r.buf o 8
        let seq := (r.seq + 1) % 2 ^ 40
        let kp := if seq = 0 then !r.kp else r.kp
        if hcsFits h && headSeq h == seq && headKp h == kp then
          if attr s clsLink p 5 ≤ r.good + 1 then
            let s := countOos p s
            some (onRx p (fun x => { x with
              state := .sync, buf := x.buf.drop o, seq := seq, kp := kp, good := 0, bad := 0, since := s.time.ticks }) s)
          else some (onRx p (fun x => { x with seq := seq, kp := kp, good := r.good + 1 }) s)
        else some (toHunt p (r.buf.drop 1) s)
    | .sync => if r.buf.length < 1024 then none else some (syncCell p s)

/-- The octets received are worked off as far as they go. -/
def deliver (p : Nat) : Nat → State → State
  | 0, s => s
  | fuel + 1, s => match huntStep p s with | none => s | some t => deliver p fuel t

/-- Steps enough for any buffer: every step drops an octet, or is one of the at most 16 checks that a candidate costs. -/
def deliverAll (p : Nat) (s : State) : State := deliver p (20 * (whOf s p).rx.buf.length + 20) s

/-- Octets of the stream received, the last of them now. A bad link key line halts as it is read (R165). -/
def execCellReceive (wport : WPort) (octets : Bytes) (s : State) : Result :=
  .next (
    let p := wport.val
    let r := (whOf s p).rx
    if !listening s p then s
    else if r.keyed && !linkGood s p true (oddEpoch r.epoch) then halt haltKeyState s
    else deliverAll p (onRx p (fun r => { r with buf := r.buf ++ octets, stamp := s.time.now, tick := s.time.ticks }) s))

/-- The first inbox segment that a test admits, and the inbox without it. -/
def takeInbox (f : CtlSeg → Bool) : List CtlSeg → Option CtlSeg × List CtlSeg
  | [] => (none, [])
  | x :: r => if f x then (some x, r) else (let y := takeInbox f r; (y.1, x :: y.2))

def inboxTake (p : Nat) (f : CtlSeg → Bool) (s : State) : Option CtlSeg × State :=
  let x := takeInbox f (whOf s p).rx.inbox
  (x.1, onRx p (fun r => { r with inbox := x.2 }) s)

/-- An epoch announce is verified (R95): the receiver is KEYED, and what waited behind it is decoded. -/
def execAnnounceReceive (wport : WPort) (s : State) : Result :=
  .next (
    let p := wport.val
    if !(listening s p && annWaits (whOf s p).rx) then s
    else match inboxTake p (·.announce) s with
      | (none, s) => s
      | (some x, s) =>
        let t := (whOf s p).tx
        let e := beAt x.data 12 4
        let n : W64 := BitVec.ofNat 64 (beAt x.data 4 8)
        if !hasMaster s p || annTag (masterOf s p) t.linkId (1 - t.role) x.data != beAt x.data 24 16 then deliverAll p (ctlFail p s)
        else if beAt x.data 16 5 == x.seq && bit e 0 == x.kp then
          let s := onRx p (fun r => { r with keyed := true, nonce := n, epoch := e, next := false, lastRdi := s.time.ticks }) s
          let s := holdKeys p true (oddEpoch e) (linkKeys (masterOf s p) t.linkId (1 - t.role) n e) s
          deliverAll p (if p = 48 then mateKeyed s else s)
        else deliverAll p s)

/-- Whether an inbox segment is a control message of a type; RDI, PTP and MKPDU have rows of their own. -/
def isType (t : Nat) (x : CtlSeg) : Bool := !x.announce && beAt x.data 0 1 == t
def isOther (x : CtlSeg) : Bool := !x.announce && !(beAt x.data 0 1 == 3 || beAt x.data 0 1 == 4 || beAt x.data 0 1 == 5)

/-- A heartbeat, or a message of a type that Table 3-7 does not name, handled: like every kind 0x02 segment that has passed its ICV it
clears dLHB (R96). -/
def execHeartbeatReceive (wport : WPort) (s : State) : Result :=
  .next (
    let p := wport.val
    match inboxTake p isOther s with
    | (some _, t) => if listening s p then setDefect p 2 false t else s
    | (none, _) => s)

/-- An RDI segment accepted (R97). -/
def execRdiReceive (wport : WPort) (s : State) : Result :=
  .next (
    let p := wport.val
    match inboxTake p (isType 3) s with
    | (some _, t) =>
      if listening s p then
        let t := onRx p (fun r => { r with lastRdi := t.time.ticks }) (onLive p (fun c => { c with rdiRx := c.rdiRx + 1 }) t)
        setDefect p 3 true (setDefect p 2 false t)
      else s
    | (none, _) => s)

end Sys2Proof.Machine
end

