-- ==== Sys2Proof/Machine/Boot.lean ====
section
/-! DEFINITION. Resets, start-up, modes and lifecycle changes (chapter 11), loss of reference clocks (R16), and boundary scan (R310). -/

namespace Sys2Proof.Machine

open Sys2Proof

/-- The ports of a SerDes group. -/
def sgPorts (g : Nat) : List Nat := (upFrom 0 96).filter (fun q => portSg q == g)

/-! Resets (R311, R312) -/

/-- A reset source recognised: two that meet merge into one, HALTING is sent once with the first source's cause. One that arrives in
reset waits for the device to be out of it (R312). -/
def recogniseReset (code : Nat) (cold : Bool) (s : State) : State :=
  let now := s.time.ticks
  let r : ResetReq :=
    { code := code, cold := cold, soft := if 2 ≤ code then some now else none, hard := if 2 ≤ code then none else some now }
  match s.glb.pendingReset with
  | some p => onGlb (fun g => { g with pendingReset := some {
      code := min p.code code, cold := p.cold || cold, soft := p.soft.or r.soft, hard := p.hard.or r.hard } }) s
  | none =>
    let s := onGlb (fun g => { g with pendingReset := some r }) s
    if code = 0 then s else mateHalting (if code = 1 then 0x80 else 0x81) s

def blown : FuseGroup := { f0 := true, f1 := true }

/-- The fuse group of a lifecycle state blown. -/
def burn (l : Lifecycle) (n : Nvm) : Nvm :=
  match l with
  | .sealed => { n with sealedFuse := blown, programming := none }
  | .debug => { n with debugFuse := blown, programming := none }
  | .retired => { n with retiredFuse := blown, programming := none }
  | .blank => { n with programming := none }

/-- Fuse programming that a reset of code 0 or 1 cuts: the lifecycle reads the old state or the new one (R308), a free choice. -/
def cutFuses (s : State) : State :=
  match s.nvm.programming with
  | none => s
  | some (l, _) =>
    let (v, s) := freeVal 1 s
    onNvm (fun n => if v = 1 then burn l n else { n with programming := none }) s

/-- What a cold or warm reset leaves (Table 11-6): the Standpipe, fuses and NVM, the Reservoir's stored content, and the pins; a warm
one keeps the configuration space, where MSI-X is enabled. -/
def doReset (code : Nat) (cold : Bool) (s0 : State) : State :=
  let s := cutFuses s0
  let warmKeys := s.keys.gslot.map (fun p =>
    (p.1, if p.2.state = .valid ∧ attrExpReset p.2.attr then { p.2 with state := SlotState.expired } else p.2))
  { nvm := { s.nvm with patchApplied := 0 }
    stp := s.stp
    tap := s.tap
    rng := s.rng
    out := .idle :: s.out
    pending := s.pending
    time := if cold then {} else { s.time with ppsOut := false }
    irq := { msix := !cold && s.irq.msix }
    glb := {
      inReset := true, warm := !cold, resetNLow := s.glb.resetNLow, resetCause := code
      lastHalt := if code = 0 then 0 else s.glb.haltCause }
    keys := {
      gslot := if cold then [] else warmKeys
      reseeded := if cold then 0 else s.time.ticks
      line := s.keys.line }
    mem := { bytes := s.mem.bytes.filter (fun c => isRes c.1), lines := s.mem.lines } }

/-- Whether a recognised reset takes effect: 5 µs after its recognition, for codes 2 to 5 not while the destruction line or fuse
programming is in progress, and as soon as one of the sources that have merged would alone (R311, R312). -/
def resetDue (r : ResetReq) (s : State) : Bool :=
  r.hard.any (fun t => passed s t 5000)
  || (r.soft.any (fun t => passed s t 5000) && s.keys.line.isNone && s.nvm.programming.isNone)

def execResetEffect (s : State) : Result :=
  .next (match s.glb.pendingReset with
    | none => s
    | some r => if !asleep s && resetDue r s then doReset r.code r.cold s else s)

/-- Main power rising: a cold reset of code 0. -/
def execPowerOn (s : State) : Result := .next (if s.stp.main then doReset 0 true s else s)

/-- Main power returns: MAIN_BACK (R343), and with the supply's rise the cold reset of code 0 (R312). -/
def execMainPowerBack (s : State) : Result :=
  .next (
    if s.stp.main then s
    else doReset 0 true (stpRecord noSource kindMainBack 0 (onStp (fun p => { p with main := true }) s)))

/-- RESET_N low for 1 µs. In reset it only holds the device there. -/
def execResetNRecognised (s : State) : Result :=
  .next (
    if !s.stp.main then s
    else
      let s := onGlb (fun g => { g with resetNLow := true }) s
      if s.glb.inReset then s else recogniseReset 2 true s)

def resetKey : Nat := 0xA5C3

/-- Whether a write reaches GLB_RESET: during a warm reset too, which keeps the PCIe link (R312, R313). -/
def resetReached (pf : Pf) (s : State) : Bool := written pf s || (pf == .pf0 && s.stp.main && s.glb.inReset && s.glb.warm)

/-- A keyed write of GLB_RESET.COLD (R311). -/
def execGlbResetCold (pf : Pf) (key : Nat) (s : State) : Result :=
  .next (if resetReached pf s && key == resetKey then recogniseReset 3 true s else s)

/-- A keyed write of GLB_RESET.WARM (R311). -/
def execGlbResetWarm (pf : Pf) (key : Nat) (s : State) : Result :=
  .next (if resetReached pf s && key == resetKey then recogniseReset 4 false s else s)

/-- A sag comparator at its reset threshold (R332): HALTING with POWER and a cold reset. -/
def execSagReset (s : State) : Result := .next (if s.stp.main then recogniseReset 1 true s else s)

/-- The mailboxes of a function as its reset leaves them; identifiers used stay used (R366, R369), and a command that waits goes on
without an answer. -/
def resetMbx (lo n : Nat) (s : State) : State :=
  (upFrom lo n).foldl (fun s m =>
    setMbx m { usedIds := (mbxOf s m).usedIds, orphan := waits s m || (mbxOf s m).orphan } (closeSession m s)) s

/-- A function-level reset (R312): of PF0 also the DP and IRQ blocks and the Q0 registers. -/
def flr (pf : Pf) (s : State) : State :=
  match pf with
  | .pf1 => resetMbx 14 2 s
  | .pf0 =>
    let s := resetMbx 0 14 s
    { s with
      dp := {}
      irq := { records := s.irq.records }
      la := tset {} s.la 0 {} }

def execPcieFlr (pf : Pf) (s : State) : Result := .next (if asleep s then s else flr pf s)

/-- A hot reset acts as a function-level reset of both functions (R416). -/
def execPcieHotReset (s : State) : Result := .next (if asleep s then s else flr .pf1 (flr .pf0 s))

/-! Signed patches (R397 to R399) -/

def patchField (b : Bytes) (o n : Nat) : Nat := beAt b o n

/-- The checks of R398 in order: the serial of a good image. -/
def patchCheck (b : Bytes) (floor : Nat) : Option Nat :=
  let bl := patchField b 16 4
  let msg := b.take (64 + bl)
  if b.length = 4787 + bl ∧ bl % 16 = 0 ∧ 16 ≤ bl ∧ bl ≤ 2092352 ∧ patchField b 0 4 = 0x58505431 ∧ patchField b 4 2 = 1
      ∧ patchField b 6 2 = 0 ∧ patchField b 8 2 = 0x9648 ∧ patchField b 10 1 = 0xB0 ∧ patchField b 11 1 = 0
      ∧ 1 ≤ patchField b 12 4 ∧ allZero (bsub b 20 44) = true ∧ floor ≤ patchField b 12 4
      ∧ mldsaVerify (octets ((upFrom 0 2592).map Config.romMldsa)) (octets msg) (octets (bsub b (64 + bl) 4627)) = true
      ∧ ecdsaVerify Config.romEcdsa (octets msg) (octets (bsub b (4691 + bl) 96)) = true then
    some (patchField b 12 4)
  else none

def selectedPatch (n : Nvm) : Option Patch := if n.selB then n.patchB else n.patchA

/-! Start-up (R313, Table 11-12) -/

/-- GLB_BOOT_STATUS with a bit set. -/
def bootBit (i : Nat) (s : State) : State := onGlb (fun g => { g with bootStatus := g.bootStatus ||| (1 <<< i) }) s
def bootIf (b : Bool) (i : Nat) (s : State) : State := if b then bootBit i s else s

def FuseGroup.blown (g : FuseGroup) : Bool := g.f0 || g.f1

/-- The lifecycle that the fuses read (R307). -/
def fuseLifecycle (n : Nvm) : Lifecycle :=
  if n.retiredFuse.blown then .retired else if n.debugFuse.blown then .debug else if n.sealedFuse.blown then .sealed else .blank

/-- The DRK a bank holds. -/
def Bank.drk (b : Bank) : Key := b.s0 ^^^ b.s1
def activeBank (s : State) : Option Bank := if s.stp.bankSelB then s.stp.bankB else s.stp.bankA

/-- The working copy of the DRK formed. -/
def holdDrk (v : Key) (s : State) : State :=
  let (m, s) := draw 512 s
  onKeys (fun k => { k with drk := some (plainLine v m), drkAt := s.time.ticks }) s

/-- Both banks and the selector zeroed. -/
def clearBanks (s : State) : State := onStp (fun p => { p with bankA := none, bankB := none, bankSelB := false }) s

/-- A new DRK (R141): a reseed with prediction resistance, 256 bits, bank A written and selected, then read back and its check value
compared; the working copy is what was read. -/
def newDrk (s : State) : State :=
  let s := onKeys (fun k => { k with reseeded := s.time.ticks }) s
  let (v, s) := draw 256 s
  let (m, s) := draw 256 s
  let s := bootBit 10 (onStp (fun p => { p with bankA := some { s0 := v ^^^ m, s1 := m, check := drkCheck v }, bankSelB := false }) s)
  match s.stp.bankA with
  | some b => if drkCheck b.drk = b.check then holdDrk b.drk s else s
  | none => s

/-- The DRK found absent in SEALED: BACKUP_LOSS with DETAIL 1, unless the lost canary has already been recorded (R140, R348). -/
def drkAbsent (canaryLost : Bool) (s : State) : State :=
  newDrk (bootBit 9 (if canaryLost then s else stpRecord noSource kindBackupLoss 1 s))

/-- The DRK at a start (R140 to R142, R308). -/
def startDrk (canaryLost : Bool) (s : State) : State :=
  match s.glb.lifecycle with
  | .blank => newDrk s
  | .sealed =>
    match activeBank s with
    | some b => if drkCheck b.drk = b.check then holdDrk b.drk s else drkAbsent canaryLost s
    | none => drkAbsent canaryLost s
  | .debug => clearBanks s
  | .retired => onNvm (fun n => { n with persist := [] }) (clearBanks s)

/-- The patch of the selected slot applied, or PATCH (R399). -/
def startPatch (s : State) : State :=
  match selectedPatch s.nvm with
  | none => s
  | some p =>
    match patchCheck p.image s.nvm.patchFloor with
    | none => bootBit 1 s
    | some n => onNvm (fun v => { v with patchApplied := n, patchFloor := max v.patchFloor n }) s

/-- Roles after the boot self-test (R315). -/
def startClusters (bad : List Nat) (s : State) : State :=
  let pass := allClusters.filter (fun c => !bad.contains c)
  let s := allClusters.foldl (fun s c =>
    if bad.contains c then setRole c .retired s
    else if (pass.filter (fun k => decide (k < c))).length < 32 then setRole c .active s else setRole c .spare s) s
  let s := recount s
  let s := onGlb (fun g => { g with bootStatus := g.bootStatus ||| (BitVec.ofNat 32 pass.length <<< 16) }) s
  if pass.length < 8 then bootBit 6 s
  else if pass.length < 34 then degrade 10 0 1 s
  else s

/-- Failing granules of the Cistern test held in quarantine (Table 11-12, R315). -/
def startCistern (bad : List Nat) (s : State) : State :=
  let s := onMem (fun m => { m with heldGranules := bad }) s
  quarantineLimit s

/-- One persist record at a start (R160): restored into a slot that holds no key, or erased and counted. -/
def restoreRecord (i : Nat) (s : State) : State :=
  let r := tget {} s.nvm.persist i
  if r = {} then s
  else match r.newer (keyOctets (persistKey s)) with
    | none => setAttr (onNvm (fun n => { n with persist := tset {} n.persist i {} }) s) clsDev 0 0x0E (attr s clsDev 0 0x0E + 1)
    | some (c, _) =>
      let x := gslotOf s c.slot
      if x.state = .empty ∨ x.state = .invalid then installG c.slot c.attr c.key s else s

def regionAttr (tag masters size : Nat) : W32 := BitVec.ofNat 32 (7 * 2 ^ 29 + tag * 2 ^ 22 + masters * 2 ^ 14 + size)

/-- Regions 0 to 3 (Table 9-15). -/
def bootRegions : Tab Region :=
  [(0, { lo := 0xC0000000, hi := 0x19, attr := regionAttr 1 0x21 30 }),
   (1, { lo := 0x80000000, hi := 0x19, attr := regionAttr 2 0x01 30 }),
   (2, { lo := 0, hi := 0x19, attr := regionAttr 5 0x07 31 }),
   (3, { lo := 0x01000000, hi := 0, attr := regionAttr 0 0x43 20 })]

/-- The write of 750 mV at a start (R331), confirmed; where it fails, CONFIRMED takes what the cluster sensors read. -/
def startRail (reading : Option Nat) (s : State) : State :=
  match reading with
  | none => emit (.avs 750) (onPmu (fun p => { p with avsConfirmed := 750 }) s)
  | some v =>
    logFault 0 7 0 (countFault 38 (onPmu (fun p => { p with avsErr := true, avsConfirmed := v / 5 * 5, rail := v / 5 * 5 }) s))

/-- Every Reservoir line written once under IME (Table 11-12). What is written is not stated (log 3). -/
def writeReservoir (s : State) : State :=
  { onMem (fun m => { m with bytes := m.bytes.filter (fun c => !isRes c.1), lines := [], start := s.rng, patterns := s.rng }) s with
    rng := s.rng + 1 }

/-- The steps that depend on the entropy source: DRBG, boot nonce, install counts, known-answer tests, and the rest. -/
def bootSteps (b : BootReport) (canaryLost : Bool) (s : State) : State :=
  let (nonce, s) := draw 64 s
  let s := redrawCounts (onKeys (fun k => { k with bootNonce := nonce, katFailed := b.katBad }) s)
  let s := startPatch (startDrk canaryLost (bootIf b.katBad 0 s))
  let s := bootIf b.calBad 2 (onNvm (fun n => { n with calBad := b.calBad }) s)
  let s := startCistern b.badGranules (bootIf b.linkRamBad 4 (bootIf b.keySramBad 3 s))
  let s := newImeKeys (bootIf b.hbmBad 5 (startClusters b.badClusters s))
  let s := if b.hbmBad then s else writeReservoir s
  let s := onTraffic (fun t => { t with sgFailed := b.badGroups }) s
  let s := b.badGroups.foldl (fun s g => degrade 12 g 4 (bootBit 8 s)) s
  let s := if s.glb.lifecycle = .retired then s else (upFrom 0 32).foldl (fun s i => restoreRecord i s) s
  let s := putInternal handleCtx (ctxWrapKey s) (putInternal handlePersist (persistKey s) s)
  let s := onMem (fun m => { m with regions := bootRegions }) s
  let s := onPair (fun p => { p with state := if s.nvm.binding.isSome then .pairing else .unpaired }) s
  let s := if s.nvm.binding.isSome then startMate s else s
  let s := startRail b.avsReading s
  let s := cellTamper s
  onGlb (fun g => { g with booted := true }) s

/-- Release of reset: the steps of Table 11-12 in order, up to one that halts. ZEROIZE_N still low is recognised anew (R340). A
destruction in progress is let finish first, as it is before a reset (DEDUCED, log 106). -/
def execResetRelease (boot : BootReport) (s : State) : Result :=
  .next (
    if !s.glb.inReset || !s.stp.main || lineDriven s then s
    else
      let s := { s with
        tap := .bypass, glb := { s.glb with inReset := false, resetNLow := false, releasedAt := s.time.ticks }
        stp := { s.stp with alarm := s.stp.alarm.filter (fun n => n != 0) } }
      let canaryLost := !s.stp.canary
      let s := checkCanary s
      let s := onGlb (fun g => { g with lifecycle := if boot.fuseBad then .retired else fuseLifecycle s.nvm }) s
      let s := bootIf boot.fuseBad 7 s
      if boot.refclkBad then halt haltRefclk s
      else if boot.entropyBad then halt haltEntropy s
      else bootSteps boot canaryLost s)

/-- A VALID general slot with USAGE AUTH and OFFICER in WORLD_MASK. -/
def officerSlot (x : Slot) : Bool := x.state == .valid && attrUsage x.attr useAuth && attrWorld x.attr .officer

/-- The end of boot (Table 11-1). -/
def execBootEnd (s : State) : Result :=
  .next (
    if !s.glb.booted || !live s then s
    else
      let s := onGlb (fun g => { g with booted := false }) s
      settle s (
        if s.glb.bootStatus.toNat % 256 ≠ 0 ∨ s.glb.lifecycle = .retired then setMode .recovery s
        else if s.glb.lifecycle = .blank ∨ !s.keys.gslot.any (fun p => officerSlot p.2) then setMode .enrol s
        else setMode .provision s))

/-! Mode changes that wait -/

/-- SYS.MODE SERVICE completes (R314): enable bits, the lease when unpaired, admission. A recognised reset wins (R305). -/
def execServiceEntry (s : State) : Result :=
  .next (match s.glb.serviceWait with
    | none => s
    | some mb =>
      if !live s || !s.glb.serviceRound || s.glb.pendingReset.isSome then s
      else
        let s1 := setMode .service (onGlb (fun g => { g with serviceWait := none, serviceRound := false }) s)
        let s1 := if !paired s1 && !isHolder s1 then holdUnpaired s1 else s1
        settle s (answer mb.val (reply .ok) s1))

/-- 50 ms have passed without the meter round (R314). -/
def execServiceEntryTimeout (s : State) : Result :=
  .next (match s.glb.serviceWait with
    | none => s
    | some mb =>
      if !live s || s.glb.serviceRound || !passed s s.glb.serviceAt (50 * 10 ^ 6) then s
      else answer mb.val (reply .internal) (onGlb (fun g => { g with serviceWait := none }) s))

/-- The management queue of a port emptied into the Sump with a reason. -/
def dropMgmt (r : Reason) (q : Nat) (s : State) : State := (portOf s q).mgmt.foldl (fun s m => loseLaunch q r m s) s

/-- Received sealed frames, whole or in part, that have not been checked yet, discarded with a reason. -/
def dropReceived (r : Reason) (p : Nat) (s : State) : State :=
  let x := (whOf s p).rx
  let lost (c tick : Nat) (s : State) : State := sump r { q := 48 + p, chan := some (c, .dec), tr := tick } s
  let s := x.opened.foldl (fun s f => lost f.1 s.time.ticks s) s
  let s := x.closed.foldl (fun s f => lost f.1 f.2.2 s) s
  onRx p (fun y => { y with opened := [], closed := [] }) s

/-- Every frame that the device holds discarded with RECOVERY (R306). -/
def dropAll (s : State) : State :=
  (upFrom 0 48).foldl (fun s p => dropReceived .recovery p s)
    ((upFrom 0 96).foldl (fun s q => dropMgmt .recovery q s) (discardQueued .recovery s))

/-- Entry to RECOVERY (R306): a holder sends HALTING with COMMAND; what the device holds is discarded, PSEL falls and the transmitters
idle. -/
def enterRecovery (s : State) : State :=
  let s := if isHolder s then mateHalting haltCommand s else s
  let s := standDown .none (dropHandover (dropAll (setMode .recovery s)))
  emit .idle { s with wh := s.wh.map (fun w => (w.1, if w.1 < 48 then { w.2 with tx := { w.2.tx with running := false } } else w.2)) }

/-! Lifecycle (R307, R308) -/

/-- The fuses of a state blown: the new lifecycle, its record, and every session closed (R343, R369). -/
def blowFuses (l : Lifecycle) (s : State) : State :=
  let s := onNvm (burn l) s
  let s := stpRecord noSource kindLifecycle l.code (recompute (onGlb (fun g => { g with lifecycle := l }) s))
  closeAll s

/-- Programming ends: the command's answer, then the transition's effect (Table 11-4). A reset that has been recognised wins over the
change to PROVISION (R305). -/
def execFuseProgramDone (s : State) : Result :=
  .next (match s.nvm.programming with
    | none => s
    | some (l, mb) =>
      if asleep s then s
      else
        let s1 := blowFuses l s
        let won := l == .sealed && s.glb.pendingReset.isSome
        if won then s1
        else
        let s1 := match mb with | some m => answer m.val (reply .ok) s1 | none => s1
        match l with
        | .sealed => settle s (setMode .provision s1)
        | .debug => destroy 2 s1
        | .retired => recogniseReset 5 true s1
        | .blank => s1)

/-! Reference clocks (R16) and boundary scan (R310) -/

def execRefclkSysLost (s : State) : Result := .next (halt haltRefclk s)

/-- A SerDes group loses its reference clock or lanes: its ports go down, a DEGRADE fault. -/
def execRefclkSgLost (group : SgNo) (s : State) : Result :=
  .next (
    if asleep s || s.traffic.sgLost.contains group.val then s
    else if halted s then logFault 2 12 group.val (countFault 42 s)
    else
      let s1 := onTraffic (fun t => { t with sgLost := t.sgLost ++ [group.val] }) s
      let s1 := (sgPorts group.val).foldl (fun t q => linkOff q t) s1
      settle s (degrade 12 group.val 4 s1))

/-- The group returns; the condition clears once no group is lost (R282). -/
def execRefclkSgRestored (group : SgNo) (s : State) : Result :=
  .next (
    if !live s || !s.traffic.sgLost.contains group.val then s
    else
      let s1 := onTraffic (fun t => { t with sgLost := t.sgLost.filter (fun g => !(g == group.val)) }) s
      let gone := s1.traffic.sgLost.isEmpty && s1.traffic.sgFailed.isEmpty
      settle s (if gone then onMaint (fun m => { m with degrade := m.degrade &&& 0xB }) s1 else s1))

/-- Boundary scan acts on the balls only while RESET_N is held low; otherwise every instruction acts as BYPASS. -/
def execBoundaryScan (instruction : TapInstr) (s : State) : Result :=
  .next { s with tap :=
    if s.glb.resetNLow then (match instruction with
      | .extest => .extest | .intest => .intest | .clamp => .clamp | .highz => .highz | .bypass => .bypass | .other => .bypass)
    else .bypass }

end Sys2Proof.Machine
end

