-- ==== Sys2Proof/Machine/Values.lean ====
section
/-! DEFINITION. What object attributes read as (R392, Table 16-5): the calibration set (R333), pace table entries in use (R175), and
the values computed from the rest of the state. -/

namespace Sys2Proof.Machine

open Sys2Proof

/-! The calibration set (Table 12-10) -/

/-- A byte of the set as written at test, its CRC apart. -/
def factoryByte (o : Nat) : Byte :=
  if o < 4 then nth 0 (leBytes 4 0x314C4143) o
  else if o = 4 then 1
  else if o < 8 then 0
  else if o < 16 then nth 0 (leBytes 8 Config.dieId.toNat) (o - 8)
  else if o < 32 then 0
  else if o < 3296 then nth 0 (leBytes 2 (factoryPace ((o - 32) / 96) ((o - 32) / 2 % 48))) (o % 2)
  else if o < 16640 then Config.calTrim o
  else 0

/-- The CRC that a set of 65,536 bytes should end with. -/
def calCrc (b : Bytes) : Nat := crc32 (octets (b.take 65532))

def factoryBody : Bytes := (upFrom 0 65532).map factoryByte

/-- dev[0].cal_factory_crc. -/
def factoryCrc : Nat := calCrc factoryBody

/-- The stored set. -/
def calSet (s : State) : Bytes := s.nvm.cal.getD (factoryBody ++ leBytes 4 factoryCrc)

/-- cal[0].crc. -/
def storedCrc (s : State) : Nat := leAt (calSet s) 65532 4

/-! Pace tables (R174, R175) -/

/-- The grid voltages in mV and the band edges in 0.1 °C. -/
def gridMv : List Nat := [650, 680, 700, 720, 750, 780, 810, 850]
def bandEdges : List Int := [250, 550, 750, 850, 950, 1050]

/-- The entry at the highest grid voltage at or below mv, in a temperature band. -/
def tabAt (s : State) (c mv band : Nat) : Nat :=
  match (gridMv.filter (fun g => decide (g ≤ mv))).length with
  | 0 => (Config.subGrid c band).toNat
  | n + 1 => attr s clsPmu c (0x40 + 6 * n + band)

/-- tab_c. -/
def tabC (s : State) (c : Nat) : Nat := tabAt s c (clusterOf s c).vdd (clusterOf s c).band

/-! Values -/

def devValue (s : State) (a : Nat) : Nat :=
  match a with
  | 0x01 => deviceId s | 0x02 => Config.dieId.toNat | 0x0F => factoryCrc | 0x10 => s.nvm.patchFloor | _ => attr s clsDev 0 a

def clusterValue (s : State) (c a : Nat) : Nat :=
  let x := clusterOf s c
  match a with
  | 0x01 => x.role.code | 0x02 => tc 16 x.temp | 0x03 => x.vdd | 0x04 => x.meter | _ => tabC s c

def pairValue (s : State) (a : Nat) : Nat :=
  match a with
  | 0x01 => match s.nvm.binding with | some b => b.id.toNat | none => 0
  | 0x02 => b01 (roleB s) | 0x03 => s.pair.state.code | 0x04 => s.pair.lease.code | 0x0B => tc 32 s.pair.offset
  | _ => pairAttr s a

def gslotValue (s : State) (g a : Nat) : Nat :=
  let x := gslotOf s g
  match a with
  | 0x01 => x.state.code | 0x02 => x.attr.toNat | 0x03 => x.expires | _ => installCount s g

/-- The value of an attribute that the instance carries. -/
def objValue (s : State) (cls inst a : Nat) : Nat :=
  match cls with
  | 0x01 => devValue s a
  | 0x02 => mirrorAttr s cls inst a
  | 0x03 => mirrorAttr s cls inst a
  | 0x04 => mirrorAttr s cls inst a
  | 0x07 => mirrorAttr s cls inst a
  | 0x08 => if a = 0x01 then (kslotOf s inst).state.code else (kslotOf s inst).attr.toNat
  | 0x09 => mirrorAttr s cls inst a
  | 0x0A => mirrorAttr s cls inst a
  | 0x0B => clusterValue s inst a
  | 0x0C => pairValue s a
  | 0x0E => if a = 0x05 then b01 (s.stp.alarm.contains inst) else attr s cls inst a
  | 0x10 => if a = 0x01 then b01 (storedCrc s == factoryCrc) else storedCrc s
  | 0x12 => gslotValue s inst a
  | _ => attr s cls inst a

/-- Whether a read-only status attribute's hardware lies in a domain not ON (R392): the MAC group of a port's preempt_oper and of a
link's receiver, and a cluster's sensors and meter, which run on in retention (R321). -/
def statusOff (s : State) (cls inst a : Nat) : Bool :=
  match cls with
  | 0x02 => a == 0x06 && !domOn s (portDom inst)
  | 0x03 => a == 0x06 && !domOn s (portDom (48 + inst))
  | 0x0A => decide (0x08 ≤ a) && !domOn s (portDom (48 + inst))
  | 0x0B => decide (0x02 ≤ a ∧ a ≤ 0x04) && !((domOf s inst).state == .on || (domOf s inst).state == .ret)
  | _ => false

def idCls (id : Nat) : Nat := id / 2 ^ 24
def idInst (id : Nat) : Nat := id / 256 % 65536
def idAttr (id : Nat) : Nat := id % 256

/-- Status, LEN and value of an ID as OBJ.GET gives them. -/
def readId (s : State) (id : Nat) : Status × Bytes :=
  match idSpec s (idCls id) (idInst id) (idAttr id) with
  | none => (.badObject, [])
  | some (w, _) =>
    if statusOff s (idCls id) (idInst id) (idAttr id) then (.domainOff, [])
    else (.ok, leBytes w (objValue s (idCls id) (idInst id) (idAttr id)))

end Sys2Proof.Machine
end

