-- ==== Sys2Proof/Machine/Sets.lean ====
section
/-! DEFINITION. OBJ commands and the group set commands (R392 to R396): the order of R393, each class's own checks, and what a set
changes besides its attributes. -/

namespace Sys2Proof.Machine

open Sys2Proof

/-! Wakes (R325, R326) -/

/-- A wake reaches a domain: one that is ON notes the tick, one CHANGING towards RET or OFF turns back with WAKE_WON, one at rest
begins to return. -/
def wake (n : Nat) (s : State) : State :=
  let d := domOf s n
  match d.state with
  | .on => setDom s n { d with woken := some s.time.ticks }
  | .changing =>
    if d.toward = .on then s
    else if d.asked = s.time.ticks then
      raise evWakeWon (leBytes 1 n)
        (setDom s n { d with state := .on, toward := .on, result := 2, woken := some s.time.ticks })
    else raise evWakeWon (leBytes 1 n) (setDom s n { d with toward := .on, result := 2 })
  | .ret => setDom s n { d with state := .changing, toward := .on, fromOff := false }
  | .off => setDom s n { d with state := .changing, toward := .on, fromOff := true }

/-- A command that must reach domains (R326): none to go on, false where a domain may not be woken, true where it waits. -/
def reach (doms : List Nat) (s : State) : Option Bool × State :=
  if doms.any (fun n => !domOn s n && !(domOf s n).cmdWake) then (some false, s)
  else
    let s := doms.foldl (fun s n => wake n s) s
    if doms.all (domOn s) then (none, s) else (some true, s)

/-! Checks of a class (step 6 of R393) -/

/-- One check: whether it holds, its status, and the attributes that are its inputs. -/
structure Check where
  holds : Bool
  status : Status
  inputs : List Nat

def firstBroken (l : List Check) : Option (Status × List Nat) :=
  (l.find? (fun c => !c.holds)).map (fun c => (c.status, c.inputs))

/-- The written attributes and the state before (s) and with (t) all entries applied. -/
structure SetReq where
  world : World
  cls : Nat
  inst : Nat
  codes : List Nat
  s : State
  t : State

def SetReq.wrote (r : SetReq) (a : Nat) : Bool := r.codes.contains a
def SetReq.old (r : SetReq) (a : Nat) : Nat := attr r.s r.cls r.inst a
def SetReq.new (r : SetReq) (a : Nat) : Nat := attr r.t r.cls r.inst a
def SetReq.changed (r : SetReq) (a : Nat) : Bool := r.wrote a && r.old a != r.new a
def SetReq.port (r : SetReq) : Nat := if r.cls = clsHport then r.inst else 48 + r.inst

/-! Ports (R29, R38, R55, R82, R220, R225, R378, R395, R404, R405) -/

/-- The value of an enabled filter entry for MKA: 01-80-C2-00-00-03 in network order, target GYDOM. -/
def mkaFilter : Nat := 0x01FF0300 * 2 ^ 32 + 0x00C28001

/-- Whether filter attribute a of line port p is held for MKA: the port has a CA and the entry is its group address. -/
def mkaHeld (s : State) (q a : Nat) : Bool :=
  decide (48 ≤ q) && pattr s q a == mkaFilter && s.cas.any (fun c => c.2.exist && cattr s (attr s clsCa c.1 1) 3 + 48 == q)

/-- Gydom's entry for MKA in the filters of a line port that has a CA (R55): the lowest disabled one, or entry 7 (log 20). -/
def placeMka (p : Nat) (s : State) : State :=
  if (upFrom 0x10 8).any (fun a => attr s clsLport p a == mkaFilter) then s
  else
    let a := ((upFrom 0x10 8).find? (fun a => !bit (attr s clsLport p a) 56)).getD 0x17
    touch (mirObj clsLport p) (setAttr s clsLport p a mkaFilter)

/-- The entry of a port whose last CA is gone, back at its default. -/
def dropMka (p : Nat) (s : State) : State :=
  if decide (48 ≤ p) || s.cas.any (fun c => c.2.exist && cattr s (attr s clsCa c.1 1) 3 == p) then s
  else match (upFrom 0x10 8).find? (fun a => attr s clsLport p a == mkaFilter) with
    | none => s
    | some a => touch (mirObj clsLport p) (setAttr s clsLport p a (attrDefault clsLport p a))

/-- Anchors and widths (Table 17-5), the lane rate of a group, and a port's width. -/
def anchor (q : Nat) : Nat := nth 0 [0, 4, 2, 6, 1, 5] (q % 48 % 6)
def maxWidth (q : Nat) : Nat := nth 0 [8, 4, 2, 2, 1, 1] (q % 48 % 6)
def lowRate (s : State) (g : Nat) : Bool := (sgPorts g).any (fun q => !absentQ s q && adminUp s q && pattr s q 2 == 0)
def laneWidth (low : Bool) (speed : Nat) : Nat := if low then 2 ^ speed else 2 ^ speed / 2

/-- R405 for port q of the finished record t, of which the other ports of the group stand as they were. -/
def lanesFit (t : State) (q : Nat) : Bool :=
  let g := portSg q
  let others := (sgPorts g).filter (fun k => k != q && !absentQ t k && adminUp t k)
  let was := others.any (fun k => pattr t k 2 == 0)
  let low := lowRate t g
  let w := laneWidth low (pattr t q 2)
  decide (1 ≤ w ∧ w ≤ maxWidth q)
  && others.all (fun k => decide (anchor k + laneWidth low (pattr t k 2) ≤ anchor q ∨ anchor q + w ≤ anchor k))
  && (others.isEmpty || was == low)

/-- A default_chan or untagged_chan names NONE or a channel, not FREE, of the port (R29, R38). -/
def ownChan (t : State) (v bound inst : Nat) : Bool :=
  v == 0xFFFF || (decide (v < 32766) && (chanOf t v).state != .free && cattr t v bound == inst)

/-- The channels in service on a line port. -/
def lineChans (s : State) (p : Nat) : List Nat :=
  (s.traffic.chans.filter (fun x => (x.2.state == .active || x.2.state == .frozen) && cattr s x.1 3 == p)).map (·.1)

/-- Whether a channel may run on a sealed port (R82). -/
def sealedChan (s : State) (c : Nat) : Bool := cattr s c 8 == 0 && cattr s c 6 == 0 && cattr s c 7 == 0

/-- The channels in service fit the port's mode: R82 sealed, R31 standard. -/
def modeFits (t : State) (p : Nat) : Bool :=
  let l := lineChans t p
  if attr t clsLport p 0x20 = 1 then l.all (sealedChan t)
  else decide (l.length ≤ 1) || l.all (fun c => cattr t c 8 != 0)

def portChecks (r : SetReq) : List Check :=
  let q := r.port
  let down := r.old 1 == 0
  [{ holds := !(r.changed 2 && !down), status := .mode, inputs := [2] },
   { holds := !(r.changed 0x20 && !down), status := .mode, inputs := [0x20] },
   { holds := !(r.cls == clsHport && r.wrote 3) || ownChan r.t (r.new 3) 2 r.inst, status := .badValue, inputs := [3] },
   { holds := !(r.cls == clsLport && r.wrote 0x21) || ownChan r.t (r.new 0x21) 3 r.inst, status := .badValue, inputs := [0x21] }]
  ++ (upFrom 0x10 8).map (fun a => { holds := !(r.wrote a && mkaHeld r.s q a), status := .denied, inputs := [a] })
  ++ [{ holds := !(sealedQ r.t q && r.new 5 != 0), status := .badValue, inputs := [5, 0x20] },
      { holds := !r.wrote 0x0D || spillFits r.t, status := .badValue, inputs := [0x0D] },
      { holds := !r.changed 0x20 || modeFits r.t r.inst, status := .badValue, inputs := [0x20] },
      { holds := !(r.wrote 1 && r.new 1 == 1) || lanesFit r.t q, status := .badValue, inputs := [1, 2] }]

/-- What follows a port set: preemption that is turned off is not operational, nor a hold in force, until the verify process has run
anew (R220), the live counts of a changed mode (R427), and R394 for its channels' effective limits. -/
def portAfter (r : SetReq) (s : State) : State :=
  let q := r.port
  let s := if r.changed 5 && r.new 5 == 0 then regulate q (setPort q { portOf s q with preemptOper := false, hold := false } s) else s
  if r.changed 0x20 then
    let s := onLive r.inst (fun _ => {}) s
    (lineChans s r.inst).foldl (fun s c => limitsChanged c s) s
  else s

/-- Administratively down: frames are discarded, cells end, PSEL of a holder falls (R432, R85, R299). -/
def portDown (q : Nat) (s : State) : State :=
  let s := linkOff q s
  if q < 48 then s
  else
    let p := q - 48
    let s := onTx p (fun t => { t with running := false }) (cutSegs p s)
    if isHolder s then onPair (fun x => { x with psel := x.psel &&& ~~~((1 : BitVec 48) <<< p) }) s else s

/-- Administratively up: a sealed port starts its session or fails with the status of the check (R72, R74); PSEL of a holder
rises. DESIGN CHOICE (log 113): a port that EPOCH_END has stopped carries traffic again after this as after LINK.RESTART, since R74 has
either start a session. -/
def portUp (q : Nat) (s : State) : Option Status × State :=
  if q < 48 then (none, s)
  else
    let p := q - 48
    let (st, s) := if sealedQ s q then startSession p s else (none, s)
    match st with
    | some e => (some e, s)
    | none =>
      let s := if sealedQ s q then freshRx p s else s
      (none, if isHolder s then onPair (fun x => { x with psel := x.psel ||| ((1 : BitVec 48) <<< p) }) s else s)

/-- A port brought up otherwise than by a command: a sealed port whose link master fails its check at this session start sends no cells
and raises EV_LOD with NO_MASTER (R72); while an entropy failure is held the session waits (R162). -/
def bringUp (q : Nat) (s : State) : State :=
  match portUp q s with
  | (none, s) => s
  | (some .busy, s) => defer (.session (q - 48)) s
  | (some _, s) => raise evLod (lodData (q - 48) 4 true) (freshRx (q - 48) s)

/-! Channels (R19, R24, R39, R43, R395) -/

def chanChecks (r : SetReq) : List Check :=
  let x := chanOf r.s r.inst
  let mapped := r.s.traffic.classes.any (fun e => e.chan == r.inst)
    || (upFrom 0 48).any (fun p => attr r.s clsHport p 3 == r.inst)
  let untagged := (upFrom 0 48).any (fun p => attr r.s clsLport p 0x21 == r.inst)
  let cfg (a : Nat) : Check := { holds := !(r.changed a && x.state != .config), status := .mode, inputs := [a] }
  let mka (a : Nat) : Check := { holds := !(r.wrote a && r.new 0x17 == 0), status := .denied, inputs := [a] }
  [{ holds := x.state != .free, status := .badObject, inputs := [] },
   { holds := !(r.wrote 2 && fusedQ r.s (r.new 2)), status := .badValue, inputs := [2] },
   { holds := !(r.wrote 3 && fusedQ r.s (48 + r.new 3)), status := .badValue, inputs := [3] }] ++ [2, 3, 5, 8, 9, 0x0A, 0x0C].map cfg
  ++ [{ holds := !(r.changed 2 && mapped), status := .badValue, inputs := [2] },
      { holds := !(r.changed 3 && untagged), status := .badValue, inputs := [3] },
      { holds := decide (r.new 0x12 < r.new 0x13), status := .badValue, inputs := [0x12, 0x13] },
      { holds := !r.wrote 0x15 || replayFits r.t, status := .badValue, inputs := [0x15] },
      { holds := !(r.wrote 0x16 && r.new 0x16 != 0 && r.world != .officer), status := .denied, inputs := [0x16] }]
  ++ [0x0D, 0x0E, 0x10, 0x11].map mka

/-! Shapers (R203) -/

def shpChecks (r : SetReq) : List Check :=
  let n := r.inst
  let on := r.wrote 3 && r.new 3 == 1
  [{ holds := !(on && (n == 32766 || n == 32767)), status := .badObject, inputs := [3] },
   { holds := !(on && decide (32768 ≤ n) && (n - 32768) % 8 == 7), status := .badValue, inputs := [3] },
   { holds := !(on && decide (n < 32766) && cattr r.t n 4 == 7), status := .badValue, inputs := [3] }]

/-- A shaper newly enabled, or whose rate or depth changes, starts full (R202). -/
def shpAfter (r : SetReq) (s : State) : State :=
  if r.changed 1 || r.changed 2 || r.changed 3 then
    let full : ShapeCnt := { k := (1024 * attr s clsShp r.inst 2 : Nat), last := s.time.ticks }
    onTraffic (fun t => { t with shapes := tset {} t.shapes r.inst full }) s
  else s

/-! Connectivity associations (R58, R59) -/

/-- MKPDUs per second over all CAs at their highest configured hello rates (log 17). -/
def helloRate (s : State) : Rat := rsum ((s.cas.filter (fun c => c.2.exist)).map (fun c => (1000 : Rat) / attr s clsCa c.1 6))

def caChecks (r : SetReq) : List Check :=
  [{ holds := (caOf r.s r.inst).exist, status := .badObject, inputs := [] },
   { holds := decide (r.new 6 ≤ r.new 5), status := .badValue, inputs := [5, 6] },
   { holds := decide (3 * r.new 5 ≤ r.new 7), status := .badValue, inputs := [5, 7] },
   { holds := decide (helloRate r.t ≤ 16384), status := .badValue, inputs := [6] }]

def caAfter (r : SetReq) (s : State) : State :=
  if r.changed 2 || r.changed 3 then
    tieCa r.inst (attr s clsCa r.inst 2) (untieCa r.inst s)
  else s

/-! The other classes -/

def pairChecks (r : SetReq) : List Check :=
  [{ holds := decide (250 + 2 * r.new 7 ≤ r.new 6), status := .badValue, inputs := [6, 7] },
   { holds := decide (4 * r.new 7 ≤ r.new 6), status := .badValue, inputs := [6, 7] }]

def pmuChecks (r : SetReq) : List Check :=
  [{ holds := r.inst != 0 || decide (r.new 8 ≤ r.new 9), status := .badValue, inputs := [8, 9] },
   { holds := !r.wrote 2 || decide (r.new 2 ≤ r.s.pmu.paceLimit), status := .badValue, inputs := [2] }]
  ++ (r.codes.filter (fun a => decide (0x40 ≤ a))).map (fun a =>
      { holds := decide (r.new a ≤ r.old a), status := .badValue, inputs := [a] })

def tamperChecks (r : SetReq) : List Check :=
  r.codes.map (fun a => { holds := (decide (1 ≤ r.inst ∧ r.inst ≤ 9)) || a == 4, status := .badValue, inputs := [a] })

/-- Filters that an event carries (Table 14-2): instance, worlds, masters and address range, classes. -/
def carries (ev a : Nat) : Bool :=
  let g := ev / 256
  let c := ev % 256
  match a with
  | 3 => !(g == 6 || g == 7)
  | 4 => (g == 6 && decide (c ≤ 2)) || g == 7
  | 5 => g == 6 && decide (c ≤ 2)
  | 6 => g == 6 && decide (c ≤ 2)
  | 7 => g == 6 && decide (c ≤ 2)
  | _ => (g == 1 && (c == 2 || c == 3)) || g == 2 || g == 3 || (g == 4 && decide (c ≤ 3))

/-- Whether the finished record's instance filter names a port: groups Port, Sump, Admission and Time, and the sampler (R3). -/
def namesPort (r : SetReq) : Bool :=
  let g := r.new 2 / 256
  decide (r.new 3 < 96) && (r.inst == 256 || g == 1 || g == 2 || g == 3 || g == 8)

def perfChecks (r : SetReq) : List Check :=
  (if r.inst = 256 then [] else
    (upFrom 3 6).map (fun a =>
      { holds := carries (r.new 2) a || r.new a == attrDefault clsPerf r.inst a, status := .badValue, inputs := [a, 2] }))
  ++ [{ holds := decide (r.new 6 ≤ r.new 7), status := .badValue, inputs := [6, 7] },
      { holds := !(namesPort r && fusedQ r.s (r.new 3)), status := .badValue, inputs := [3, 2] }]

/-- A counter's programming changes: its live value and overflow bit clear. A set of perf[256] clears the sampler (R354, R359). -/
def perfAfter (r : SetReq) (s : State) : State :=
  if r.inst = 256 then
    onPerf (fun p => { p with smpCount := 0, smpWr := 0, smpRd := 0, smpFill := 0, smpLost := 0, smpSkip := 0, smpTick := none, smpRec := [] }) s
  else if r.codes.any (fun a => a != 0x0A && r.changed a) then
    onPerf (fun p => { p with cnt := tset 0 p.cnt r.inst 0, ovf := p.ovf &&& ~~~((1 : BitVec 256) <<< r.inst) }) s
  else s

/-- The slot whose expires_s is set: VALID, and only from 0 or to an earlier time (R153, R395). -/
def gslotChecks (r : SetReq) (v : Nat) : List Check :=
  let x := gslotOf r.s r.inst
  [{ holds := x.state == .valid, status := (x.state.refusal).getD .keyInvalid, inputs := [3] },
   { holds := x.expires == 0 || decide (v ≤ x.expires), status := .badValue, inputs := [3] }]

/-! A set as a whole -/

/-- The class's own checks. -/
def classChecks (r : SetReq) (values : List Nat) : List Check :=
  if r.cls = clsHport ∨ r.cls = clsLport then portChecks r
  else if r.cls = clsChan then chanChecks r
  else if r.cls = clsShp then shpChecks r
  else if r.cls = clsCa then caChecks r
  else if r.cls = clsPair then pairChecks r
  else if r.cls = clsPmu then pmuChecks r
  else if r.cls = clsTamper then tamperChecks r
  else if r.cls = clsPerf then perfChecks r
  else if r.cls = clsGslot then gslotChecks r (nth 0 values 0)
  else []

/-- The attributes whose set runs the checks of R186. -/
def boundCodes (cls : Nat) : List Nat :=
  if cls = clsDev then [5] else if cls = clsHport then [2, 8, 0x0B] else if cls = clsLport then [2, 8, 0x0B, 0x20]
  else if cls = clsChan then [2, 3, 4, 0x1A, 0x1B, 0x1C, 0x1D] else if cls = clsPol then [2, 3] else if cls = clsShp then [1, 2, 3, 4]
  else if cls = clsLink then [4] else if cls = clsPmu then [2, 3] else []

/-- The configuration checks that a set must pass, with Q_p written where they do. -/
def boundStep (r : SetReq) : Option State :=
  if r.cls = clsDev ∧ r.wrote 8 ∧ !reserveCheck r.t then none
  else if (boundCodes r.cls).any r.wrote then checked r.t else some r.t

/-- A changed window leaves the PNs below the old lower bound of a slot refused (R44). -/
def keepLow (w n : Nat) (s : State) : State :=
  onTraffic (fun t => { t with replay := tmod {} t.replay n (fun x => { x with low := max x.low (x.high + 1 - w) }) }) s

/-- What a set changes besides its attributes. -/
def classAfter (r : SetReq) (s : State) : State :=
  if r.cls = clsHport ∨ r.cls = clsLport then touch (mirObj r.cls r.inst) (portAfter r s)
  else if r.cls = clsChan then
    let s := if r.changed 0x15 then keepLow (r.old 0x15) (2 * r.inst + 1) (keepLow (r.old 0x15) (2 * r.inst) s) else s
    let s := if r.changed 3 && (chanOf s r.inst).ca != 0xFFFF then placeMka (r.new 3) (dropMka (r.old 3) s) else s
    touch (mirObj clsChan r.inst) (if r.wrote 0x12 || r.wrote 0x13 then limitsChanged r.inst s else s)
  else if r.cls = clsPol then
    let clip (b : Bucket) : Bucket := { b with tc := min b.tc (1024 * r.new 3), te := min b.te (1024 * r.new 5) }
    touch (mirObj clsPol r.inst) (onTraffic (fun t => { t with buckets := tmod {} t.buckets r.inst clip }) s)
  else if r.cls = clsShp then touch (mirObj clsShp r.inst) (shpAfter r s)
  else if r.cls = clsCa then touch (mirObj clsCa r.inst) (caAfter r s)
  else if r.cls = clsLink then touch (mirObj clsLink r.inst) s
  else if r.cls = clsPair then touch (mirObj clsPair 0) s
  else if r.cls = clsTamper then
    let off := decide (1 ≤ r.inst ∧ r.inst ≤ 9) && attr s clsTamper r.inst 1 == 0
    let s := if off then onStp (fun p => { p with alarm := p.alarm.filter (fun n => n != r.inst) }) s else s
    r.codes.foldl (fun s a => stpRecord noSource kindConfig (oid clsTamper r.inst a) s) s
  else if r.cls = clsPerf then perfAfter r s
  else if r.cls = clsDev then quarantineLimit s
  else s

/-- What a set answers: a failure with the index of its entry, all entries applied, or a wait for a domain. -/
inductive SetEnd where
  | fail (st : Status) (ix : Nat)
  | applied
  | waiting

/-- The index of the first entry whose attribute is an input of the failed check. -/
def entryOf (codes inputs : List Nat) : Nat :=
  ((indexed 0 codes).find? (fun x => inputs.contains x.2)).elim 0 (·.1)

/-- The state with every entry's value written. -/
def putAll (cls inst : Nat) (l : List (Nat × Nat)) (s : State) : State :=
  if cls = clsGslot then l.foldl (fun s x => putG inst { gslotOf s inst with expires := x.2 } s) s
  else l.foldl (fun s x => setAttr s cls inst x.1 x.2) s

/-- An administrative change of a port on top of the finished record. -/
def portSwitch (r : SetReq) (base s : State) : SetEnd × State :=
  let q := r.port
  if !r.changed 1 then (.applied, classAfter r s)
  else if r.new 1 = 0 then (.applied, classAfter r (portDown q s))
  else
    match portUp q s with
    | (some st, _) => (.fail st 0, (startSession (q - 48) base).2)
    | (none, t) => (.applied, classAfter r t)

/-- Step 6 of R393 and what follows when it passes. A port set up needs its domains first (R326). -/
def finishSet (r : SetReq) (values : List Nat) : SetEnd × State :=
  match firstBroken (classChecks r values) with
  | some (st, inputs) => (.fail st (entryOf r.codes inputs), r.s)
  | none =>
    match boundStep r with
    | none => (.fail .noBound (entryOf r.codes (boundCodes r.cls ++ if r.cls = clsDev then [8] else [])), r.s)
    | some t =>
      if (r.cls = clsHport ∨ r.cls = clsLport) ∧ r.changed 1 = true ∧ r.new 1 = 1 then
        let doms := [portDom r.port, 42 + portSg r.port]
        match reach doms t with
        | (some false, _) => (.fail .domainOff 0, r.s)
        | (some true, _) => (.waiting, (reach doms r.s).2)
        | (none, t) => portSwitch r (reach doms r.s).2 t
      else if r.cls = clsHport ∨ r.cls = clsLport then portSwitch r r.s t
      else (.applied, classAfter r t)

/-- The worlds and modes of a class's set path (Table 16-5); none where it has none or its own rule decides. -/
def setPath (cls : Nat) : Option (List World × List Mode) :=
  match cls with
  | 0x01 => some (off, [.provision, .maintenance])
  | 0x0E => some (off, [.provision, .maintenance])
  | 0x0C => some (off, psm)
  | 0x0F => some (offOpr, [])
  | 0x11 => some (offOpr, [])
  | 0x12 => some (anyWorld, [.enrol, .provision, .service, .maintenance])
  | 0x02 => some (offOpr, psm) | 0x03 => some (offOpr, psm) | 0x04 => some (offOpr, psm) | 0x05 => some (offOpr, psm)
  | 0x06 => some (offOpr, psm) | 0x09 => some (offOpr, psm) | 0x0A => some (offOpr, psm) | 0x0D => some (offOpr, psm)
  | _ => none

/-- Step 5 of R393: the failing status and entry. -/
def pathRefused (s : State) (w : World) (cls inst : Nat) (codes : List Nat) : Option (Status × Nat) :=
  match setPath cls with
  | none => some (.denied, 0)
  | some (ws, ms) =>
    if !ws.contains w then some (.denied, 0)
    else if cls = clsPmu ∧ w ≠ .officer ∧ codes.any (fun a => decide (7 ≤ a ∧ a ≤ 9)) = true then
      some (.denied, entryOf codes [7, 8, 9])
    else if cls = clsGslot ∧ !attrWorld (gslotOf s inst).attr w ∧ (gslotOf s inst).state = .valid then some (.denied, 0)
    else if !ms.isEmpty && !ms.contains s.glb.mode then some (.mode, 0)
    else if isStandby s && mirrored cls then some (.denied, 0)
    else none

/-- The first index at which a test fails. -/
def firstIx {α : Type} (bad : α → Bool) (l : List α) : Option Nat := ((indexed 0 l).find? (fun x => bad x.2)).map (·.1)

/-- Whether an attribute is written by the command: 0x1A to 0x1D of chan only by SCHED.WEIGHT. -/
def inPath (weight : Bool) (cls a : Nat) : Bool :=
  if cls = clsChan then (if weight then decide (0x1A ≤ a ∧ a ≤ 0x1D) else !decide (0x1A ≤ a ∧ a ≤ 0x1D)) else true

/-- The order of R393 for entries of ID, length and value; only: the class that a group set command sets. -/
def applySet (only : Option Nat) (weight : Bool) (w : World) (l : List SetEntry) (s : State) : SetEnd × State :=
  let spec (e : SetEntry) : Option (Nat × Bool) := idSpec s (idCls e.id) (idInst e.id) (idAttr e.id)
  match firstIx (fun e => (spec e).isNone || only.any (fun c => c != idCls e.id)) l with
  | some i => (.fail .badObject i, s)
  | none =>
    let id0 := (l.head?.map (·.id)).getD 0
    let codes := l.map (fun e => idAttr e.id)
    let cls := idCls id0
    let inst := idInst id0
    match (indexed 0 l).find? (fun x => x.2.id / 256 != id0 / 256 || (codes.take x.1).contains (idAttr x.2.id)) with
    | some x => (.fail .badValue x.1, s)
    | none =>
      match firstIx (fun e => ((spec e).getD (0, false)).1 != e.len) l with
      | some i => (.fail .badLength i, s)
      | none =>
        match firstIx (fun e => ((spec e).getD (0, false)).2 || !inPath weight cls (idAttr e.id)) l with
        | some i => (.fail .denied i, s)
        | none =>
          match pathRefused s w cls inst codes with
          | some (st, i) => (.fail st i, s)
          | none =>
            match firstIx (fun e => !attrRange cls (idAttr e.id) e.value) l with
            | some i => (.fail .badValue i, s)
            | none => finishSet { world := w, cls := cls, inst := inst, codes := codes, s := s,
                                  t := putAll cls inst (l.map (fun e => (idAttr e.id, e.value))) s } (l.map (·.value))

/-- The body of a failed set: the entry index, on the four statuses that carry it. -/
def setReply (st : Status) (ix : Nat) : Reply :=
  (st, if st = .badLength ∨ st = .badValue ∨ st = .denied ∨ st = .noBound then leBytes 2 ix ++ [0, 0] else [])

/-- What a PERF.SET answers: the network time of its tick; its layout is the model's (log 14). -/
def setBody (s : State) (cls : Nat) : Bytes :=
  if cls = clsPerf then leBytes 6 s.time.now.sec ++ [0, 0] ++ leBytes 4 s.time.now.ns else []

/-- A set command: the body's own form first (R393). What it changes for the pair follows at once (R282, R288). -/
def runSet (only : Option Nat) (weight : Bool) (e : Entries) (w : World) (s : State) : Option Reply × State :=
  if !e.reservedZero then (some (setReply .badValue 0), s)
  else match firstIx (fun x => !x.clean) e.list with
    | some i => (some (setReply .badValue i), s)
    | none =>
      if e.list.isEmpty || decide (30 < e.list.length) then (some (setReply .badValue 0), s)
      else match applySet only weight w e.list s with
        | (.fail st i, s) => (some (setReply st i), s)
        | (.applied, s1) => (some (.ok, setBody s1 (idCls ((e.list.head?.map (·.id)).getD 0))), settle s s1)
        | (.waiting, s) => (none, s)

def execObjSet (mb : Mb) (entries : Entries) (s : State) : Result :=
  request anyWorld [] mb.val (runSet none false entries) s
def execChanSet (mb : Mb) (entries : Entries) (s : State) : Result :=
  request anyWorld psm mb.val (runSet (some clsChan) false entries) s
def execCaSet (mb : Mb) (entries : Entries) (s : State) : Result :=
  request offOpr psm mb.val (runSet (some clsCa) false entries) s
def execLinkSet (mb : Mb) (entries : Entries) (s : State) : Result :=
  request offOpr psm mb.val (runSet (some clsLink) false entries) s
def execSchedPolicer (mb : Mb) (entries : Entries) (s : State) : Result :=
  request offOpr psm mb.val (runSet (some clsPol) false entries) s
def execSchedShaper (mb : Mb) (entries : Entries) (s : State) : Result :=
  request offOpr psm mb.val (runSet (some clsShp) false entries) s
def execSchedWeight (mb : Mb) (entries : Entries) (s : State) : Result :=
  request offOpr psm mb.val (runSet (some clsChan) true entries) s
def execPairSet (mb : Mb) (entries : Entries) (s : State) : Result :=
  request off psm mb.val (runSet (some clsPair) false entries) s
def execPmuSet (mb : Mb) (entries : Entries) (s : State) : Result :=
  request anyWorld psm mb.val (runSet (some clsPmu) false entries) s
def execPerfSet (mb : Mb) (entries : Entries) (s : State) : Result :=
  request offOpr [] mb.val (runSet (some clsPerf) false entries) s

/-! OBJ.GET and bulk access (R392, R396) -/

/-- An entry of an OBJ.GET response. -/
def getEntry (s : State) (id : Nat) : Bytes :=
  let (st, v) := readId s id
  leBytes 4 id ++ leBytes 2 st.code ++ leBytes 1 v.length ++ [0] ++ v ++ zeros (cdiv v.length 4 * 4 - v.length)

def execObjGet (mb : Mb) (ids : NatList) (s : State) : Result :=
  request anyWorld [] mb.val (fun _ s =>
    if ids.isEmpty || decide (30 < ids.length) then deny .badValue s
    else
      let b := leBytes 2 ids.length ++ [0, 0] ++ (ids.map (getEntry s)).flatten
      if 496 < b.length then deny .badLength s else done b s) s

/-- The check of a whole bulk request; every instance of the range must carry every attribute. -/
def bulkCheck (s : State) (w : World) (write : Bool) (r : BulkReq) : Option Status :=
  if r.codes.isEmpty || decide (64 < r.codes.length) then some .badValue
  else if clsCount r.cls = 0 ∨ clsCount r.cls < r.first + r.count
      ∨ (upFrom r.first r.count).any (fun i => r.codes.any (fun a => (idSpec s r.cls i a).isNone)) = true
      ∨ r.codes.any (fun a => (attrSpec r.cls r.first a).isNone) = true then some .badObject
  else if (indexed 0 r.codes).any (fun x => (r.codes.take x.1).contains x.2) then some .badValue
  else if !write then none
  else if r.codes.any (fun a => ((attrSpec r.cls r.first a).getD (0, false)).2 || !inPath false r.cls a) then some .denied
  else match setPath r.cls with
    | none => some .denied
    | some (ws, ms) =>
      if !ws.contains w || (r.cls == clsPmu && w != .officer && r.codes.any (fun a => decide (7 ≤ a ∧ a ≤ 9))) then some .denied
      else if !ms.isEmpty && !ms.contains s.glb.mode then some .mode
      else none

/-- One record of an instance; status of an off domain reads zero. -/
def bulkRecord (s : State) (r : BulkReq) (i : Nat) : Bytes :=
  (r.codes.map (fun a =>
    let w := ((attrSpec r.cls i a).getD (0, false)).1
    if statusOff s r.cls i a then zeros w else leBytes w (objValue s r.cls i a))).flatten

def execObjBulkRead (mb : Mb) (req : BulkReq) (s : State) : Result :=
  request anyWorld [] mb.val (fun w s =>
    match bulkCheck s w false req with
    | some st => deny st s
    | none =>
      let d := ((upFrom req.first req.count).map (bulkRecord s req)).flatten
      intoBuffer w req.addr req.colour d (leBytes 4 d.length) s) s

def recordBytes (r : BulkReq) : Nat := (r.codes.map (fun a => ((attrSpec r.cls r.first a).getD (0, false)).1)).foldl (· + ·) 0

/-- The entries that a record spells for an instance. -/
def recordEntries (r : BulkReq) (i : Nat) : List Nat → Bytes → List SetEntry
  | [], _ => []
  | a :: l, b =>
    let w := ((attrSpec r.cls i a).getD (0, false)).1
    { id := oid r.cls i a, len := w, value := leAt b 0 w } :: recordEntries r i l (b.drop w)

/-- The response of a bulk write, given with every status. -/
def bulkReply (st : Status) (applied ix : Nat) : Reply := (st, leBytes 4 applied ++ leBytes 1 ix ++ zeros 3)

/-- Records applied in ascending order, up to the first that fails; where one must wait for a domain, so does the command, which
then applies the records before it once more without effect. -/
def bulkApply (r : BulkReq) (w : World) : (n i : Nat) → Bytes → State → Option Reply × State
  | 0, i, _, s => (some (bulkReply .ok (i - r.first) 0), s)
  | n + 1, i, b, s =>
    match applySet none false w (recordEntries r i r.codes b) s with
    | (.fail st ix, s) => (some (bulkReply st (i - r.first) ix), s)
    | (.applied, s) => bulkApply r w n (i + 1) (b.drop (recordBytes r)) s
    | (.waiting, s) => (none, s)

def execObjBulkWrite (mb : Mb) (req : BulkReq) (s : State) : Result :=
  request anyWorld [] mb.val (fun w s =>
    match bulkCheck s w true req with
    | some st => (some (bulkReply st 0 0), s)
    | none => whenFree (fun s =>
      match bufRead mCp req.colour w.code req.addr (recordBytes req * req.count) s with
      | (none, s) => (some (bulkReply .denied 0 0), s)
      | (some b, s) => bulkApply req w req.count req.first b s) s) s

end Sys2Proof.Machine
end

