-- ==== Sys2Proof/Machine/ChanCmds.lean ====
section
/-! DEFINITION. CHAN, LINK and gate commands (R21 to R31, R49 to R52, R74, R214 to R216), and what completes them. -/

namespace Sys2Proof.Machine

open Sys2Proof

/-! Channels -/

/-- A channel command of its row's worlds and modes, on a channel that exists, not on the standby. -/
def chanRequest (mb chan : Nat) (run : State → Option Reply × State) (s : State) : Result :=
  request offOpr psm mb (fun _ s =>
    if 32766 ≤ chan then deny .badObject s else if isStandby s then deny .denied s else run s) s

def execChanCreate (mb : Mb) (chan : Nat) (s : State) : Result :=
  chanRequest mb.val chan (fun s =>
    if (chanOf s chan).state ≠ .free then deny .badValue s
    else done [] (touch (mirObj clsChan chan) (setChan chan { state := .config } s))) s

/-- What selects a channel's SecY on its standard port (R31). -/
def secyOf (s : State) (c : Nat) : Nat × Nat × Nat :=
  match cattr s c 8 with
  | 0 => (0, 0, 0)
  | 1 => (1, cattr s c 9, 0)
  | _ => (2, cattr s c 9, cattr s c 0x0A)

/-- R31 and R82 at CHAN.ENABLE, against the other channels of the line port in service or with their enable pending. -/
def secyFits (s : State) (c : Nat) : Bool :=
  let p := cattr s c 3
  let others := (enabledChans s).filter (fun k => k != c && cattr s k 3 == p)
  let tic := cattr s c 8
  !(tic != 0 && cattr s c 9 == 0) && !(tic == 2 && cattr s c 0x0A == 0)
  && (if sealedQ s (48 + p) then sealedChan s c
      else others.all (fun k => cattr s k 8 == tic && secyOf s k != secyOf s c))

/-- A channel enters ACTIVE from CONFIG (R23): what is installed then has been, or never becomes, current by a switch (R50). -/
def activate (c : Nat) (s : State) : State :=
  let stale (n : Nat) (s : State) : State := putK n { kslotOf s n with fresh := false } s
  let s := stale (2 * c + 1) (stale (2 * c) s)
  touch (mirObj clsChan c) (setChan c { chanOf s c with state := .active, pendingEnable := false, superseded := false } s)

def execChanEnable (mb : Mb) (chan : Nat) (s : State) : Result :=
  chanRequest mb.val chan (fun s =>
    let x := chanOf s chan
    if x.state = .free then deny .badObject s
    else if x.draining then deny .busy s
    else if x.state ≠ .config ∨ x.pendingEnable = true then done [] s
    else
      let t := setChan chan { x with pendingEnable := true } s
      if !secyFits s chan || !replayFits t then deny .badValue s
      else match checked t with
        | none => deny .noBound s
        | some t =>
          let ready := (kslotOf s (curSlot s chan)).state == .valid
          if cattr s chan 0x17 = 0 then
            if ready && x.ca != 0xFFFF && (caOf s x.ca).secured then done [] (activate chan t) else done [] t
          else if ready then done [] (activate chan t) else deny .keyInvalid s) s

/-- A channel becomes FREE with its slots, CA and record (R22 to R24). -/
def release (c : Nat) (s : State) : State :=
  let s := touch (mirKslot (2 * c + 1)) (touch (mirKslot (2 * c)) (freeChan c s))
  touch (mirObj clsChan c) s

def execChanDisable (mb : Mb) (chan : Nat) (s : State) : Result :=
  chanRequest mb.val chan (fun s =>
    let x := chanOf s chan
    if x.state = .free ∨ x.draining = true then done [] s
    else if x.state = .config then done [] (release chan s)
    else done [] (setChan chan { x with draining := true } s)) s

/-- A draining channel none of whose frames is left becomes FREE (R22). -/
def execChanDrainDone (chan : Nat) (s : State) : Result :=
  .next (if live s && (chanOf s chan).draining && !hasFrames s chan then release chan s else s)

/-- The status of a switch that may not be made. -/
def switchRefused (s : State) (c : Nat) : Option Status :=
  let x := chanOf s c
  let n := kslotOf s (nextSlot s c)
  if x.state = .free then some .badObject
  else if cattr s c 0x17 = 0 ∨ x.state = .config ∨ x.draining = true then some .denied
  else if x.switching then some .busy
  else if n.state ≠ .valid ∨ n.fresh = false then some .keyInvalid
  else none

def execChanSwitch (mb : Mb) (chan : Nat) (s : State) : Result :=
  chanRequest mb.val chan (fun s => match switchRefused s chan with
    | some st => deny st s
    | none => done [] (setChan chan { chanOf s chan with switching := true } s)) s

/-- The superseded slot destroyed retire_ms after the switch, unless a new SAK has taken its place (R51). -/
def execSlotRetire (chan : Nat) (s : State) : Result :=
  .next (
    if live s && (chanOf s chan).superseded
        && decide ((chanOf s chan).switchedAt + cattr s chan 0x19 * 10 ^ 6 ≤ s.time.ticks) then
      let n := nextSlot s chan
      touch (mirKslot n) (destroyK n (setChan chan { chanOf s chan with superseded := false } s))
    else s)

/-! Classification entries (R25 to R30) -/

/-- A key's fields in range: a host port that exists, an inner tag only after an outer one, VIDs of 12 bits. -/
def keyOk (s : State) (k : ClassKey) : Bool :=
  decide (k.hport < 48) && !fusedQ s k.hport && k.outer.all (fun v => decide (v < 4096)) && k.inner.all (fun v => decide (v < 4096))
  && !(k.outer.isNone && k.inner.isSome)

def entryFor (s : State) (k : ClassKey) : Option ClassEntry := s.traffic.classes.find? (fun e => e.key == k)

/-- A channel's classification is no mirrored object (Table 10-10), so the standby's own host maps its entries. -/
def execChanMap (mb : Mb) (chan : Nat) (key : ClassKey) (s : State) : Result :=
  request offOpr psm mb.val (fun _ s =>
    if 32766 ≤ chan ∨ (chanOf s chan).state = .free then deny .badObject s
    else if !keyOk s key || cattr s chan 2 != key.hport then deny .badValue s
    else match entryFor s key with
      | some e => if e.chan = chan then done [] s else deny .badValue s
      | none =>
        let b := Config.classBucket key
        let inBucket := (s.traffic.classes.filter (fun e => !e.overflow && Config.classBucket e.key == b)).length
        let spilledOver := (s.traffic.classes.filter (·.overflow)).length
        if 4 ≤ inBucket ∧ 512 ≤ spilledOver then deny .busy s
        else
          let e : ClassEntry := { key := key, chan := chan, overflow := decide (4 ≤ inBucket) }
          done [] (onTraffic (fun t => { t with classes := t.classes ++ [e] }) s)) s

def execChanUnmap (mb : Mb) (key : ClassKey) (s : State) : Result :=
  request offOpr psm mb.val (fun _ s =>
    if !keyOk s key then deny .badValue s
    else match entryFor s key with
      | none => deny .badObject s
      | some _ => done [] (onTraffic (fun t => { t with classes := t.classes.filter (fun e => !(e.key == key)) }) s)) s

/-- Gydom rewrites an invalidated entry from its copy (R30). -/
def execClassEntryRewrite (key : ClassKey) (s : State) : Result :=
  .next (
    if live s then
      onTraffic (fun t => { t with classes := t.classes.map (fun e => if e.key = key then { e with invalid := false } else e) }) s
    else s)

/-! LINK.RESTART (R72, R74) -/

/-- A new session of a sealed port that is administratively up; on any other port there is none to restart. -/
def execLinkRestart (mb : Mb) (lport : Nat) (s : State) : Result :=
  request offOpr psm mb.val (fun _ s =>
    if 48 ≤ lport ∨ fusedQ s (48 + lport) = true then deny .badObject s
    else if !(sealedQ s (48 + lport) && adminUp s (48 + lport)) then done [] s
    else match startSession lport s with
      | (some st, s) => deny st s
      | (none, s) => done [] s) s

/-! Gate lists (R214 to R216) -/

def entryGood (w : Nat) : Bool :=
  decide (entryOp w ≤ 2) && bits w 51 30 == 0 && decide (64 ≤ entryNs w ∧ entryNs w ≤ 1000000000)

/-- n entries of eight bytes. -/
def gateEntries : Nat → Bytes → List Nat
  | 0, _ => []
  | n + 1, b => leAt b 0 8 :: gateEntries n (b.drop 8)

/-- A gate command on a port that exists, not on the standby. -/
def gateRequest (mb q : Nat) (run : World → State → Option Reply × State) (s : State) : Result :=
  request offOpr psm mb (fun w s =>
    if absentQ s q then deny .badObject s else if isStandby s then deny .denied s else run w (gateTurn q s)) s

def execSchedGateLoad (mb : Mb) (q count cycleNs addr colour : Nat) (s : State) : Result :=
  gateRequest mb.val q (fun w s =>
    if count < 1 ∨ 1024 < count ∨ cycleNs < 64 ∨ 1000000000 < cycleNs then deny .badValue s
    else if (gateOf s q).pending.isSome then deny .busy s
    else withBuffer w addr colour (8 * count) (fun b s =>
      let l := gateEntries count b
      if l.all entryGood && l.foldl (fun a w => a + entryNs w) 0 == cycleNs then
        done [] (setGate q { gateOf s q with admin := l, adminCycle := cycleNs, loaded := true } s)
      else deny .badValue s) s) s

/-- S (R215): base_time, or the first base_time + n cycles at least the lead after now. -/
def gateStart (now lead base cycle : Nat) : Nat :=
  if now + lead ≤ base then base else base + max 1 (cdiv (now + lead - base) cycle) * cycle

/-- The list as it will run from S. -/
def committed (g : Gate) (t : Nat) : Gate := { g with oper := g.admin, cycle := g.adminCycle, start := t, pending := none }

/-- The checks of R186 with the commit pending, old list and closed stretches across S, and with the new list in service. -/
def execSchedGateCommit (mb : Mb) (q baseSec baseNs : Nat) (s : State) : Result :=
  gateRequest mb.val q (fun _ s =>
    let g := gateOf s q
    if 1000000000 ≤ baseNs then deny .badValue s
    else if g.pending.isSome then deny .busy s
    else if !g.loaded then deny .badValue s
    else
      let t := gateStart (netNs s) (1000 * attr s clsDev 0 7) (baseSec * 10 ^ 9 + baseNs) g.adminCycle
      let s1 := setGate q { g with pending := some t, loaded := false } s
      if !configOk (setGate q (committed g t) s) then deny .noBound s
      else match checked s1 with
        | none => deny .noBound s
        | some s1 => done (leBytes 6 (t / 10 ^ 9) ++ [0, 0] ++ leBytes 4 (t % 10 ^ 9)) (touch (mirObj clsGate q) s1)) s

/-- A pending commit cleared before S; once S has been reached the swap stands (R216). -/
def execSchedGateCancel (mb : Mb) (q : Nat) (s : State) : Result :=
  gateRequest mb.val q (fun _ s =>
    let g := gateOf s q
    match g.pending with
    | none => if g.cycle = 0 then done [] s else deny .busy s
    | some t =>
      if t ≤ netNs s then deny .busy s
      else done [] (touch (mirObj clsGate q) (setGate q { g with pending := none, loaded := true } s))) s

end Sys2Proof.Machine
end

