-- ==== Sys2Proof/Machine/Mka.lean ====
section
/-! DEFINITION. MKA as run by Gydom (R54 to R61, R23, Table 2-5): the CA commands, MKPDUs, live peers and rekeys. -/

namespace Sys2Proof.Machine

open Sys2Proof

/-- MKA runs on the lease holder, and in PROVISION on a device that is no standby (R289, R306). -/
def mkaRuns (s : State) : Bool :=
  live s && (isHolder s || (s.glb.mode == .provision && s.pair.lease == .none))

/-- A CA that runs: created, its channel not FREE, with an ICK and a KEK. -/
def caRuns (s : State) (ca : Nat) : Bool :=
  mkaRuns s && (caOf s ca).exist && !(caOf s ca).stopped && tget {} s.keys.internal (handleKek ca) != {}

/-! Commands -/

def caRequest (mb ca : Nat) (modes : List Mode) (run : State → Option Reply × State) (s : State) : Result :=
  request offOpr modes mb (fun _ s =>
    if 4096 ≤ ca then deny .badObject s else if isStandby s then deny .denied s else run s) s

def execCaCreate (mb : Mb) (ca chan cakGslot : Nat) (s : State) : Result :=
  caRequest mb.val ca psm (fun s =>
    let x := chanOf s chan
    if 32766 ≤ chan then deny .badObject s
    else if (caOf s ca).exist = true ∨ cattr s chan 0x17 ≠ 0 ∨ x.state ≠ .config ∨ x.ca ≠ 0xFFFF ∨ 1024 ≤ cakGslot then
      deny .badValue s
    else
      let (mi, s1) := draw 96 s
      let s1 := setCa ca { exist := true, mi := mi.toNat } { s1 with objs := dropInst s1.objs clsCa ca }
      let s1 := setAttr (setAttr s1 clsCa ca 1 chan) clsCa ca 2 cakGslot
      if 16384 < helloRate s1 then deny .badValue s
      else
        let s1 := tieCa ca cakGslot s1
        let s1 := placeMka (cattr s1 chan 3) (setChan chan { x with ca := ca } s1)
        done [] (touch (mirObj clsChan chan) (touch (mirObj clsCa ca) (touch (mirCa ca) s1)))) s

def execCaRekey (mb : Mb) (ca offsetMs : Nat) (s : State) : Result :=
  caRequest mb.val ca [.service, .maintenance] (fun s =>
    if !(caOf s ca).exist then deny .badObject s
    else if 3600000 < offsetMs then deny .badValue s
    else done [] (rekeyFrom (s.time.ticks + offsetMs * 10 ^ 6) ca s)) s

def execCaDelete (mb : Mb) (ca : Nat) (s : State) : Result :=
  caRequest mb.val ca psm (fun s =>
    let c := caChan s ca
    let x := chanOf s c
    let bound := x.ca == ca
    if !(caOf s ca).exist then deny .badObject s
    else if bound && (x.state == .active || x.state == .frozen) then deny .busy s
    else
      let p := cattr s c 3
      let s := untieCa ca s
      let s := if bound then touch (mirObj clsChan c) (setChan c { x with ca := 0xFFFF } s) else s
      let s := setCa ca {} { s with objs := dropInst s.objs clsCa ca }
      done [] (touch (mirObj clsCa ca) (dropMka p s))) s

/-! Rekeys (R57, R60, R61, Table 2-5) -/

/-- A change of the live peers is a trigger for the key server; one after its SAK was distributed causes a second rekey. -/
def peersChanged (ca : Nat) (s : State) : State :=
  let x := caOf s ca
  if keyServer s ca && x.active && x.ours && x.distributed then setCa ca { x with again := true } s else rekeyDue ca s

/-- The slot that a new SAK of a CA's channel goes into: the current one in CONFIG, otherwise the next (R23, R49). -/
def sakSlot (s : State) (c : Nat) : Nat := if (chanOf s c).state = .config then curSlot s c else nextSlot s c

/-- The AN and SSCIs of a new SAK written to the channel's record, and to that of its frames not yet dispatched, since this is no
CHAN.SET (R24). -/
def sakAttrs (c n an ssciTx ssciRx : Nat) (s : State) : State :=
  let upd (f : Frame) : Frame := match f.chan == c, f.stage with
    | true, .inCluster _ => f
    | true, .complete => f
    | true, _ => { f with record := { f.record with
        ssciTx := ssciTx, ssciRx := ssciRx, an0 := if n % 2 = 0 then an else f.record.an0, an1 := if n % 2 = 0 then f.record.an1 else an } }
    | false, _ => f
  onTraffic (fun t => { t with frames := t.frames.map (fun p => (p.1, upd p.2)) })
    (setAttr (setAttr (setAttr s clsChan c (0x10 + n % 2) an) clsChan c 0x0D ssciTx) clsChan c 0x0E ssciRx)

/-- The AN after the current one; the first is 0 (log 21). -/
def nextAn (s : State) (c : Nat) : Nat :=
  if (chanOf s c).state = .config then 0 else (cattr s c (0x10 + curSlot s c % 2) + 1) % 4

/-- The SSCIs of IEEE 802.1AE for two peers: 1 for the greater SCI (log 22). -/
def ssciOf (s : State) (c : Nat) : Nat × Nat := if cattr s c 0x0C ≤ cattr s c 0x0B then (1, 2) else (2, 1)

/-- The salt of an SAK of the XPN suites (R138; PRESUMED, log 18: IEEE 802.1X-2020): the key server's member identifier with its
top 32 bits XORed with the halves of the key number, the lower half first. -/
def mkaSalt (mi kn : Nat) : Salt := BitVec.ofNat 96 (mi ^^^ ((kn % 65536) * 2 ^ 80 + kn / 65536 % 65536 * 2 ^ 64))

/-- A rekey that may start now: due, its offset past, with a live peer, and no other rekey or switch of the channel under way. -/
def startable (s : State) (ca : Nat) : Bool :=
  let x := caOf s ca
  let c := chanOf s (caChan s ca)
  caRuns s ca && x.due && decide (x.dueFrom ≤ s.time.ticks) && !x.active && !x.peers.isEmpty && keyServer s ca && !s.keys.entropyHeld
    && !c.draining && !c.switching

/-- Rekeys started in the present millisecond (R61). -/
def rekeysNow (s : State) : Nat := if s.traffic.rekeys.1 = s.time.ticks / 10 ^ 6 then s.traffic.rekeys.2 else 0

/-- A due rekey starts (R61: at most 64 in a millisecond, the lowest CA first): the SAK is generated into its slot, and distributed
once a READY partner holds it (R295). -/
def execRekeyStart (ca : Nat) (s : State) : Result :=
  .next (
    let x := caOf s ca
    let c := caChan s ca
    if !startable s ca || decide (64 ≤ rekeysNow s) || s.cas.any (fun p => decide (p.1 < ca) && startable s p.1) then s
    else
      let n := sakSlot s c
      let suite := cattr s c 5
      let size := if suite = 1 then 32 else 16
      let (k, s1) := draw 256 (onKeys (fun y => { y with reseeded := s.time.ticks }) s)
      let kn := (x.kn + 1) % 2 ^ 32
      let key := keyOf ((keyOctets k).take size)
      let an := nextAn s c
      let sscis := ssciOf s c
      match readInternal (handleKek ca) s1 with
      | (none, s1) => s1
      | (some kek, s1) =>
      let s1 := sakAttrs c n an sscis.1 sscis.2 (installK n suite 1 key (mkaSalt x.mi kn) s1)
      let w := ofOctets (kwWrap (kek.take x.kekBytes) ((keyOctets key).take size))
      let peers := x.peers.map (fun p => { p with rxLatest := false, txLatest := false })
      let s1 := setCa ca { x with
        due := false, active := true, ours := true, distributed := false, again := false, wrapped := w, peers := peers, kn := kn
        latest := some { mi := x.mi, kn := kn, an := an }, older := x.latest } s1
      let s1 := onTraffic (fun t => { t with rekeys := (s.time.ticks / 10 ^ 6, rekeysNow s + 1) }) s1
      let s1 := touch (mirObj clsChan c) (touch (mirKslot n) s1)
      let s1 := if s.pair.state = .ready ∧ mirroring s1 = true then
          onPair (fun p => { p with sakWait := p.sakWait ++ [(mirKslot n, ca)] }) s1
        else s1
      settle s s1)

/-- The switch that ends a rekey: in CONFIG with its enable pending the channel enters ACTIVE (R23); otherwise the rekey sequencer
takes the switch (R50). A live-peer change since the distribution makes the next rekey due (R60). -/
def endRekey (ca : Nat) (s : State) : State :=
  let c := caChan s ca
  let y := chanOf s c
  let s := if y.state = .config then (if y.pendingEnable then activate c s else s)
    else if (kslotOf s (nextSlot s c)).state = .valid ∧ (kslotOf s (nextSlot s c)).fresh = true then setChan c { y with switching := true } s
    else s
  let x := caOf s ca
  let s := setCa ca { x with
    active := false, ours := false, distributed := false, again := false, due := x.due || x.again, secured := true, wrapped := []
    switchedAt := s.time.ticks } s
  touch (mirCa ca) s

/-- The switch is made once every live peer receives under the SAK distributed, or the key server transmits under it. -/
def trySwitch (ca : Nat) (s : State) : State :=
  let x := caOf s ca
  if !x.active || x.peers.isEmpty then s
  else if keyServer s ca then (if x.distributed && x.peers.all (·.rxLatest) then endRekey ca s else s)
  else if x.peers.any (·.txLatest) then endRekey ca s
  else s

/-! MKPDUs -/

/-- A parameter set: its type, second octet, the high half of its third, and its body padded to whole words (log 59). -/
def paramSet (ty b2 flags : Nat) (body : Bytes) : Bytes :=
  beBytes 1 ty ++ beBytes 1 b2 ++ beBytes 2 (flags * 4096 + body.length) ++ body ++ zeros (cdiv body.length 4 * 4 - body.length)

/-- The cipher suite identifiers of the two XPN suites. -/
def suiteId (suite : Nat) : Nat := 0x0080C20001000003 + suite

/-- The code of a confidentiality offset: 1 for none, 2 for 30, 3 for 50. -/
def offsetCode (o : Nat) : Nat := if o = 0 then 1 else if o = 30 then 2 else 3

/-- The CKN of a CA. -/
def cknOf (s : State) (ca : Nat) : Bytes := let v := attr s clsCa ca 3; leBytes (v % 256) (v / 256)

/-- A peer list's entries. -/
def peerList (l : List Peer) : Bytes := (l.map (fun p => beBytes 12 p.mi ++ beBytes 4 p.mn)).flatten

def SakId.bytes (k : SakId) (pn : Nat) : Bytes := beBytes 12 k.mi ++ beBytes 4 k.kn ++ beBytes 4 (pn % 2 ^ 32)

/-- The SAK Use and XPN parameter sets: the newest SAK and the one before, each with whether it transmits and receives and its
lowest acceptable PN. -/
def useSets (s : State) (ca : Nat) : Bytes :=
  let x := caOf s ca
  let c := caChan s ca
  let old := x.older.getD {}
  let held := x.older.isSome && (x.active || (chanOf s c).superseded)
  let pn := pnOf s (curSlot s c)
  let pnL := if x.active then 1 else pn
  let pnO := if x.active then pn else 0
  match x.latest with
  | none => []
  | some k =>
    paramSet 3 (64 * k.an + 32 * b01 (!x.active) + 16 + (if held then 4 * old.an + 2 * b01 x.active + 1 else 0)) 0
      (k.bytes pnL ++ (if held then old.bytes pnO else zeros 20))
    ++ paramSet 8 0 0 (beBytes 4 (pnL / 2 ^ 32) ++ beBytes 4 (if held then pnO / 2 ^ 32 else 0))

/-- The Distributed SAK parameter set of a channel's suite and offset (R57, R58). -/
def sakSet (s : State) (c : Nat) (k : SakId) (wrapped : Bytes) : Bytes :=
  paramSet 4 (64 * k.an + 16 * offsetCode (cattr s c 7)) 0 (beBytes 4 k.kn ++ beBytes 8 (suiteId (cattr s c 5)) ++ wrapped)

/-- The octets that an MKPDU's ICV covers, its addresses and EtherType first. -/
def icvText (src : Nat) (pdu : Bytes) : NatList := octets (beBytes 6 0x0180C2000003 ++ beBytes 6 src ++ beBytes 2 0x888E ++ pdu)

/-- An EAPOL-MKA PDU from its version field, its ICV last (R55, R58): MACsec desired with capability 3, live and potential peers, SAKs
in use, and a SAK to distribute. -/
def mkpdu (s : State) (ca mn src : Nat) (dist : Bool) (ick : NatList) : Bytes :=
  let x := caOf s ca
  let c := caChan s ca
  let basic := paramSet 3 (attr s clsCa ca 4) (8 * b01 (keyServer s ca) + 7)
    (beBytes 8 (cattr s c 0x0B) ++ beBytes 12 x.mi ++ beBytes 4 mn ++ beBytes 4 0x0080C201 ++ cknOf s ca)
  let sets := basic ++ (if x.peers.isEmpty then [] else paramSet 1 0 0 (peerList x.peers))
    ++ (if x.potential.isEmpty then [] else paramSet 2 0 0 (peerList x.potential)) ++ useSets s ca
    ++ (if dist then sakSet s c (x.latest.getD {}) x.wrapped else [])
  let head := beBytes 1 3 ++ beBytes 1 5 ++ beBytes 2 (sets.length + 16) ++ sets
  head ++ ofOctets (cmac ick (icvText src head))

/-- A SAK that an MKPDU distributes: its key number, AN, suite identifier, offset code and wrapping. -/
structure DistSak where
  kn : Nat
  an : Nat
  suite : Nat
  offset : Nat
  wrapped : Bytes
  deriving DecidableEq, Repr

/-- What an MKPDU says: its sender, the members it lists, the SAK it names newest with its use, its transmit PN, and a distributed
SAK. A request for suspension is not read (R58). -/
structure Mkpdu where
  priority : Nat := 0
  sci : Nat := 0
  mi : Nat := 0
  mn : Nat := 0
  ckn : Bytes := []
  lists : List (Nat × Nat) := []
  latest : Option SakId := none
  rx : Bool := false
  tx : Bool := false
  pnLow : Nat := 0
  pnHigh : Nat := 0
  sak : Option DistSak := none
  deriving DecidableEq, Repr

/-- The transmit PN that is reported under the newest SAK. -/
def Mkpdu.txPn (m : Mkpdu) : Nat := m.pnHigh * 2 ^ 32 + m.pnLow

def readPeers : Nat → Bytes → List (Nat × Nat)
  | 0, _ => []
  | n + 1, b => (beAt b 0 12, beAt b 12 4) :: readPeers n (b.drop 16)

/-- The parameter sets after the basic one. -/
def readSets : (fuel : Nat) → Bytes → Mkpdu → Mkpdu
  | 0, _, m => m
  | n + 1, b, m =>
    if b.length < 4 then m
    else
      let b2 := beAt b 1 1
      let len := beAt b 2 2 % 4096
      let d := (b.drop 4).take len
      readSets n (b.drop (4 + cdiv len 4 * 4)) (match beAt b 0 1 with
        | 1 => { m with lists := m.lists ++ readPeers (len / 16) d }
        | 2 => { m with lists := m.lists ++ readPeers (len / 16) d }
        | 3 => { m with
            latest := some { mi := beAt d 0 12, kn := beAt d 12 4, an := bits b2 7 6 }, tx := bit b2 5, rx := bit b2 4, pnLow := beAt d 16 4 }
        | 4 =>
          if len = 28 then { m with sak := some {
            kn := beAt d 0 4, an := bits b2 7 6, suite := 0x0080C20001000001, offset := bits b2 5 4, wrapped := d.drop 4 } }
          else if 36 ≤ len then { m with sak := some {
            kn := beAt d 0 4, an := bits b2 7 6, suite := beAt d 4 8, offset := bits b2 5 4, wrapped := d.drop 12 } }
          else m
        | 8 => { m with pnHigh := beAt d 0 4 }
        | _ => m)

/-- An EAPOL-MKA PDU read under an ICK; none where its form or its ICV is wrong. -/
def readMkpdu (ick : NatList) (src : Nat) (pdu : Bytes) : Option Mkpdu :=
  let size := 4 + beAt pdu 2 2
  let head := pdu.take (size - 16)
  let basic := beAt pdu 6 2 % 4096
  if beAt pdu 1 1 ≠ 5 ∨ pdu.length < size ∨ basic < 29 ∨ size < 24 + basic ∨ beAt pdu 32 4 ≠ 0x0080C201
      ∨ cmac ick (icvText src head) ≠ octets ((pdu.drop (size - 16)).take 16) then none
  else some (readSets head.length (head.drop (8 + cdiv basic 4 * 4)) {
    priority := beAt pdu 5 1, sci := beAt pdu 8 8, mi := beAt pdu 16 12, mn := beAt pdu 28 4, ckn := (pdu.drop 36).take (basic - 28) })

/-- Whether a received MKPDU's sender is the elected key server (R56). -/
def elected (s : State) (ca : Nat) (m : Mkpdu) : Bool :=
  !keyServer s ca && m.priority != 255
    && (caOf s ca).peers.all (fun x => decide (m.priority < x.priority) || (m.priority == x.priority && decide (m.sci ≤ x.sci)))

/-- A distributed SAK taken by a device that is not the key server (R57, R58): suite and offset must be the record's, or the CA is
not secured and a CA fault event is counted. The SAK serves any trigger of a rekey that was due here (R60). -/
def takeSak (ca mi : Nat) (d : DistSak) (s : State) : State :=
  let x := caOf s ca
  let c := caChan s ca
  let suite := cattr s c 5
  let n := sakSlot s c
  let id : SakId := { mi := mi, kn := d.kn, an := d.an }
  if (chanOf s c).draining || (chanOf s c).switching || x.latest == some id || (chanOf s c).state == .free then s
  else if d.suite ≠ suiteId suite ∨ d.offset ≠ offsetCode (cattr s c 7) then
    setCa ca { x with secured := false, faults := x.faults + 1 } s
  else
    match readInternal (handleKek ca) s with
    | (none, s1) => s1
    | (some kek, s1) => match kwUnwrap (kek.take x.kekBytes) (octets d.wrapped) with
    | none => s1
    | some k =>
      let sscis := ssciOf s c
      let s1 := sakAttrs c n d.an sscis.1 sscis.2 (installK n suite 3 (keyOf k) (mkaSalt mi d.kn) s1)
      let peers := x.peers.map (fun p => { p with rxLatest := false, txLatest := false })
      let s1 := setCa ca { x with
        active := true, ours := false, due := false, distributed := false, peers := peers, latest := some id, older := x.latest } s1
      touch (mirObj clsChan c) (touch (mirKslot n) s1)

/-- The oldest MKPDU that waits for a CA, with its source address: of those diverted on a standard port, or of the control segments of
a sealed one (R55, R83; there the source is the address in the sender's SCI). -/
def mkaTake (ca : Nat) (s : State) : Option (Nat × Bytes) × State :=
  let c := caChan s ca
  let p := cattr s c 3
  if sealedQ s (48 + p) then
    if !(listening s p && (whOf s p).rx.keyed) then (none, s)
    else match inboxTake p (fun x => isType 5 x && beAt x.data 2 2 == c) s with
      | (none, _) => (none, s)
      | (some x, t) => (some (beAt x.data 12 6, x.data.drop 4), setDefect p 2 false t)
  else match s.traffic.mkaIn.find? (fun x => x.1 == ca) with
    | none => (none, s)
    | some x =>
      let first := s.traffic.mkaIn.findIdx (fun y => y.1 == ca)
      (some (beAt x.2 6 6, x.2.drop 14), onTraffic (fun t => { t with mkaIn := t.mkaIn.eraseIdx first }) s)

/-- An accepted MKPDU (R55 to R60): its sender is live once it lists this device, a potential peer until then. -/
def hearPeer (ca : Nat) (m : Mkpdu) (s : State) : State :=
  let x := caOf s ca
  let c := caChan s ca
  let known := x.peers.find? (fun p => p.mi == m.mi)
  let newest := x.latest.isSome && m.latest == x.latest
  let me : Peer := { mi := m.mi, mn := m.mn, priority := m.priority, sci := m.sci, heard := s.time.ticks
                     rxLatest := newest && m.rx, txLatest := newest && m.tx }
  let others (l : List Peer) : List Peer := l.filter (fun p => p.mi != m.mi)
  let listsUs := m.lists.any (fun l => l.1 == x.mi && decide (0 < l.2 ∧ l.2 ≤ x.mn))
  if (x.peers ++ x.potential).any (fun p => p.mi == m.mi && decide (m.mn ≤ p.mn)) then s
  else if known.isNone && !listsUs then setCa ca { x with potential := others x.potential ++ [me] } s
  else
    let s1 := touch (mirCa ca) (setCa ca { x with peers := others x.peers ++ [me], potential := others x.potential } s)
    let s1 := if known.isNone then peersChanged ca s1 else s1
    let s1 := if newest && m.tx && decide (effThresh s1 c ≤ m.txPn) then rekeyDue ca s1 else s1
    let s1 := match m.sak with
      | some d => if elected s1 ca m then takeSak ca m.mi d s1 else s1
      | none => s1
    trySwitch ca s1

/-- Whether an MKPDU of a CA waits as a diverted frame, in granules of the Cistern. -/
def diverted (s : State) (ca : Nat) : Bool := !sealedQ s (48 + cattr s (caChan s ca) 3) && s.traffic.mkaIn.any (fun x => x.1 == ca)

/-- Gydom takes the oldest MKPDU received for a CA; link: parity in the link RAM on its granules' chain, which halts (R257). -/
def execMkpduReceive (ca : Nat) (link : Bool) (s : State) : Result :=
  .next (
    if !live s then s
    else if link && diverted s ca then halt haltLinkRam s
    else match mkaTake ca s with
      | (none, _) => s
      | (some (src, pdu), s1) =>
        if !caRuns s1 ca then s1
        else
          match readInternal (handleIck ca) s1 with
          | (none, s1) => s1
          | (some ick, s1) => match readMkpdu (ick.take (caOf s1 ca).kekBytes) src pdu with
          | none => s1
          | some m => if m.ckn ≠ cknOf s1 ca ∨ m.mi = (caOf s1 ca).mi then s1 else settle s (hearPeer ca m s1))

/-- The Ethernet frame of an MKPDU on a standard port: the channel's clear tags, EtherType 0x888E. -/
def mkpduFrame (s : State) (c : Nat) (pdu : Bytes) : Bytes :=
  let p := cattr s c 3
  let tic := cattr s c 8
  beBytes 6 0x0180C2000003 ++ beBytes 6 (Config.portMac p).toNat
  ++ (if tic = 0 then [] else beBytes 2 0x88A8 ++ beBytes 2 (cattr s c 9))
  ++ (if tic = 2 then beBytes 2 0x8100 ++ beBytes 2 (cattr s c 0x0A) else [])
  ++ beBytes 2 0x888E ++ pdu

/-- MKPDUs sent in the present second of the TIME clock (R59). -/
def mkaSentNow (s : State) : Nat := if s.traffic.mkaSent.1 = s.time.ticks / 10 ^ 9 then s.traffic.mkaSent.2 else 0

/-- Whether this device has the SAK of its rekey to distribute, every peer condition of the pair met. -/
def distributes (s : State) (ca : Nat) : Bool :=
  let x := caOf s ca
  x.active && x.ours && keyServer s ca && !s.pair.sakWait.any (fun w => w.2 == ca)

/-- Whether a CA's MKPDU is due: the Hello Time has passed, the bounded one while a SAK change is pending (R58), or a new SAK is to be
distributed, which Table 2-9 sends at once. -/
def helloDue (s : State) (ca : Nat) : Bool :=
  let x := caOf s ca
  let time := if x.active || x.due then attr s clsCa ca 6 else attr s clsCa ca 5
  x.sentAt.all (fun t => passed s t (time * 10 ^ 6)) || (distributes s ca && !x.distributed)

/-- Gydom sends a CA's MKPDU (R55, R58, R83): with the SAK of a rekey of its own whose slot a READY partner holds. A full management
queue waits (R208), and so does an MKPDU beyond 16,384 in a second (R59). -/
def execMkpduSend (ca : Nat) (s : State) : Result :=
  .next (
    let x := caOf s ca
    let c := caChan s ca
    let p := cattr s c 3
    let q := 48 + p
    let room := sealedQ s q || decide ((portOf s q).mgmt.length < 64)
    if !caRuns s ca || !adminUp s q || !room || decide (16384 ≤ mkaSentNow s) || !helloDue s ca then s
    else
      let dist := distributes s ca
      let mn := (x.mn + 1) % 2 ^ 32
      match readInternal (handleIck ca) s with
      | (none, s1) => s1
      | (some ick, s1) =>
      let src := if sealedQ s q then cattr s c 0x0B / 65536 else (Config.portMac p).toNat
      let pdu := mkpdu s ca mn src dist (ick.take x.kekBytes)
      let s1 := setCa ca { x with mn := mn, distributed := x.distributed || dist, sentAt := some s.time.ticks }
        (onTraffic (fun t => { t with mkaSent := (s.time.ticks / 10 ^ 9, mkaSentNow s + 1) }) s1)
      let s1 := if sealedQ s q then queueCtl p { data := beBytes 1 5 ++ [0] ++ beBytes 2 c ++ pdu } s1
        else pushMgmt q { data := mkpduFrame s c pdu } s1
      trySwitch ca (touch (mirCa ca) s1))

/-- A peer not heard from within the MKA Life Time (R58). -/
def execPeerLifeExpire (ca peer : Nat) (s : State) : Result :=
  .next (
    let x := caOf s ca
    let gone (p : Peer) : Bool := p.mi == peer && decide (p.heard + attr s clsCa ca 7 * 10 ^ 6 ≤ s.time.ticks)
    if !caRuns s ca || !(x.peers ++ x.potential).any gone then s
    else
      let l := x.peers.filter (fun p => !gone p)
      let s1 := touch (mirCa ca) (setCa ca { x with
        peers := l, potential := x.potential.filter (fun p => !gone p), secured := x.secured && !l.isEmpty } s)
      trySwitch ca (if l.length < x.peers.length then peersChanged ca s1 else s1))

/-- rekey_s has elapsed since the last switch (R60). -/
def execRekeyInterval (ca : Nat) (s : State) : Result :=
  .next (
    let n := attr s clsCa ca 8
    if caRuns s ca && n != 0 && decide ((caOf s ca).switchedAt + n * 10 ^ 9 ≤ s.time.ticks) then rekeyDue ca s else s)

end Sys2Proof.Machine
end

