-- ==== Sys2Proof/Machine/Lease.lean ====
section
/-! DEFINITION. The mated pair at work (R286 to R302): PAIR commands, the lease, mirroring, watermarks, and the messages of Table 10-7
as they arrive. -/

namespace Sys2Proof.Machine

open Sys2Proof

/-- Lease and mirror messages are not exchanged in RECOVERY (R306). -/
def onLease (f : State → State) (s : State) : State := if s.glb.mode = .recovery then s else f s

/-- A message of Table 10-7 reaches a live device over its KEYED mated link; its segment has passed its ICV, so dLHB clears (R96). -/
def onMessage (f : State → State) (s : State) : Result :=
  .next (if live s && paired s && s.pair.linkUp then f (setDefect 48 2 false s) else s)

/-! Binding (R286, R287) -/

/-- The pair as it stands for a device whose binding has just changed: what the old partner left is gone;
the versions of its own objects go on. -/
def freshPair (st : PairState) (lease : Lease) (s : State) : State :=
  dropInternal handlePairLink (dropInternal handlePairWrap { s with pair := {
    state := st, lease := lease, psel := s.pair.psel, versions := s.pair.versions } })

/-- PAIR.BIND, which must reach PD_MATE (R326). KEY.IDENTITY's item names no part number: which part a device_id belongs to is
Config.partOf (log 32). -/
def execPairBind (mb : Mb) (addr colour : Nat) (s : State) : Result :=
  request off [.provision, .maintenance] mb.val (fun w s =>
    let bind (s : State) : Option Reply × State := withBuffer w addr colour 1289 (fun b s =>
      let id := beAt b 1281 8
      if id = deviceId s ∨ Config.partOf (BitVec.ofNat 64 id) ≠ s.nvm.part9624 then deny .badValue s
      else
        let s := onNvm (fun n => { n with
          binding := some { id := BitVec.ofNat 64 id, ek := b.take 1184, point := bsub b 1184 97 } }) s
        (some (reply .ok), startMate (freshPair .pairing s.pair.lease s))) s
    match reach [78] s with
    | (some false, s) => deny .domainOff s
    | (some true, s) => (none, s)
    | (none, s) => bind s) s

/-- An unpaired device holds the lease only as R289 says: one that was the holder goes on, any other reads NONE. -/
def execPairUnbind (mb : Mb) (s : State) : Result :=
  request off [.provision, .maintenance] mb.val (fun _ s =>
    if !paired s then done [] s
    else
      let lease : Lease := if isHolder s then .holder else .none
      done [] (stopMate (freshPair .unpaired lease (onNvm (fun n => { n with binding := none }) s)))) s

/-- PAIR.SOLO (R290) for a device whose mated link is not KEYED; on one that is, the partner decides (DENIED, log 33). -/
def execPairSolo (mb : Mb) (s : State) : Result :=
  request off psm mb.val (fun _ s =>
    if !paired s ∨ s.pair.linkUp = true then deny .denied s
    else if isHolder s then done [] s
    else
      done [] (onPair (fun p => { p with alone := true, took := false, state := .notReady }) (takeLease s))) s

/-- Whether the partner's last STATE reported READY. -/
def partnerReady (s : State) : Bool := match s.pair.partner with | some (_, r, _) => r == 1 | none => false

/-- PAIR.HANDOVER (R302): answered when the handover ends. DEDUCED (log 130): only the partner's state is asked about, since this device
reads NOT_READY in MAINTENANCE, where the command is allowed. -/
def execPairHandover (mb : Mb) (s : State) : Result :=
  request offOpr [.service, .maintenance] mb.val (fun _ s =>
    if paired s ∧ !isHolder s then deny .denied s
    else if !(s.pair.linkUp && partnerReady s) then deny .pairNotReady s
    else if s.pair.handover.isSome then deny .busy s
    else (none, startHandover (some mb.val) s)) s

def execPairPart (part total : Nat) (data : Bytes) (s : State) : Result := onMessage (takePart part total data) s
def execPairConfirm (tag : Nat) (s : State) : Result := onMessage (takeConfirm tag) s

/-- A new attempt every 100 ms while the exchange has not given the pair its keys (R287). -/
def execPairingRetry (s : State) : Result :=
  .next (if live s && paired s && s.pair.linkUp && !pairKeyed s && passed s s.pair.exchAt (10 ^ 8) then beginExchange s else s)

/-! The lease (R290 to R293) -/

def isReady (s : State) : Bool := s.pair.state == .ready

/-- LEASE_RENEW, every renew_us; a holder without its partner sends none (R292). -/
def execLeaseRenewSend (s : State) : Result :=
  .next (
    if live s && paired s && isHolder s && s.pair.linkUp && !s.pair.alone
        && s.pair.renewAt.all (fun t => passed s t (1000 * pairAttr s 7)) then
      let n := (s.pair.renewSeq + 1) % 2 ^ 32
      let now := s.time.ticks
      let s := onPair (fun p => { p with
        renewSeq := n, lastEcho := p.ackState, renewAt := some now
        renews := p.renews.filter (fun r => decide (now ≤ r.2 + 1000 * pairAttr s 6)) ++ [(n, now)] }) s
      mate 0x10 (beBytes 4 n ++ beBytes 1 s.pair.lastEcho) s
    else s)

/-- A renewal on a device that is not the holder: it is the standby, its grant runs on, and it answers. A repeat is answered again
and does nothing else. A fenced device reads FENCED until the link keys again (R291). -/
def execLeaseRenew (seq echo : Nat) (s : State) : Result :=
  onMessage (onLease (fun s =>
    if isHolder s then s
    else
      let again := match s.pair.rxRenew with | some (q, _) => q == seq | none => false
      let s := if again then s else onPair (fun p => { p with
        lease := if p.lease = .fenced then .fenced else .standby, rxRenew := some (seq, echo), lastLeaseMsg := s.time.ticks
        grantEnd := s.time.ticks + 1000 * pairAttr s 6 }) s
      mate 0x11 (beBytes 4 seq ++ beBytes 1 (b01 (isReady s))) s)) s

/-- An acknowledgment counts when it matches a renewal sent within the last lease_us. -/
def execLeaseAck (seq st : Nat) (s : State) : Result :=
  onMessage (onLease (fun s =>
    if !isHolder s then s
    else
      let len := 1000 * pairAttr s 6
      let s1 := onPair (fun p => { p with ackState := st, lastLeaseMsg := s.time.ticks }) s
      match s.pair.renews.find? (fun r => r.1 == seq && decide (s.time.ticks ≤ r.2 + len)) with
      | some r => onPair (fun p => { p with leaseEnd := max p.leaseEnd (r.2 + len) }) s1
      | none => s1)) s

/-- Fencing (R291). -/
def fence (s : State) : State :=
  raise evLeaseLost [] (standDown .fenced (dropHandover (discardQueued .leaseLost s)))

/-- The holder's lease ends: after a last echo of READY it fences, otherwise it keeps the lease. -/
def execLeaseExpire (s : State) : Result :=
  .next (
    if live s && paired s && isHolder s && !s.pair.alone && decide (s.pair.leaseEnd ≤ s.time.ticks) && s.pair.lastEcho == 1 then
      fence s
    else s)

/-- A READY standby on silence: the grant ended more than 20 µs ago and its last renewal echoed READY. -/
def execLeaseTakeover (s : State) : Result :=
  .next (
    if live s && isStandby s && isReady s && (match s.pair.rxRenew with | some (_, e) => e == 1 | none => false)
        && decide (s.pair.grantEnd + 20000 < s.time.ticks) then
      settle s (takeLease s)
    else s)

/-- The device that prefer names takes a lease that neither holds, and mirrors what it holds (R290, R294). -/
def execLeaseFirstTake (s : State) : Result :=
  .next (
    let t := if live s && paired s then updateReady s else s
    if live s && paired s && isReady t && (s.pair.lease == .none || s.pair.lease == .standby)
        && partnerReady s && (pairAttr s 5 == b01 (roleB s)) && leaseSilent s then
      settle s (sendAll (takeLease t))
    else s)

/-- HALTING (R292): a READY standby takes the lease, the holder keeps it without renewals; the partner is lost either way. -/
def execHalting (_cause : Nat) (s : State) : Result :=
  onMessage (fun s =>
    let s := onPair (fun p => { p with partnerHalted := true }) s
    if isStandby s && isReady s then losePartner (onPair (fun p => { p with alone := true }) (takeLease s))
    else if isHolder s then losePartner (onPair (fun p => { p with alone := true }) s)
    else losePartner s) s

/-! Watermarks (R296) -/

/-- The slots whose watermark has changed since it was last sent. -/
def changedMarks (s : State) : List Nat :=
  (installedSlots s).filter (fun n => tget 0 s.pair.markSent n != watermarkOf s n)

/-- One WATERMARK message of up to 48 changed slots. -/
def sendMarks (s : State) : State :=
  match (changedMarks s).take 48 with
  | [] => s
  | l =>
    let m : Marks := l.map (fun n => (n, watermarkOf s n))
    let b := s.pair.nextBatch
    let s := mate 0x14 (beBytes 4 b ++ beBytes 1 m.length
      ++ (m.map (fun x => beBytes 2 x.1 ++ [0, 0] ++ beBytes 8 x.2)).flatten) s
    onPair (fun p => { p with
      markSent := m.foldl (fun t x => tset 0 t x.1 x.2) p.markSent
      batches := p.batches ++ [(b, m)]
      nextBatch := (b + 1) % 2 ^ 32 }) s

def sendAllMarks : Nat → State → State
  | 0, s => s
  | n + 1, s => if (changedMarks s).isEmpty then s else sendAllMarks n (sendMarks s)

def execWatermarkSend (s : State) : Result := .next (if live s && mirroring s then sendMarks s else s)

/-- WATERMARK on the standby: a watermark never falls (log 34). -/
def execWatermark (batch : Nat) (entries : Marks) (s : State) : Result :=
  onMessage (fun s =>
    if isHolder s then s
    else
      let s := onPair (fun p => { p with
        markGot := entries.foldl (fun t x => tmod 0 t x.1 (fun v => max v x.2)) p.markGot }) s
      mate 0x15 (beBytes 4 batch) s) s

/-! Planned handover (R302) -/

/-- The last acknowledgment has come: PSEL falls, the device is the standby, and release goes to the partner. -/
def endHandover (s : State) : State :=
  match s.pair.handover with
  | some (mb, true, _) =>
    if !s.pair.batches.isEmpty then s
    else
      let s := standDown .standby (onPair (fun p => { p with handover := none, rxRenew := none }) s)
      let s := mate 0x13 (beBytes 1 2) s
      match mb with
      | some m => answer m (reply .ok) s
      | none => s
  | _ => s

/-- drain_us after the start: what remains is discarded, and the final watermarks go out. -/
def execHandoverDrainEnd (s : State) : Result :=
  .next (match s.pair.handover with
    | some (mb, false, t) =>
      if live s && isHolder s && passed s t (1000 * pairAttr s 9) then
        let s1 := discardQueued .handover s
        let s1 := sendAllMarks (s1.keys.kslot.length + 1) s1
        settle s (endHandover (onPair (fun p => { p with handover := some (mb, true, t) }) s1))
      else s
    | _ => s)

/-- WM_ACK: the batch's watermarks are acknowledged. -/
def execWmAck (batch : Nat) (s : State) : Result :=
  onMessage (fun s =>
    match s.pair.batches.find? (fun b => b.1 == batch) with
    | none => s
    | some (_, m) =>
      let s1 := onPair (fun p => { p with
        markAcked := m.foldl (fun t x => tmod 0 t x.1 (fun v => max v x.2)) p.markAcked
        batches := p.batches.filter (fun b => b.1 != batch) }) s
      settle s (endHandover s1)) s

/-- HANDOVER on the standby: prepare brings its IDLE clusters back, release makes it take the lease while READY. -/
def execHandover (stage : Nat) (s : State) : Result :=
  onMessage (fun s =>
    if isHolder s then s
    else if stage = 1 then (byRole s .idle).foldl (fun s c => wake c s) s
    else if stage = 2 ∧ isReady s = true then settle s (takeLease s)
    else s) s

/-! Mirrored objects as they arrive (R294, R295) -/

/-- The entries that an object's body spells: attribute codes with their values. -/
def bodyAttrs (cls inst : Nat) : List Nat → Bytes → List (Nat × Nat)
  | [], _ => []
  | a :: l, b =>
    let w := ((attrSpec cls inst a).getD (0, false)).1
    (a, leAt b 0 w) :: bodyAttrs cls inst l (b.drop w)

def bodyLength (cls inst : Nat) : Nat :=
  ((classCodes cls inst).map (fun a => ((attrSpec cls inst a).getD (0, false)).1)).foldl (· + ·) 0

/-- A slot whose mirror does not complete is left INVALID (R148). -/
def invalidate (general : Bool) (n : Nat) (s : State) : State :=
  if general then retie n (putG n { commits := (gslotOf s n).commits, state := .invalid } s)
  else putK n { state := .invalid } (freshSa n s)

/-- A mirrored slot installed with ORIGIN 5 by MATE; an empty attribute word is a slot without a key, which goes with its persist
record (R160). -/
def takeKey (general : Bool) (n : Nat) (key : Key) (salt : Salt) (word : W64) (s : State) : Status × State :=
  if general then
    if word = 0 then (.ok, destroyG n (erasePersist n s))
    else match installPersisted n (withOrigin word 5) key s with
      | (some st, s) => (st, invalidate true n s)
      | (none, s) => (.ok, s)
  else if word = 0 then (.ok, destroyK n s)
  else (.ok, installK n (if attrKtype word = 2 then 1 else 0) 5 key salt s)

/-- A slot's mirror unwrapped and taken (R295). -/
def takeSlot (general : Bool) (n : Nat) (body : Bytes) (s : State) : Status × State :=
  match readInternal handlePairWrap s with
  | (none, s) => (.keyInvalid, s)
  | (some kek, s) => match kwUnwrap kek (octets body) with
    | none => (.keyInvalid, invalidate general n s)
    | some o =>
      if o.length ≠ 56 then (.badLength, invalidate general n s)
      else takeKey general n (keyOf (o.take 32)) (BitVec.ofNat 96 (natBe ((o.drop 32).take 12)))
        (BitVec.ofNat 64 (natBe ((o.drop 44).take 8))) s

/-- The channel state, phase and CA of a mirrored channel record. -/
def takeChan (c : Nat) (l : List (Nat × Nat)) (s : State) : State :=
  let v (a : Nat) : Nat := ((l.find? (fun x => x.1 == a)).map (·.2)).getD 0
  if v 1 = 0 then freeChan c s
  else
    let st : ChanState := if v 1 = 1 then .config else if v 1 = 2 then .active else .frozen
    setChan c { chanOf s c with state := st, phase := v 0x0F == 1, ca := v 0x18 } s

/-- What a mirrored port record changes besides its attributes: the port goes down or comes up as the holder's does. A mirror wakes no
domain (R324): where one of the port's is not ON, the change applies when it next is (R326). -/
def takePort (q : Nat) (s0 s : State) : State :=
  let s := if pattr s0 q 0x20 ≠ pattr s q 0x20 then onLive (q % 48) (fun _ => {}) s else s
  if adminUp s0 q && !adminUp s q then portDown q s
  else if !adminUp s0 q && adminUp s q && portPowered s q then bringUp q s
  else s

/-- A mirrored CA record: with no channel the CA is gone. -/
def takeCa (ca : Nat) (s : State) : State :=
  if attr s clsCa ca 1 = 0xFFFF then setCa ca {} (untieCa ca s)
  else
    let s := setCa ca { caOf s ca with exist := true } s
    tieCa ca (attr s clsCa ca 2) (untieCa ca s)

/-- Live peers of a mirrored protocol state; what Table 10-10 does not carry reads zero until they are heard. -/
def takePeers : Nat → Bytes → List Peer
  | 0, _ => []
  | n + 1, b => { mi := beAt b 0 12, mn := beAt b 12 4, priority := 0, sci := 0 } :: takePeers n (b.drop 16)

/-- An object applied, with the status of its MIRROR_ACK (log 35). Of a gate's lists Table 10-10 carries the attributes alone, which the
standby then reads; no message carries their entries (log 131). -/
def takeObject (o : Nat) (body : Bytes) (s : State) : Status × State :=
  let cls := idCls o
  let inst := idInst o
  if clsCount cls ≤ inst then (.badObject, s)
  else if cls = clsKslot then takeSlot false inst body s
  else if cls = clsGslot then takeSlot true inst body s
  else if o % 256 = 0xFF then
    (.ok, setCa inst { caOf s inst with mi := beAt body 0 12, mn := beAt body 12 4, peers := (takePeers (beAt body 16 1) (body.drop 17)).map (fun p => { p with heard := s.time.ticks }) } s)
  else if cls ≠ clsGate ∧ mirrored cls = false then (.badObject, s)
  else if body.length ≠ bodyLength cls inst then (.badLength, s)
  else if cls = clsGate then
    (.ok, setGate inst { gateOf s inst with told := some (leAt body 0 1, leAt body 1 10, leAt body 11 4, leAt body 15 2) } s)
  else
    let l := bodyAttrs cls inst (classCodes cls inst) body
    let keep (a : Nat) : Bool := !(cls == clsChan && (a == 1 || a == 0x0F || a == 0x18 || a == 0x1E))
      && !((cls == clsHport || cls == clsLport) && a == 6) && !(cls == clsPair && (decide (a ≤ 4) || a == 0x0B))
      && !(cls == clsLink && decide (8 ≤ a)) && !(cls == clsCa && decide (9 ≤ a))
    let s1 := putAll cls inst (l.filter (fun x => keep x.1)) s
    (.ok,
      if cls = clsChan then takeChan inst l s1
      else if cls = clsHport then takePort inst s s1
      else if cls = clsLport then takePort (48 + inst) s s1
      else if cls = clsCa then takeCa inst s1
      else if cls = clsShp then
        let full : ShapeCnt := { k := (1024 * attr s1 clsShp inst 2 : Nat), last := s.time.ticks }
        onTraffic (fun t => { t with shapes := tset {} t.shapes inst full }) s1
      else s1)

/-- MIRROR: applied when its version is higher than the one held, and answered in every case. -/
def execMirror (object version : Nat) (body : Bytes) (s : State) : Result :=
  onMessage (onLease (fun s =>
    if isHolder s || !pairKeyed s then s
    else
      let held := tget 0 s.pair.heldVer object
      let r := if version ≤ held then (Status.ok, s) else takeObject object body s
      let s1 := if version ≤ held ∨ r.1 ≠ .ok then r.2
        else onPair (fun p => { p with heldVer := tset 0 p.heldVer object version }) r.2
      let s1 := mate 0x17 (beBytes 4 object ++ beBytes 8 (tget 0 s1.pair.heldVer object) ++ beBytes 1 r.1.code) s1
      settle s s1)) s

/-- The SAK distributions that waited for an object's mirror may go on. -/
def sakDone (o : Nat) (s : State) : State :=
  onPair (fun p => { p with sakWait := p.sakWait.filter (fun w => !(w.1 == o)) }) s

/-- MIRROR_ACK: with the current version acknowledged, what waited for it completes. -/
def execMirrorAck (object version _status : Nat) (s : State) : Result :=
  onMessage (onLease (fun s =>
    if !isHolder s then s
    else
      let s1 := onPair (fun p => { p with acked := tmod 0 p.acked object (fun v => max v version) }) s
      let s1 := if verOf s1 object ≤ version then sakDone object (mirrorDone object s1) else s1
      settle s s1)) s

/-- 200 µs after its MIRROR without the acknowledgment of an object: NOT_READY, and the command completes (R295). -/
def execMirrorAckTimeout (object : Nat) (s : State) : Result :=
  .next (
    if live s && paired s && isHolder s && decide (tget 0 s.pair.acked object < verOf s object)
        && passed s (tget 0 s.pair.sentAt object) 200000 then
      let s1 := onPair (fun p => { p with state := if p.state = .ready then .notReady else p.state }) s
      settle s (sakDone object (mirrorDone object s1))
    else s)

/-! STATE and TIME_CMP (R282, R298) -/

/-- STATE: the partner's conditions. A holder that reports READY has every mirrored object acknowledged; one in MAINTENANCE reports not
READY whatever has been acknowledged, and what it reported before stands (log 128). -/
def execState (md ready spares conds : Nat) (s : State) : Result :=
  onMessage (fun s => settle s (onPair (fun p => { p with
    partner := some (md, ready, spares, conds)
    peerSynced := ready == 1 || (md == 4 && p.peerSynced) }) s)) s

/-- TIME_CMP, every 1 ms, carries the time at the time-stamp point of its cell. -/
def execTimeCmpSend (s : State) : Result :=
  .next (
    if live s && paired s && s.pair.cmpAt.all (fun t => passed s t (10 ^ 6)) then
      let s := onPair (fun p => { p with cmpAt := some s.time.ticks }) s
      let t := txStamp s 96 s.time.now
      mate 0x19 (beBytes 6 t.sec ++ beBytes 4 t.ns ++ beBytes 2 t.frac) s
    else s)

/-- TIME_CMP arrives: its cell's time stamp less the time it carries is the offset plus the link's delay. The offset is half the
difference of that figure and the partner's for the other direction, which no message carries: it is a free value of 64 bits (log 36).
An offset beyond the tolerance is a RECORD fault. -/
def execTimeCmp (seconds ns fraction : Nat) (s : State) : Result :=
  onMessage (fun s0 =>
    let (v, s) := freeVal 64 s0
    let t : Stamp := { sec := seconds, sub := ns * 2 ^ 32 + fraction * 2 ^ 16 }
    let offset := (((rxStamp s 96 s.time.now).total : Int) - (t.total : Int) - v.toInt) / 2
    let s := onPair (fun p => { p with offset := offset }) s
    settle s0 (if (pairAttr s 0x0A : Int) < offset.natAbs then logFault 0 5 (offset % 2 ^ 32).toNat (countFault 37 s) else s)) s

end Sys2Proof.Machine
end

