-- ==== Sys2Proof/Machine/MiscCmds.lean ====
section
/-! DEFINITION. CAL, LOG, LA.RESET, PERF.SUMP_READ and DP commands (R319, R320, R334, R335, R357, R371, R390, R391). -/

namespace Sys2Proof.Machine

open Sys2Proof

/-! Calibration (R333 to R335, R319, R320) -/

def execCalRead (mb : Mb) (addr colour : Nat) (s : State) : Result :=
  request anyWorld [] mb.val (fun w s => intoBuffer w addr colour (calSet s) [] s) s

/-- Whether a set passes its CRC. -/
def crcFits (b : Bytes) : Bool := calCrc b == leAt b 65532 4

/-- The conditions of R335 on a new set. -/
def calFits (s : State) (b : Bytes) : Bool :=
  let old := calSet s
  leAt b 0 4 == 0x314C4143 && leAt b 4 2 == 1 && leAt b 6 2 == 0 && leAt b 8 8 == Config.dieId.toNat && allZero (bsub b 16 16)
  && allZero (bsub b 16640 48892) && crcFits b
  && (leAt b 65532 4 == factoryCrc
      || (!s.nvm.calBad && crcFits old
          && (upFrom 0 1632).all (fun i => decide (leAt b (32 + 2 * i) 2 ≤ leAt old (32 + 2 * i) 2))))

/-- The set is written and acts at the next reset; until then the pace entries in use stay listed as they are (R335). -/
def storeCal (b : Bytes) (s : State) : State :=
  let keep := ((upFrom 0 34).map (fun c => (upFrom 0x40 48).map (fun a => (c, a)))).flatten
  let s := keep.foldl (fun t x => setAttr t clsPmu x.1 x.2 (attr s clsPmu x.1 x.2)) s
  onNvm (fun n => { n with cal := some b }) s

def execCalWrite (mb : Mb) (addr colour : Nat) (s : State) : Result :=
  request off [.maintenance, .recovery] mb.val (fun w s =>
    withBuffer w addr colour 65536 (fun b s =>
      if calFits s b then done [] (storeCal b s) else deny .badValue s) s) s

/-- A lookaside queue that is disabled and idle (Table 4-7). -/
def laIdle (s : State) (n : Nat) : Bool := let q := tget {} s.la n; !q.en && q.work.isEmpty

/-- Drained (R320). -/
def drained (s : State) : Bool :=
  (upFrom 0 96).all (fun q => !adminUp s q)
  && s.traffic.chans.all (fun p => !(p.2.state == .active || p.2.state == .frozen))
  && laIdle s 0 && laIdle s 1 && (upFrom 0 17).all (fun r => !(ringOf s r).en)

/-- The test of the drained Reservoir (R320): the lines that failed, and whether one did so uncorrectably, which halts the device
(R267). -/
def execCalHbmTest (mb : Mb) (failing : Met NatList Bool) (s : State) : Result :=
  request off [.maintenance] mb.val (fun _ s =>
    if !drained s then deny .mode s
    else if failing.met then (none, halt haltReservoir s)
    else
      let s := { onMem (fun m => { m with
        bytes := m.bytes.filter (fun c => !tested c.1)
        lines := m.lines.filter (fun l => !tested (l.1 * 64))
        patterns := s.rng }) s with rng := s.rng + 1 }
      done (leBytes 4 failing.it.length ++ zeros 4 ++ ((failing.it.take 60).map (leBytes 8)).flatten) s) s

/-- A recalibration of a SerDes group's lanes: DEFERRED while a port of the group is administratively up. -/
def execCalSerdes (mb : Mb) (q : Nat) (s : State) : Result :=
  request offOpr psm mb.val (fun _ s =>
    if absentQ s q then deny .badObject s
    else if (sgPorts (portSg q)).any (fun k => !absentQ s k && adminUp s k) then deny .deferred s
    else match reach [42 + portSg q] s with
      | (some false, s) => deny .domainOff s
      | (some true, s) => (none, s)
      | (none, s) => done [] s) s

/-! Logs (R391) -/

/-- A Standpipe record as Table 13-2 lays it out. -/
def logBytes (r : LogRec) : Bytes :=
  leBytes 4 r.seq ++ leBytes 4 r.rtcSec ++ leBytes 2 r.rtcSub ++ leBytes 1 r.source ++ leBytes 1 r.kind ++ leBytes 1 r.power
  ++ zeros 3 ++ leBytes 6 r.ntSec ++ leBytes 4 r.ntNs ++ zeros 2 ++ leBytes 4 r.detail

/-- A fault record as Table 16-4 lays it out. -/
def faultBytes (r : FaultRec) : Bytes :=
  leBytes 6 r.sec ++ leBytes 4 r.ns ++ leBytes 1 r.cls ++ leBytes 1 r.row ++ leBytes 4 r.detail

def logReply (l : List Bytes) : Bytes := leBytes 1 l.length ++ zeros 3 ++ l.flatten

def execLogTamper (mb : Mb) (first count : Nat) (s : State) : Result :=
  request anyWorld [] mb.val (fun _ s =>
    if count < 1 ∨ 15 < count then deny .badValue s
    else done (logReply (((s.stp.log.filter (fun r => decide (first ≤ r.seq))).take count).map logBytes)) s) s

def execLogFaults (mb : Mb) (first count : Nat) (s : State) : Result :=
  request anyWorld [] mb.val (fun _ s =>
    if count < 1 ∨ 30 < count then deny .badValue s
    else done (logReply (((s.maint.log.filter (fun r => decide (first ≤ r.index))).take count).map faultBytes)) s) s

/-! LA.RESET (R390) -/

def execLaReset (mb : Mb) (queue : Nat) (s : State) : Result :=
  request offOpr [] mb.val (fun _ s =>
    if 2 ≤ queue then deny .badObject s
    else if queue = 1 then deny .denied s
    else if !laIdle s 0 then deny .busy s
    else done [] { s with la := tmod {} s.la 0 (fun q =>
      { q with descProd := 0, descCons := 0, cplProd := 0, cplCons := 0 }) }) s

/-! PERF.SUMP_READ (R357) -/

/-- The network time that precedes a table; the layout of both tables is the model's (log 37). -/
def sumpHead (s : State) : Bytes := leBytes 6 s.time.now.sec ++ zeros 2 ++ leBytes 4 s.time.now.ns ++ zeros 4

/-- One 48-bit count per port and reason code, 96 × 32 in all. -/
def portTable (s : State) : Bytes := ((upFrom 0 (96 * 32)).map (fun k => leBytes 6 (tget 0 s.traffic.sump k))).flatten

/-- Per channel and direction: frames accepted, host bytes accepted, frames discarded, the last reason. -/
def chanTable (s : State) : Bytes :=
  ((upFrom 0 (2 * 32766)).map (fun k =>
    let x := tget {} s.traffic.chanCounts k
    leBytes 6 x.accepted ++ leBytes 6 x.bytes ++ leBytes 6 x.discarded ++ leBytes 1 x.lastReason ++ [0])).flatten

def execPerfSumpRead (mb : Mb) (table addr colour : Nat) (s : State) : Result :=
  request anyWorld [] mb.val (fun w s =>
    if 2 ≤ table then deny .badValue s
    else
      let d := sumpHead s ++ (if table = 0 then portTable s else chanTable s)
      intoBuffer w addr colour d (leBytes 4 d.length) s) s

/-! The data port's claim (R371) -/

def claimedBy (s : State) (mb : Nat) : Bool :=
  match s.dp.claim, (mbxOf s mb).session with
  | some (m, i), some w => m == mb && i == w.id.toNat
  | _, _ => false

def execDpClaim (mb : Mb) (s : State) : Result :=
  request offOpr [] mb.val (fun _ s =>
    if s.dp.claim.isSome then deny .busy s
    else done [] (onDp (fun d => { d with claim := ((mbxOf s mb.val).session).map (fun w => (mb.val, w.id.toNat)) }) s)) s

def execDpRelease (mb : Mb) (s : State) : Result :=
  request offOpr [] mb.val (fun _ s =>
    if s.dp.claim.isNone then done [] s
    else if claimedBy s mb.val then done [] (onDp (fun d => { d with claim := none, en := false }) s)
    else deny .denied s) s

end Sys2Proof.Machine
end

