-- ==== Sys2Proof/Machine/Power.lean ====
section
/-! DEFINITION. Power domains (R321 to R328), VDD_CORE over AVSBus (R179, R329 to R331), sag monitors (R180, R332), meter rounds, pace
and shedding (R173 to R196). -/

namespace Sys2Proof.Machine

open Sys2Proof

/-! Domains (R322 to R325) -/

/-- Domains that host software switches, and those of them that offer RET (Table 12-1). -/
def hostSwitched (n : Nat) : Bool := decide ((34 ≤ n ∧ n ≤ 69) ∨ n = 78)
def offersRet (n : Nat) : Bool := decide ((34 ≤ n ∧ n ≤ 41) ∨ (58 ≤ n ∧ n ≤ 69))

/-- The ports of a MAC group's domain. -/
def macPorts (n : Nat) : List Nat := (upFrom 0 96).filter (fun q => portDom q == n)

/-- The condition for RET or OFF (Table 12-1). -/
def sleepOk (s : State) (n : Nat) : Bool :=
  if n ≤ 41 then drained s
  else if n ≤ 57 then (sgPorts (n - 42)).all (fun q => !adminUp s q)
  else if n ≤ 69 then (macPorts n).all (fun q => !adminUp s q)
  else s.pair.state == .unpaired

def setResult (n r : Nat) (s : State) : State := setDom s n { domOf s n with result := r }

/-- A request of RET or OFF (R323), with a wake in its tick (R325). -/
def sleepReq (n : Nat) (target : DomState) (woken : Bool) (s : State) : State :=
  let d := domOf s n
  if s.nvm.part9624 && fusedDom n then setResult n 5 s
  else if !hostSwitched n || (target == .ret && !offersRet n) then setResult n 5 s
  else if d.state = .changing then setResult n 4 s
  else if d.state = target then setResult n 1 s
  else if target = .ret ∧ d.state = .off then setResult n 5 s
  else if !sleepOk s n then setResult n 3 s
  else if woken || d.woken == some s.time.ticks then
    raise evWakeWon (leBytes 1 n) (if d.state = .on then setDom s n { d with result := 2, woken := some s.time.ticks }
      else setDom s n { d with state := .changing, toward := .on, result := 2, fromOff := false })
  else setDom s n { d with
    state := .changing, toward := target, result := 0, asked := s.time.ticks, fromOff := target == .off && !offersRet n }

/-- CMD_WAKE is stored with every write of PMU_DOM_n. -/
def putWake (n : Nat) (on : Bool) (s : State) : State := setDom s n { domOf s n with cmdWake := on }

def execPmuDomReqRet (pf : Pf) (dom : DomNo) (cmdWake wake : Bool) (s : State) : Result :=
  .next (if written pf s then sleepReq dom.val .ret wake (putWake dom.val cmdWake s) else s)

def execPmuDomReqOff (pf : Pf) (dom : DomNo) (cmdWake wake : Bool) (s : State) : Result :=
  .next (if written pf s then sleepReq dom.val .off wake (putWake dom.val cmdWake s) else s)

/-- REQ = ON: a wake of a host-switched domain. -/
def wakeReq (n : Nat) (s : State) : State :=
  let d := domOf s n
  if (s.nvm.part9624 && fusedDom n) || !hostSwitched n then setResult n 5 s
  else match d.state with
    | .on => setDom s n { d with result := 1, woken := some s.time.ticks }
    | .changing => if d.toward = .on then setResult n 4 s else Sys2Proof.Machine.wake n s
    | .ret => Sys2Proof.Machine.wake n (setResult n 0 s)
    | .off => Sys2Proof.Machine.wake n (setResult n 0 s)

def execPmuDomReqOn (pf : Pf) (dom : DomNo) (cmdWake : Bool) (s : State) : Result :=
  .next (if written pf s then wakeReq dom.val (putWake dom.val cmdWake s) else s)

/-- A sleep completes. -/
def execDomainChangeDone (dom : DomNo) (s : State) : Result :=
  .next (
    let d := domOf s dom.val
    if asleep s || d.state != .changing || d.toward == .on then s
    else setDom s dom.val { d with state := d.toward, result := 1 })

/-- What a domain that returns from OFF finds at reset values (R322). -/
def domLost (n : Nat) (s : State) : State :=
  if 58 ≤ n ∧ n ≤ 69 then
    (macPorts n).foldl (fun s q =>
      let s := setPort q { portOf s q with link := false, preemptOper := false, hold := false } (setTsq q {} s)
      if q < 48 then s else setWh (q - 48) {} s) s
  else if 42 ≤ n ∧ n ≤ 57 then (sgPorts (n - 42)).foldl (fun s q => setPort q { portOf s q with link := false } s) s
  else if n = 78 then stopMate s
  else s

/-- The ports that a SerDes or MAC group's domain serves. -/
def domPorts (n : Nat) : List Nat :=
  if 42 ≤ n ∧ n ≤ 57 then sgPorts (n - 42) else if 58 ≤ n ∧ n ≤ 69 then macPorts n else []

/-- A wake completes: the domain is ON, an IDLE cluster ACTIVE again (R196). PD_MATE of a bound device starts its session anew; a sealed
port that the mirror has meanwhile brought up does too (R322, R326). -/
def execDomainWakeDone (dom : DomNo) (s : State) : Result :=
  .next (
    let n := dom.val
    let d := domOf s n
    if asleep s || d.state != .changing || d.toward != .on then s
    else
      let s1 := setDom s n { d with state := .on, fromOff := false, result := if 34 ≤ n ∧ d.result = 0 then 1 else d.result }
      let s1 := if d.fromOff then domLost n s1 else s1
      if n < 34 ∧ (clusterOf s1 n).role = .idle then setRole n .active s1
      else if n = 78 ∧ d.fromOff ∧ paired s1 then startMate s1
      else (domPorts n).foldl (fun s q =>
        if sealedQ s q && adminUp s q && portPowered s q && !(whOf s (q - 48)).tx.running then bringUp q s else s) s1)

/-! Pace (R175 to R178) -/

/-- The temperature band after a reading (R175). -/
def bandUp (temp : Int) : Nat → Nat → Nat
  | 0, b => b
  | n + 1, b => if b < 5 ∧ nth 0 bandEdges b < temp then bandUp temp n (b + 1) else b
def bandDown (temp : Int) : Nat → Nat → Nat
  | 0, b => b
  | n + 1, b => if 0 < b ∧ temp ≤ nth 0 bandEdges (b - 1) - 20 then bandDown temp n (b - 1) else b
def nextBand (temp : Int) (b : Nat) : Nat := bandDown temp 5 (bandUp temp 5 b)

/-- One round's readings; a cluster whose domain is OFF reports none. -/
def takeReadings (l : Readings) (s : State) : State :=
  (indexed 0 (l.take 34)).foldl (fun s x =>
    if (domOf s x.1).state = .off then s
    else
      let c := clusterOf s x.1
      setCluster x.1 { c with meter := x.2.meter, temp := x.2.temp, vdd := x.2.vdd, band := nextBand x.2.temp c.band } s) s

/-- LIMIT for a round: in the tick of a write, the lower of the values before and after it (R191). -/
def roundLimit (s : State) : Nat :=
  if s.pmu.limitAt = some s.time.ticks then min s.pmu.limitOld s.pmu.paceLimit else s.pmu.paceLimit

/-- p_new (R176). -/
def newPace (s : State) : Nat :=
  (byRole s .active).foldl (fun p c => min p (min (attr s clsPmu 0 1 * (clusterOf s c).meter / 1000) (tabC s c))) (roundLimit s)

/-- The lowest table entry of the ACTIVE clusters at a voltage and their present bands. -/
def lowestTab (s : State) (mv : Nat) : Nat :=
  (byRole s .active).foldl (fun p c => min p (tabAt s c mv (clusterOf s c).band)) 2047

/-- p_adm takes a lower value at once; p_disp follows once the frames accepted under the higher one have entered (R177). -/
def lowerPace (p : Nat) (s : State) : State :=
  if p < s.pmu.pAdm then
    onPmu (fun m => { m with
      pAdm := p, drains := m.drains ++ [{ fid := s.traffic.nextFid, pace := p, since := s.time.ticks }] }) s
  else s

/-- Every accepted frame of a number below one has entered a cluster. -/
def entered (s : State) (fid : Nat) : Bool :=
  s.traffic.frames.all (fun p => decide (fid ≤ p.1) || p.2.shadow || (match p.2.stage with
    | .inCluster c => !(clusterOf s c).queue.contains p.1
    | .complete => true
    | _ => false))

/-- A drain ends when its frames have entered, and after H + 2 µs at the latest. -/
def drained1 (s : State) (d : Drain) : Bool := entered s d.fid || passed s d.since (1000 * (attr s clsPmu 0 3 + 2))

/-- p_disp follows the falls of p_adm in their order. -/
def followPace : Nat → State → State
  | 0, s => s
  | fuel + 1, s => match s.pmu.drains with
    | [] => s
    | d :: r => if drained1 s d then followPace fuel (setPDisp d.pace (onPmu (fun m => { m with drains := r }) s)) else s

def follow (s : State) : State := followPace s.pmu.drains.length s

/-- R177 for the pace of a meter round. -/
def takePace (p : Nat) (s : State) : State :=
  if p < s.pmu.pAdm then lowerPace p s
  else if s.pmu.pAdm < p ∧ s.pmu.drains = [] ∧ s.pmu.avsChange = none ∧ s.pmu.sagWarn = false then
    setPDisp p (onPmu (fun m => { m with pAdm := p }) s)
  else s

def execPaceDispFollow (s : State) : Result := .next (if asleep s then s else follow s)

/-! Shedding (R192, R193) -/

/-- The tier and the factors for a capacity and the round's slots, all in slots per round (Table 6-8). -/
def shedding (cap : Rat) (e a y b : Nat) : Nat × Rat × Rat × Nat :=
  let r : Rat := e + a
  if r + y + b ≤ cap then (0, 1, 1, 0)
  else if r + y ≤ cap then (1, 1, (cap - r - y) / b, 0)
  else if r ≤ cap then (2, 1, 0, (cap - r).floor.toNat)
  else (3, max 0 ((cap - e) / a), 0, 0)

/-- The tier for the last round's slots, with EV_PACE_SHORT as it leaves 0 and as it returns; fresh: a round has just ended. -/
def setTier (fresh : Bool) (s : State) : State :=
  let m := s.pmu
  let (e, a, y, b) := m.round
  let (t, kR, kB, budget) := shedding (10 * capacity s) e a y b
  let rounds := if t = 0 then 0 else if m.tier = 0 then 1 else m.roundsAbove + b01 fresh
  let s := onPmu (fun p => { p with tier := t, kR := kR, kB := kB, yellowBudget := budget, roundsAbove := rounds }) s
  let s := if t ≠ 0 ∧ (fresh ∨ m.tier = 0) then countFix 44 1 s else s
  if m.tier = 0 ∧ t ≠ 0 then raise evPaceShort (leBytes 1 t) s
  else if m.tier ≠ 0 ∧ t = 0 then raise evPaceShort (leBytes 1 0 ++ leBytes 4 m.roundsAbove) s
  else s

/-- The slots of the round that ends. -/
def closeRound (s : State) : State :=
  onPmu (fun m => { m with
    roundAt := some s.time.ticks, round := (m.slotsE, m.slotsA, m.slotsY, m.slotsB), slotsE := 0, slotsA := 0, slotsY := 0, slotsB := 0 }) s

/-- A write of LIMIT counts from the next round; in the tick of a round a lower value counts for that round too (R191). -/
def execPaceLimitWrite (pf : Pf) (value : W32) (s : State) : Result :=
  .next (
    let v := value.toNat % 2048
    let now := s.time.ticks
    if written pf s && decide (800 ≤ v ∧ v ≤ 1800) then
      let s1 := onPmu (fun m => { m with
        paceLimit := v, limitAt := some now, limitOld := if m.limitAt = some now then m.limitOld else m.paceLimit }) s
      if s.pmu.roundAt = some now ∧ v < s.pmu.pAdm then setTier false (recount (lowerPace v s1)) else s1
    else s)

/-! Downshift (R195, R196) -/

/-- An IDLE cluster is needed: one whose domain has not gone to RET, or did so in this tick, is ACTIVE again; any other wakes. -/
def needCluster (c : Nat) (s : State) : State :=
  let d := domOf s c
  if d.state = .on ∨ (d.asked = s.time.ticks ∧ 0 < s.time.ticks ∧ d.state = .ret) then setRole c .active s
  else Sys2Proof.Machine.wake c s

/-- IDLE clusters return when the slots accepted over the last round exceed 0.9 C; the ACTIVE ones are needed too in this tick. -/
def upshift (s : State) : State :=
  let m := s.pmu
  let used : Rat := (m.round.1 + m.round.2.1 + m.round.2.2.1 + m.round.2.2.2 : Nat)
  let each : Rat := 9 * 4 * m.pAdm * (1 - laFloor s)
  let excess := used - 9 * capacity s
  if excess ≤ 0 then s
  else
    let n := if each = 0 then 34 else (excess / each).ceil.toNat
    let s := (byRole s .active).foldl (fun s c => setDom s c { domOf s c with woken := some s.time.ticks }) s
    ((byRole s .idle).take n).foldl (fun s c => needCluster c s) s

/-- Slots per second of a port at its full rate, in M slots/s: 6 slots per 84 bytes of wire. -/
def fullSlots (s : State) (q : Nat) : Rat := (speedGb s q : Rat) * 1000 * 6 / (8 * 84)

/-- The estimate of the demand over the present ports. -/
def demand (l : Loads) (s : State) : Rat :=
  let host := ((upFrom 0 48).filter (fun q => !fusedQ s q)).map (fun q =>
    let x := nth { pct := 100, slots := 0 } l q
    if x.pct < pattr s q 4 then (5 : Rat) / 4 * x.slots else fullSlots s q)
  let line := ((upFrom 48 48).filter (fun q => !fusedQ s q)).map (fullSlots s)
  rsum host + rsum line

/-- N' (R195). -/
def wantedClusters (l : Loads) (s : State) : Option Nat :=
  (upFrom (attr s clsPmu 0 5) 35).find? (fun n =>
    decide (demand l s ≤ 4 * n * s.pmu.pAdm * (1 - laFloor s)) && arrayCheck s n ((s.pmu.pAdm : Rat) / 1000))

/-- A cluster moved to IDLE. -/
def toIdle (c : Nat) (s : State) : State :=
  let t := setCluster c { clusterOf s c with role := .idle } s
  emptied c (recount t)

/-- Once a millisecond, at most 4 ACTIVE clusters move to IDLE, highest number first; one that is needed in this tick stays (R325). -/
def execDownshiftEval (loads : Loads) (s : State) : Result :=
  .next (
    if !live s || attr s clsPmu 0 4 == 0 || s.pmu.downAt.any (fun t => !passed s t (10 ^ 6)) then s
    else
      let s := onPmu (fun m => { m with downAt := some s.time.ticks }) s
      match wantedClusters loads s with
      | none => s
      | some n =>
        let free := (byRole s .active).reverse.filter (fun c => (domOf s c).woken != some s.time.ticks)
        (free.take (min 4 (nAct s - n))).foldl (fun t c => toIdle c t) s)

/-! VDD_CORE (R179, R329, R330) -/

/-- A transaction that failed after its retries: ERR, a RECORD fault, and the setpoint as it was. -/
def avsFailed (s : State) : State :=
  logFault 0 7 0 (countFault 38 (onPmu (fun m => { m with avsErr := true, avsTarget := m.rail, avsChange := none }) s))

/-- An AVSBus write of a target. -/
def avsIssue (mv : Nat) (busOk : Bool) (s : State) : State :=
  if !busOk then avsFailed s
  else emit (.avs mv) (onPmu (fun m => { m with
    rail := mv, avsChange := some { target := mv, old := m.rail, issued := true, since := s.time.ticks } }) s)

/-- A change begins: a raise is issued at once, a lowering lowers the pace and is held. -/
def avsBegin (mv : Nat) (busOk : Bool) (s : State) : State :=
  if mv = s.pmu.rail then s
  else if s.pmu.rail < mv then avsIssue mv busOk s
  else lowerPace (lowestTab s mv) (onPmu (fun m => { m with
    avsChange := some { target := mv, old := m.rail, issued := false } }) s)

/-- A new target: one change at a time, the latest target waits. -/
def avsAsk (mv : Nat) (busOk : Bool) (s : State) : State :=
  let s := onPmu (fun m => { m with avsTarget := mv }) s
  if s.pmu.avsChange.isSome then onPmu (fun m => { m with avsNext := some mv }) s else avsBegin mv busOk s

def execAvsTargetWrite (pf : Pf) (value : W32) (busOk : Bool) (s : State) : Result :=
  .next (
    let mv := value.toNat % 1024
    if !written pf s then s
    else if halted s || attr s clsPmu 0 7 == 1 || !decide (650 ≤ mv ∧ mv ≤ 850) || mv % 5 != 0 then
      onPmu (fun m => { m with avsRej := true }) s
    else avsAsk mv busOk s)

/-- With no change in progress, a target that waited begins. -/
def avsTakeNext (s : State) : State :=
  match s.pmu.avsChange, s.pmu.avsNext with
  | none, some mv =>
    let s := onPmu (fun m => { m with avsNext := none }) s
    if halted s then s else avsBegin mv true (onPmu (fun m => { m with avsTarget := mv }) s)
  | _, _ => s

/-- A held lowering is issued once p_disp has followed. Where its transaction fails, a target that waited begins. -/
def execAvsLowerIssue (busOk : Bool) (s : State) : Result :=
  .next (match s.pmu.avsChange with
    | some c => if live s && !c.issued && (follow s).pmu.drains.isEmpty then avsTakeNext (avsIssue c.target busOk (follow s)) else s
    | none => s)

/-- The sensors have confirmed the setpoint for 10 µs; a target that waited begins. -/
def execAvsConfirm (s : State) : Result :=
  .next (match s.pmu.avsChange with
    | none => s
    | some c =>
      if asleep s || !c.issued || !passed s c.since 10000 then s
      else avsTakeNext (onPmu (fun m => { m with avsConfirmed := c.target, avsChange := none }) s))

/-- The telemetry, read every 1 ms (R329). -/
def execAvsTelemetry (vout iout temp : Nat) (busOk : Bool) (s : State) : Result :=
  .next (
    if asleep s || !s.pmu.teleAt.all (fun t => passed s t (10 ^ 6)) then s
    else if !busOk then logFault 0 7 0 (countFault 38 (onPmu (fun m => { m with avsErr := true, teleAt := some s.time.ticks }) s))
    else onPmu (fun m => { m with teleAt := some s.time.ticks, vout := vout % 65536, iout := iout % 65536, avsTemp := temp % 65536 }) s)

/-- The grid voltages next above and next below the setpoint. -/
def gridAbove (mv : Nat) : Option Nat := gridMv.find? (fun g => decide (mv < g))
def gridBelow (mv : Nat) : Option Nat := (gridMv.filter (fun g => decide (g < mv))).getLast?

/-- TRACK at a meter round (R330); 100 ms are 10,000 rounds. -/
def track (p : Nat) (s : State) : State :=
  if !live s || attr s clsPmu 0 7 == 0 || s.pmu.avsChange.isSome then s
  else
    let aim := attr s clsPmu 0 6
    let mv := s.pmu.avsTarget
    if p < aim ∧ mv < attr s clsPmu 0 9 then
      match gridAbove mv with
      | some g => avsAsk g true (onPmu (fun m => { m with trackRounds := 0 }) s)
      | none => s
    else match gridBelow mv with
      | none => s
      | some g =>
        if !(byRole s .active).all (fun c => decide (aim ≤ tabAt s c g (clusterOf s c).band)) then
          onPmu (fun m => { m with trackRounds := 0 }) s
        else
          let n := s.pmu.trackRounds + 1
          if 10000 ≤ n ∧ attr s clsPmu 0 8 ≤ g then avsAsk g true (onPmu (fun m => { m with trackRounds := 0 }) s)
          else onPmu (fun m => { m with trackRounds := min n 10000 }) s

/-! The meter round (R173) -/

/-- Whether 10 µs have passed since the last round. -/
def roundDue (s : State) : Bool := s.pmu.roundAt.all (fun t => passed s t 10000)

def execMeterRound (readings : Readings) (s : State) : Result :=
  .next (
    if asleep s || !roundDue s then s
    else
      let s := follow (countFix 63 1 (takeReadings readings s))
      let p := newPace s
      let s := setTier true (upshift (closeRound (recount (takePace p s))))
      let ready := (byRole s .active).all (powered s)
      let s := if s.glb.serviceWait.isSome && ready then onGlb (fun g => { g with serviceRound := true }) s else s
      track p s)

/-! Sag (R180, R332) -/

/-- The setpoint that the sag thresholds refer to. -/
def sagReference (s : State) : Nat :=
  match s.pmu.avsChange with
  | some c => if c.issued then min c.old c.target else s.pmu.avsConfirmed
  | none => s.pmu.avsConfirmed

def execSagWarn (point : Nat) (s : State) : Result :=
  .next (
    if asleep s then s
    else
      let low := lowestTab s (95 * sagReference s / 100)
      raise evSagWarn (leBytes 1 point) (countFix 43 1 (onPmu (fun m => { m with
        sagWarn := true, sagAt := s.time.ticks, sagSeen := true, sagCount := min 0xFFFF (m.sagCount + 1), sagPoint := point % 8
        pAdm := min m.pAdm low, drains := m.drains.filter (fun d => decide (d.pace < low)) }) (setPDisp (min s.pmu.pDisp low) s))))

/-- Every point has read high enough for 10 µs. -/
def execSagWarnClear (s : State) : Result :=
  .next (if asleep s || !passed s s.pmu.sagAt 10000 then s else onPmu (fun m => { m with sagWarn := false }) s)

end Sys2Proof.Machine
end

