-- ==== Sys2Proof/Machine/Admit.lean ====
section
/-! DEFINITION. Policing (R197 to R201) and admission (R189 to R192, Table 6-7) with queue space (R223 to R225), tags (R211), and
what the array still holds (R183, R184). -/

namespace Sys2Proof.Machine

open Sys2Proof

/-! What the array holds -/

/-- Slots of a request in a cluster still to enter: all of them before it runs, those left while it runs or is suspended. -/
def slotsLeft (s : State) (c id slots : Nat) : Nat :=
  let x := clusterOf s c
  if x.queue.contains id then slots
  else x.pipes.foldl (fun n p =>
    if p.2.run = some id then n + pipeLeft s p.2 else if p.2.susp = some id then n + p.2.suspLeft else n) 0

/-- Slots of a frame still to enter a cluster. -/
def slotsToEnter (s : State) (fid : Nat) (f : Frame) : Nat :=
  match f.stage with
  | .inCluster c => slotsLeft s c fid f.slots
  | .complete => 0
  | _ => f.slots

/-- E: the slots of express requests accepted and not fully entered (R183). -/
def expressSlots (s : State) : Nat :=
  s.traffic.frames.foldl (fun n p => if p.2.tc = 7 ∧ !p.2.shadow ∧ 0 < slotsToEnter s p.1 p.2 then n + p.2.slots else n) 0

/-- Slots released and not yet entered into a cluster (R184). -/
def releasedSlots (s : State) : Nat :=
  s.traffic.frames.foldl (fun n p => match p.2.stage with
    | .released => n + p.2.slots
    | .inCluster _ => n + slotsToEnter s p.1 p.2
    | _ => n) 0

/-! Policers -/

def bucketOf (s : State) (m : Nat) : Bucket := tget {} s.traffic.buckets m

/-- Tokens of a rate in Mb/s over ns, in 1/1,024 byte. -/
def tokens (mbps ns : Nat) : Nat := mbps * ns * 1024 / 8000

/-- The policer of a channel and direction charged with a frame of n bytes (R198); amber: yellow on entry. A channel of TC7 takes a
yellow frame as red (R200). -/
def police (c : Nat) (d : Dir) (n : Nat) (amber : Bool) (s : State) : Tint × State :=
  let m := polNo c d
  let a := attr s clsPol m
  if a 7 = 0 then (.green, s)
  else
    let b := bucketOf s m
    let now := netNs s
    let dt := now - b.last
    let full := b.tc + tokens (a 2) dt
    let tc := min (1024 * a 3) full
    let te := min (1024 * a 5) (b.te + tokens (a 4) dt + (if a 6 = 1 then full - 1024 * a 3 else 0))
    let put (tc te : Nat) : State := onTraffic (fun t => { t with buckets := tset {} t.buckets m { tc := tc, te := te, last := now } }) s
    if !(a 1 == 1 && amber) && decide (1024 * n ≤ tc) then (.green, put (tc - 1024 * n) te)
    else if 1024 * n ≤ te then ((if cattr s c 4 = 7 then .red else .yellow), put tc (te - 1024 * n))
    else (.red, put tc te)

/-! Queue space (R223 to R225) -/

/-- Granules of a frame (R251). -/
def granules (f : Frame) : Nat := cdiv f.data.length 256

/-- Whether a frame holds granules of the queueing part: until its result is released (R104), and not in the Reservoir. -/
def inCistern (f : Frame) : Bool :=
  !f.spill && (match f.stage with | .complete => false | .spilling => false | .spilled => false | _ => true)

def sumFrames (s : State) (p : Frame → Bool) (n : Frame → Nat) : Nat :=
  s.traffic.frames.foldl (fun a x => if p x.2 then a + n x.2 else a) 0

/-- Granules of the receive pool that a port uses (Table 9-2): received and not yet tested at admission. By R254 its 256 are never used up,
so that no frame waits in the MAC for them. -/
def receiveGranules (s : State) (q : Nat) : Nat :=
  if sealedQ s q then
    let r := (whOf s (q - 48)).rx
    r.opened.foldl (fun a x => a + cdiv x.2.length 256) 0 + r.closed.foldl (fun a x => a + cdiv x.2.1.length 256) 0
  else 0

/-- Granules of the transit pool in use: output granules of requests dispatched and not yet released (R104). The pool covers all that a
horizon can dispatch (R254), so that dispatch never waits for it. -/
def transitGranules (s : State) : Nat := sumFrames s (fun _ => true) (fun f => f.outs.length)

/-- Free granules of the shared pool; quarantine counts against it (R256). -/
def sharedFree (s : State) : Nat :=
  queueGranules s - totalReserved s - s.mem.quarantine.length - s.mem.heldGranules.length
    - sumFrames s (fun f => f.shared && inCistern f) granules

/-- Whether the reservation of a channel and direction has room for n granules. -/
def reserveRoom (s : State) (c : Nat) (d : Dir) (n : Nat) : Bool :=
  decide (sumFrames s (fun f => f.chan == c && f.dir == d && !f.shared && !f.shadow && inCistern f) granules + n ≤ reservation s c d)

/-- Bytes that the Wellhead of port q still has to put into cells, of the frames that a test admits. -/
def segBytes (s : State) (q : Nat) (p : Seg → Bool) : Nat :=
  if sealedQ s q then ((whOf s (q - 48)).tx.segs.filter p).foldl (fun a g => a + g.data.length) 0 else 0

/-- Egress bytes of a channel and direction accepted and not yet transmitted. -/
def queuedBytes (s : State) (c : Nat) (d : Dir) : Nat :=
  sumFrames s (fun f => f.chan == c && f.dir == d && !f.shadow) (·.ebytes)
  + (if d = .enc then segBytes s (egressQ s c .enc) (fun g => g.chan == c) else 0)

/-- Express bytes accepted for port q and not yet transmitted. -/
def queuedExpress (s : State) (q : Nat) : Nat :=
  sumFrames s (fun f => f.egress == q && f.tc == 7 && !f.shadow) (·.ebytes) + segBytes s q (fun g => g.tc == 7)

/-- Bytes of the Best frames of port q in the Cistern, and in its spill area. -/
def bestInCistern (s : State) (q : Nat) : Nat :=
  sumFrames s (fun f => f.egress == q && decide (f.tc < 4) && !f.shadow && inCistern f) (fun f => 256 * granules f)
def bestSpilled (s : State) (q : Nat) : Nat := sumFrames s (fun f => f.egress == q && f.spill) (fun f => f.data.length)
def spillPending (s : State) : Nat := sumFrames s (fun f => f.stage == .spilling) (fun f => f.data.length)

/-- Where a frame finds room (R223 to R225): its reservation, the shared pool, the spill area; none is QUEUE_FULL. -/
inductive Room where
  | reserved | shared | spill
  deriving DecidableEq, Repr

def roomFor (f : Frame) (s : State) : Option Room :=
  let g := granules f
  let space := decide (g ≤ sharedFree s)
  if f.tc < 4 then
    let q := f.egress
    let away := s.traffic.frames.any (fun p => p.2.chan == f.chan && p.2.dir == f.dir && p.2.spill)
    if !away && space && decide (bestInCistern s q < 1024 * pattr s q 0x0C) then some .shared
    else if bestSpilled s q + f.data.length ≤ pattr s q 0x0D * 2 ^ 20 ∧ spillPending s < 8 * 2 ^ 20 then some .spill
    else none
  else if f.tint = .yellow then
    let tc : Rat := ((bucketOf s (polNo f.chan f.dir)).tc : Rat) / 1024
    if decide ((queuedBytes s f.chan f.dir + f.ebytes : Rat) ≤ burstX s f.egress * (burst s f.chan f.dir - tc)) && space then some .shared
    else none
  else if reserveRoom s f.chan f.dir g then some .reserved
  else if space then some .shared
  else none

/-! The projection (R190) -/

/-- w_c: at least what G_c holds beside a closed gate (block_p for TC7), at most G_c; between them, where the class's gate closes, an
open value that the Pump computes (log 2). -/
def gateWait (q c : Nat) (s : State) : Rat × State :=
  let base : Rat := if c = 7 then blockNs s q else 0
  if closedStretch s q c = 0 then (base, s)
  else
    let (v, s1) := freeVal 32 s
    (base + ((v.toNat % ((gateG s q c - base).floor.toNat + 1) : Nat) : Rat), s1)

/-- The rate at which the projection counts a frame's queue to drain (R190). -/
def projRate (s : State) (f : Frame) : Rat :=
  match tcGroup f.tc with
  | 0 => rateQ s f.egress
  | 1 => s.pmu.kR * gRate s f.chan f.dir
  | _ => s.pmu.kB * bestShare s f.chan f.dir

def fluidKey (f : Frame) : Nat := if f.tc = 7 then f.egress else 96 + dirIx f.chan f.dir

/-- q_E or q_j: the bytes queued ahead. DEDUCED (log 118): those accepted before the frame and not yet transmitted, but no more than the
rate of the projection has left of them since they were accepted, so that a frame on its way through the array, which the projection
counts apart, is not counted twice, and R188 holds for conforming traffic. -/
def queuedAhead (f : Frame) (s : State) : Rat :=
  let all : Nat := if f.tc = 7 then queuedExpress s f.egress else queuedBytes s f.chan f.dir
  let x := tget (0, 0) s.traffic.fluid (fluidKey f)
  min all (max 0 (x.1 - projRate s f * ((s.time.ticks : Rat) - x.2) / 8))

/-- t_proj − t_r; none is unbounded. -/
def projection (f : Frame) (w : Rat) (s : State) : Option Rat :=
  let q := f.egress
  let p : Rat := (s.pmu.pAdm : Rat) / 1000
  let tail : Rat := 8 * betaP s q / rateQ s q
  let rate := projRate s f
  if s.pmu.pAdm = 0 ∨ rate ≤ 0 then none
  else if f.tc = 7 then
    some (1032 + (891 + max f.slots 131 : Rat) / p + 8 * queuedAhead f s / rate + sOut s q f.flen + w)
  else
    let blocked : Rat := if tcGroup f.tc = 1 then 8 * mP s q / rateQ s q else 0
    some (1032 + horizonNs s + (81 + f.slots : Rat) / p + 8 * (queuedAhead f s + f.ebytes) / rate + blocked + tail + w)

/-! The tests of Table 6-7 -/

/-- Tests 1 to 4. -/
def portTests (f : Frame) (s : State) : Option Reason :=
  let q := f.egress
  let x := chanOf s f.chan
  if !portPowered s q then some .portOff
  else if !(adminUp s q && (portOf s q).link) || (sealedQ s q && (whOf s (q - 48)).rx.rdi) then some .linkDown
  else if x.draining || !(x.state == .active || x.state == .frozen) then some .noChannel
  else if f.dir = .enc ∧ (x.state = .frozen ∨ effLimit s f.chan ≤ pnOf s (curSlot s f.chan) + x.reserved) then some .pnLimit
  else none

/-- Tests 6 to 8. -/
def loadTests (f : Frame) (w : Rat) (s : State) : Option Reason :=
  if tcGroup f.tc == 1 && f.tint == .yellow && (s.pmu.tier == 3
      || (s.pmu.tier == 2 && decide (s.pmu.yellowBudget < s.pmu.slotsY + f.slots))) then some .shed
  else if f.tc = 7 ∧ 3240 * nAct s < expressSlots s + f.slots then some .bound
  else match projection f w s with
    | none => some .bound
    | some t => if t ≤ boundOf s f.chan f.dir f.flen f.slots then none else some .bound

/-- The virtual finish tag of an accepted frame (R211), and T of its channel and direction. -/
def tagFor (f : Frame) (s : State) : Rat × State :=
  if f.tc = 7 then (0, s)
  else
    let now : Rat := netNs s
    let r := if tcGroup f.tc = 1 then gRate s f.chan f.dir else bestShare s f.chan f.dir
    let k := dirIx f.chan f.dir
    let t := max now (min (tget 0 s.traffic.tags k) (now + 8 * (queuedBytes s f.chan f.dir : Rat) / r)) + 8 * (f.ebytes : Rat) / r
    (t, onTraffic (fun x => { x with tags := tset 0 x.tags k t }) s)

/-- The counts of an acceptance (Tables 14-2 and 14-4, R192, R357). -/
def countAccepted (f : Frame) (s : State) : State :=
  let e : Ev := { group := 3, code := 0, inst := f.egress, tc := some f.tc }
  let d := b01 (f.dir == .dec)
  let s := countFix (48 + d) f.flen (countFix (46 + d) 1 s)
  let s := countEv { e with code := 1 } f.flen (countEv e 1 s)
  let s := if f.spill then countEv { e with code := 2 } 1 s else s
  let bump (x : ChanCount) : ChanCount := { x with accepted := (x.accepted + 1) % 2 ^ 48, bytes := (x.bytes + f.flen) % 2 ^ 48 }
  let s := if halted s then s else onTraffic (fun t => { t with chanCounts := tmod {} t.chanCounts (dirIx f.chan f.dir) bump }) s
  onPmu (fun m =>
    if f.tc = 7 then { m with slotsE := m.slotsE + f.slots }
    else if f.tc < 4 then { m with slotsB := m.slotsB + f.slots }
    else if f.tint = .yellow then { m with slotsY := m.slotsY + f.slots }
    else { m with slotsA := m.slotsA + f.slots }) s

/-- A frame takes the next frame number, and granules for its bytes. -/
def enterFrame (f : Frame) (s : State) : State :=
  let (chain, s) := takeGranules f.data.length s
  putFrame s.traffic.nextFid { f with chain := chain } (onTraffic (fun t => { t with nextFid := t.nextFid + 1 }) s)

/-- An encrypt frame's PN reservation; the channel freezes as the sum reaches the limit (R47). -/
def reservePn (c : Nat) (s : State) : State :=
  let x := chanOf s c
  let s := setChan c { x with reserved := x.reserved + 1 } s
  if effLimit s c ≤ pnOf s (curSlot s c) + x.reserved + 1 then freeze c s else s

/-- A frame accepted into a place, with its deadline (R170). -/
def accept (f : Frame) (room : Room) (s : State) : State :=
  let f := { f with
    shared := room == .shared, spill := room == .spill
    deadline := some (f.tr + boundOf s f.chan f.dir f.flen f.slots)
    stage := if room = .spill then .spilling else .queued }
  let (t, s) := tagFor f s
  let ahead := queuedAhead f s + f.ebytes
  let s := onTraffic (fun x => { x with fluid := tset (0, 0) x.fluid (fluidKey f) (ahead, s.time.ticks) }) s
  let s := enterFrame { f with tag := t } (countAccepted f s)
  if f.dir = .enc then reservePn f.chan s else s

/-- A frame refused before it is accepted. -/
def refuse (r : Reason) (f : Frame) (s : State) : State :=
  sump r { q := f.ingress, chan := some (f.chan, f.dir), tc := some f.tc, tr := f.tr } s

/-- Table 6-7. A refusal for the PN limit freezes the channel (R47); during a handover no frame is admitted (R302). -/
def admission (f : Frame) (s : State) : State :=
  if s.pair.handover.isSome then refuse .handover f s
  else match portTests f s with
    | some .pnLimit => refuse .pnLimit f (freeze f.chan s)
    | some r => refuse r f s
    | none => match roomFor f s with
      | none => refuse .queueFull f s
      | some room =>
        let (w, s) := gateWait f.egress f.tc s
        match loadTests f w s with
        | some r => refuse r f s
        | none => accept f room s

/-- Policer, then admission. -/
def policed (f : Frame) (amber : Bool) (s : State) : State :=
  match police f.chan f.dir f.flen amber s with
  | (.red, s) => refuse .police f s
  | (tint, s) => admission { f with tint := tint } s

/-- Whether the device carries traffic (R289, R306). -/
def inTraffic (s : State) : Bool := isHolder s && (s.glb.mode == .service || s.glb.mode == .maintenance)

end Sys2Proof.Machine
end

