-- ==== Sys2Proof/Machine/Ingress.lean ====
section
/-! DEFINITION. Frames received: host ingress (R9, R11, R25 to R30), standard line ingress (R31 to R44), sealed frames (R89) and PTP
segments (R92). A frame operand excludes the FCS, so that its length on the medium is four more. -/

namespace Sys2Proof.Machine

open Sys2Proof

/-- Whether an Ethernet port receives frames: a live device in a mode with traffic, the port up with its lanes (R306). -/
def receives (s : State) (q : Nat) : Bool :=
  live s && portsRun s && adminUp s q && (portOf s q).link && lanesOn s q && !fusedQ s q && !sealedQ s q

/-- The port events of a received frame (Table 14-2). -/
def countRx (q n : Nat) (s : State) : State :=
  countEv { group := 1, code := 1, inst := q } n (countEv { group := 1, code := 0, inst := q } 1 s)

/-! The perfect-match filter (R11, R254, R378) -/

/-- The lowest enabled entry whose address is the frame's destination: entry and target. -/
def filterHit (s : State) (q : Nat) (b : Bytes) : Option (Nat × Nat) :=
  ((upFrom 0 8).find? (fun i =>
    let v := pattr s q (0x10 + i)
    bits v 63 56 == 1 && leBytes 6 (bits v 47 0) == b.take 6)).map (fun i => (i, bits (pattr s q (0x10 + i)) 55 48))

/-- Granules of diverted frames that wait for their rings or for Gydom. -/
def divertedGranules (s : State) : Nat :=
  s.rings.foldl (fun a r => r.2.waiting.foldl (fun a p => a + cdiv p.data.length 256) a) 0
    + s.traffic.mkaIn.foldl (fun a x => a + cdiv x.2.length 256) 0

/-- Whether n more bytes fit the granules that diverted frames may hold (R254). -/
def divertFits (s : State) (n : Nat) : Bool := decide (divertedGranules s + cdiv n 256 ≤ 12288)

/-- A frame put behind the others of a receive ring (R378, R254). -/
def toRing (r : Nat) (p : Punt) (s : State) : State :=
  let x := ringOf s r
  if !x.en then ringDrop r s
  else if !divertFits s p.data.length then sump .divertFull { q := p.port, tr := s.time.ticks } s
  else
    let (chain, s) := takeGranules p.data.length s
    let x := ringOf s r
    setRing r { x with
      waiting := x.waiting ++ [{ p with chain := chain, tick := s.time.ticks }]
      headAt := if x.waiting.isEmpty then s.time.ticks else x.headAt } s

/-- The CA that a received MKPDU is for (R55): that of a channel of the port whose clear tags and CKN are the MKPDU's; and the MKPDU
without its clear tags. Any other frame has none. -/
def mkaFor (s : State) (q : Nat) (b : Bytes) : Option (Nat × Bytes) :=
  let (o, sv, cv, _) := clearTags (portTic s q) b
  let pdu := b.drop (o + 2)
  let serves (ca : Nat) : Bool :=
    let c := caChan s ca
    cattr s c 3 + 48 == q && cattr s c 8 == portTic s q && tagsSelect s c sv cv
      && cknOf s ca == (pdu.drop 36).take (beAt pdu 6 2 % 4096 - 28)
  if b.take 6 = beBytes 6 0x0180C2000003 ∧ beAt b o 2 = 0x888E then
    (s.cas.find? (fun p => p.2.exist && serves p.1)).map (fun p => (p.1, b.take 12 ++ b.drop o))
  else none

/-- A frame given to Gydom, which takes the MKPDUs of its CAs and has no use for another (log 59). -/
def toGydom (q : Nat) (b : Bytes) (s : State) : State :=
  if !divertFits s b.length then sump .divertFull { q := q, tr := s.time.ticks } s
  else match mkaFor s q b with
    | none => s
    | some x => onTraffic (fun t => { t with mkaIn := t.mkaIn ++ [x] }) s

/-- The receive stamp of a frame of n bytes with FCS whose last bit comes now: that of its first bit after the start frame delimiter
(R235), as if it came serially at the port rate. -/
def frameStamp (s : State) (q n : Nat) : Stamp := rxStamp s q (s.time.now.shift (-(8 * n * 2 ^ 32 / speedGb s q : Nat)))

/-- A frame diverted to the control complex: time-stamped (R237), and given to Gydom or its ring. -/
def divert (q entry target : Nat) (b : Bytes) (s : State) : State :=
  let s := countEv { group := 8, code := 0, inst := q } 1 (countEv { group := 1, code := 4, inst := q } 1 s)
  if target < 8 then toRing target { port := q, entry := entry, data := b, time := frameStamp s q (b.length + 4) } s else toGydom q b s

/-! Host ingress -/

/-- The tag fields of a host frame (R25), and the outer tag's DEI bit. -/
def hostTags (hport : Nat) (b : Bytes) : ClassKey × Bool :=
  let t := beAt b 12 2
  if t = 0x88A8 ∨ t = 0x8100 then
    let inner := if beAt b 16 2 = 0x8100 then some (beAt b 18 2 % 4096) else none
    ({ hport := hport, outer := some (beAt b 14 2 % 4096), inner := inner }, bit (beAt b 14 2) 12)
  else ({ hport := hport, outer := none, inner := none }, false)

/-- What classification answers: a channel, no channel, or an entry with a parity error. -/
inductive Found where
  | chan (c : Nat)
  | none
  | parity

/-- The lookup of a key (R25 to R30). -/
def classify (k : ClassKey) (entryOk : Bool) (s : State) : Found :=
  match entryFor s k with
  | some e => if e.invalid then port else if entryOk then .chan e.chan else .parity
  | none => port
where
  port : Found := if cattrPort < 0xFFFF then .chan cattrPort else .none
  cattrPort : Nat := pattr s k.hport 3

/-- The entry of a key invalidated by its parity error, a RECORD fault (R30). -/
def classParity (k : ClassKey) (s : State) : State :=
  let s := onTraffic (fun t => { t with classes := t.classes.map (fun e => if e.key = k then { e with invalid := true } else e) }) s
  logFault 0 1 k.hport (countFault 32 s)

/-- A frame of a channel that stands at the boundary of R306: whether it is refused there. -/
def standsBy (s : State) : Bool := !inTraffic s

def execHostFrameReceive (hport : LPort) (frame : Bytes) (fcsOk entryOk : Bool) (s : State) : Result :=
  .next (
    let q := hport.val
    let n := frame.length + 4
    if !receives s q then s
    else
      let s := countRx q n s
      let lost : Lost := { q := q, tr := s.time.ticks }
      if !fcsOk then sump .fcsFail lost s
      else if n < 64 ∨ 16000 < n then sump .length lost s
      else match filterHit s q frame with
        | some (i, target) => divert q i target frame s
        | none =>
          let (k, amber) := hostTags q frame
          match classify k entryOk s with
          | .parity => sump .classParity lost (classParity k s)
          | .none => sump .noChannel lost s
          | .chan c =>
            let e := egressQ s c .enc
            let f : Frame := {
              chan := c, dir := .enc, tc := cattr s c 4, tint := .green, flen := n, slots := frameSlots s c n, ingress := q, egress := e
              ebytes := eBytes s e n, data := frame, tr := s.time.ticks, deadline := none, tag := 0, stage := .queued, record := recordOf s c }
            if standsBy s then refuse .standby f s
            else if (chanOf s c).state = .free then refuse .noChannel f s
            else policed f amber s)

/-! Standard line ingress (Table 2-4) -/

/-- The channel whose SecY the clear tags select (R31). -/
def secyFor (s : State) (p : Nat) (tic : Nat) (sv cv : Option Nat) : Option Nat :=
  (enabledChans s).find? (fun c => cattr s c 3 == p && cattr s c 8 == tic && tagsSelect s c sv cv)

/-- A SecTAG's fields: header length, E, AN, PN low word, explicit SCI, secure data length. -/
structure SecTag where
  hl : Nat
  e : Bool
  an : Nat
  pn : Nat
  sci : Option Nat
  sdl : Nat

/-- The SecTAG at an offset, none where it is not well formed (check 3). A short SL may leave padding of a 64-byte frame. DESIGN
CHOICE (log 114): the top two bits of SL, which are sent as zero, count as part of SL on receive, so that a SecTAG with one of them set
is not well formed. -/
def secTag (b : Bytes) (o : Nat) : Option SecTag :=
  let tci := beAt b (o + 2) 1
  let sl := beAt b (o + 3) 1
  let sc := bit tci 5
  let hl := if sc then 16 else 8
  let room := b.length - (o + hl + 16)
  let sdl := if sl = 0 then room else sl
  let fits := decide (o + hl + 16 ≤ b.length) && decide (sl < 48)
    && (if sl = 0 then decide (48 ≤ room) else room == sl || (decide (sl < room) && b.length == 60))
  if bit tci 7 || (bit tci 6 && sc) || (sc && bit tci 4) || (bit tci 3 && !bit tci 2) || !fits then none
  else some { hl := hl, e := bit tci 3, an := tci % 4, pn := beAt b (o + 4) 4, sci := if sc then some (beAt b (o + 8) 8) else none, sdl := sdl }

/-- The installed slot of a channel that an AN names, the current one first (check 5). -/
def slotFor (s : State) (c an : Nat) : Option Nat :=
  [curSlot s c, nextSlot s c].find? (fun n => (kslotOf s n).state == .valid && cattr s c (0x10 + n % 2) == an)

def replayOf (s : State) (n : Nat) : Replay := tget {} s.traffic.replay n
def putReplay (n : Nat) (x : Replay) (s : State) : State := onTraffic (fun t => { t with replay := tset {} t.replay n x }) s

/-- The lowest acceptable PN of a slot under the window (R40, R44). -/
def lowPn (s : State) (c n : Nat) : Nat :=
  let x := replayOf s n
  max (max 1 x.low) (x.high + 1 - cattr s c 0x15)

/-- The PN recovered from its low word (IEEE 802.1AE-2018, 10.6.2: PRESUMED). -/
def fullPn (low pn : Nat) : Nat := (low / 2 ^ 32 + b01 (bit low 31 && !bit pn 31)) * 2 ^ 32 + pn

/-- Whether the replay check is run on a frame: not with validate DISABLED on a standard port. -/
def replayRuns (s : State) (f : Frame) : Bool := !f.plain && (sealedQ s f.ingress || cattr s f.chan 0x16 != 2)

/-- The two conditions of R40. -/
def replayOk (s : State) (f : Frame) : Bool :=
  let x := replayOf s f.slot
  (cattr s f.chan 0x14 == 0 || decide (lowPn s f.chan f.slot ≤ f.pn)) && (decide (x.high < f.pn) || !x.seen.contains f.pn)

/-- Whether an earlier frame of the same SA and PN is between the replay check and its ICV result (R42). -/
def pnBusy (s : State) (fid : Nat) (f : Frame) : Bool :=
  s.traffic.frames.any (fun p => p.1 != fid && p.2.dir == .dec && !p.2.plain && p.2.slot == f.slot && p.2.pn == f.pn
    && p.2.stage != .replayWait && p.2.stage != .complete)

/-- A frame handed to dispatch, in the order of release. -/
def handOn (fid : Nat) (f : Frame) (s : State) : State :=
  let n := s.traffic.releases
  putFrame fid { f with stage := .released, released := n } (onTraffic (fun t => { t with releases := n + 1 }) s)

/-- The replay check of a frame: it goes on to its queue, or straight to dispatch in shadow receive, waits, or is LATE. -/
def replayStage (fid : Nat) (s : State) : State :=
  match frameOf s fid with
  | none => s
  | some f =>
    let on (s : State) : State :=
      if f.shadow then handOn fid f s else putFrame fid { f with stage := if f.spill then .spilling else .queued } s
    if !replayRuns s f then on s
    else if pnBusy s fid f then putFrame fid { f with stage := .replayWait } s
    else if replayOk s f then on s
    else discard .late fid s

/-- A received frame of a channel: policed and admitted, or in shadow receive on a standby, then the replay check. A frame without
SecTAG has no check left in shadow receive. -/
def lineFrame (f : Frame) (amber : Bool) (s : State) : State :=
  let fid := s.traffic.nextFid
  if standsBy s then (if f.plain then refuse .standby f s else replayStage fid (enterFrame { f with shadow := true } s))
  else
    let s := policed f amber s
    if fid < s.traffic.nextFid then replayStage fid s else s

/-- A frame without SecTAG (check 2, R38). -/
def untaggedFrame (q n : Nat) (b : Bytes) (amber : Bool) (s : State) : State :=
  let c := pattr s q 0x21
  let lost : Lost := { q := q, tr := s.time.ticks }
  if 32766 ≤ c ∨ cattr s c 0x16 = 0 then sump .noTag lost s
  else
    let e := egressQ s c .dec
    let f : Frame := {
      chan := c, dir := .dec, tc := cattr s c 4, tint := .green, flen := n, slots := 0, ingress := q, egress := e
      ebytes := eBytes s e n, data := b, tr := s.time.ticks, deadline := none, tag := 0, stage := .queued, plain := true
      record := recordOf s c }
    let s := if cattr s c 0x16 = 1 then onTraffic (fun t => { t with untagged := tmod 0 t.untagged c (· + 1) }) s else s
    if s.glb.mode = .provision then refuse .standby f s
    else if 16000 < n then refuse .oversize f s
    else lineFrame f amber s

/-- Slots of a received standard frame: authenticated-only and text bytes as it carries them (R103). -/
def lineSlots (e : Bool) (conf sdl : Nat) : Nat := if e then slotsOf (28 + min conf sdl) (sdl - conf) else slotsOf (28 + sdl) 0

def execLineFrameReceive (lport : LPort) (frame : Bytes) (fcsOk : Bool) (s : State) : Result :=
  .next (
    let q := 48 + lport.val
    let n := frame.length + 4
    if !receives s q then s
    else
      let s := countRx q n s
      let lost : Lost := { q := q, tr := s.time.ticks }
      if !fcsOk then sump .fcsFail lost s
      else if n < 64 ∨ 16040 < n then sump .length lost s
      else match filterHit s q frame with
        | some (i, target) => divert q i target frame s
        | none =>
          let tic := portTic s q
          let (o, sv, cv, amber) := clearTags tic frame
          if beAt frame o 2 ≠ 0x88E5 then untaggedFrame q n frame amber s
          else match secTag frame o with
            | none => sump .badTag lost s
            | some t => match secyFor s lport.val tic sv cv with
              | none => sump .noSci lost s
              | some c =>
                if t.sci.getD (cattr s c 0x0C) ≠ cattr s c 0x0C then sump .noSci lost s
                else
                  let h := 16 + t.sdl
                  let e := egressQ s c .dec
                  let slot := slotFor s c t.an
                  let f : Frame := {
                    chan := c, dir := .dec, tc := cattr s c 4, tint := .green, flen := h, slots := lineSlots t.e (cattr s c 7) t.sdl
                    ingress := q, egress := e, ebytes := eBytes s e h, data := frame, tr := s.time.ticks, deadline := none
                    tag := 0, stage := .queued, slot := slot.getD 0, offset := o, record := recordOf s c
                    pn := fullPn (lowPn s c (slot.getD 0)) t.pn }
                  if s.glb.mode = .provision then refuse .standby f s
                  else if slot.isNone then refuse .noSa f s
                  else if 16000 < h then refuse .oversize f s
                  else lineFrame f amber s)

/-- A frame waiting at the replay stage is checked again once the earlier frame has its result (R42). -/
def execReplayRecheck (fid : Nat) (s : State) : Result :=
  .next (match frameOf s fid with
    | none => s
    | some f =>
      if f.stage ≠ .replayWait ∨ !live s then s
      else match f.doomed with
        | some r => discard r fid s
        | none => replayStage fid s)

/-! Sealed ingress -/

/-- The oldest frame closed by LAST goes through Table 3-6. -/
def execSealedFrameClose (lport : LPort) (s : State) : Result :=
  .next (
    let p := lport.val
    let q := 48 + p
    match (whOf s p).rx.closed with
    | [] => s
    | (c, b, tick) :: rest =>
      if !live s || !portsRun s then s
      else
        let s := onRx p (fun r => { r with closed := rest }) s
        let x := chanOf s c
        let h := b.length - 20
        let e := egressQ s c .dec
        let word := beAt b 0 8
        let slot := slotFor s c (bits word 63 62)
        let f : Frame := {
          chan := c, dir := .dec, tc := cattr s c 4, tint := .green, flen := h, slots := slotsOf 10 (h - 4), ingress := q, egress := e
          ebytes := eBytes s e h, data := b, tr := tick, deadline := none, tag := 0, stage := .queued, slot := slot.getD 0
          pn := bits word 61 0, record := recordOf s c }
        if !(cattr s c 3 == p && (x.state == .active || x.state == .frozen)) then sump .noChannel { q := q, tr := tick } s
        else if s.glb.mode = .provision then refuse .standby f s
        else if b.length < 84 ∨ 16020 < b.length then refuse .length f s
        else if slot.isNone then refuse .noSa f s
        else lineFrame f false s)

/-- The oldest PTP segment in a Wellhead's inbox goes to the port's ptp_ring, stamped with its cell's time (R92, R378). -/
def execPtpSegmentReceive (lport : LPort) (s : State) : Result :=
  .next (
    let p := lport.val
    match inboxTake p (isType 4) s with
    | (none, _) => s
    | (some x, t) =>
      if !listening s p then s
      else
        let q := 48 + p
        let t := countEv { group := 8, code := 0, inst := q } 1 (setDefect p 2 false t)
        let r := attr t clsLport p 0x22
        let d := (x.data.drop 4).take (beAt x.data 2 2)
        if r < 8 then toRing r { port := q, entry := 0xFF, data := d, time := x.time, ptp := true } t else t)

end Sys2Proof.Machine
end

