-- ==== Sys2Proof/Machine/Pump.lean ====
section
/-! DEFINITION. The Pump (R206 to R211): gates ahead, shapers, and the release of frames to dispatch. -/

namespace Sys2Proof.Machine

open Sys2Proof

/-! Gates ahead of an instant -/

/-- Starts of a list's entries, with their gates, from an offset on. -/
def entryStarts : (o : Nat) → List Nat → List (Nat × Nat)
  | _, [] => []
  | o, w :: r => (o, entryGates w) :: entryStarts (o + entryNs w) r

/-- Instants ahead of an instant at which an entry of the lists of port q begins: its distance and its gates; from S on, the list of
a pending commit. -/
def changesFrom (s : State) (q now : Nat) : List (Nat × Nat) :=
  let g := gateOf s q
  let here := gatePos g now
  let own := (entryStarts 0 g.oper).map (fun e => (if here < e.1 then e.1 - here else e.1 + g.cycle - here, e.2))
  match g.pending with
  | none => own
  | some t => own.filter (fun e => decide (now + e.1 < t)) ++ (entryStarts (t - now) g.admin)

def changesAhead (s : State) (q : Nat) : List (Nat × Nat) := changesFrom s q (netNs s)

/-- Whether class c's gate is open at an instant under the list in service. -/
def openAt (s : State) (q c t : Nat) : Bool :=
  match entryAt (gatePos (gateOf s q) t) 0 (gateOf s q).oper with
  | none => true
  | some (w, _) => bit (entryGates w) c

/-- Nanoseconds until class c's gate is next open, 0 where it is; none where it stays closed for the lists at hand. -/
def opensIn (s : State) (q c : Nat) : Option Nat :=
  if (portOf s q).gates.getLsbD c then some 0
  else (changesAhead s q).foldl (fun m e => if bit e.2 c then some (match m with | none => e.1 | some k => min k e.1) else m) none

/-- Nanoseconds from an instant until class c's gate next closes; none where it does not. -/
def closesFrom (s : State) (q c now : Nat) : Option Nat :=
  (changesFrom s q now).foldl (fun m e => if bit e.2 c then m else some (match m with | none => e.1 | some k => min k e.1)) none

def closesIn (s : State) (q c : Nat) : Option Nat := closesFrom s q c (netNs s)

/-! Shapers (R202, R203) -/

/-- A shaper's count at this tick. -/
def shapeNow (s : State) (n : Nat) : Int :=
  let x := tget {} s.traffic.shapes n
  min (1024 * attr s clsShp n 2 : Nat) (x.k + tokens (attr s clsShp n 1) (s.time.ticks - x.last))

def shapeOk (s : State) (n : Nat) : Bool := !shpOn s n || decide (0 ≤ shapeNow s n)

/-- A shaper charged with a frame's egress bytes. -/
def shapeCharge (n e : Nat) (s : State) : State :=
  if shpOn s n then
    onTraffic (fun t => { t with shapes := tset {} t.shapes n { k := shapeNow s n - 1024 * e, last := s.time.ticks } }) s
  else s

/-- The shapers of a frame: its channel's in its direction, and its class's on the port. -/
def shapersOf (s : State) (f : Frame) : List Nat :=
  (if chanShaped s f.chan f.dir then [f.chan] else []) ++ [clsShaper f.egress f.tc]

/-! Release (R207, R211, R171) -/

/-- What the path still takes at the least: the frame's slots at p_disp and its egress bytes up to its last bit. -/
def leastPath (s : State) (f : Frame) : Rat :=
  let out : Rat := if sealedQ s f.egress then 8 * (f.flen + 24 : Rat) / segCapacity (pattr s f.egress 2)
    else 8 * (f.ebytes - 12 : Rat) / speedGb s f.egress
  (f.slots : Rat) * 1000 / s.pmu.pDisp + out

/-- A frame that can no longer reach its deadline after at least a time (R171). -/
def tooLate (s : State) (f : Frame) (least : Rat) : Bool :=
  match f.deadline with
  | none => false
  | some d => decide (d < (s.time.ticks : Rat) + least)

/-- Whether a frame waits in its channel's queue, in the Cistern or spilled. -/
def isQueued (f : Frame) : Bool :=
  match f.stage with | .queued => true | .spilling => true | .spilled => true | _ => false

/-- Non-express bytes of port q released and not yet transmitted (R207). -/
def releasedBytes (s : State) (q : Nat) : Nat :=
  sumFrames s (fun f => f.egress == q && f.tc != 7 && !f.shadow && isReleased f) (·.ebytes)
  + ((portOf s q).mgmt.filter (fun m => m.released.isSome)).foldl (fun a m => a + m.ebytes) 0
  + (if 48 ≤ q then ((whOf s (q - 48)).tx.segs.filter (fun g => g.tc != 7)).foldl (fun a g => a + g.data.length) 0 else 0)

/-- The factor a group is held to (R192). -/
def groupFactor (s : State) (g : Nat) : Rat := if g = 2 then s.pmu.kB else if s.pmu.tier = 3 then s.pmu.kR else 1

/-- The oldest queued frame of each channel and direction of a group on port q. -/
def heads (s : State) (q g : Nat) : List (Nat × Frame) :=
  s.traffic.frames.foldl (fun l p =>
    if p.2.egress = q ∧ tcGroup p.2.tc = g ∧ !p.2.shadow ∧ isQueued p.2 ∧ !l.any (fun h => h.2.chan == p.2.chan && h.2.dir == p.2.dir)
    then l ++ [p] else l) []

/-- Whether a class's gate is open or opens within 3 µs. -/
def gateSoon (s : State) (q c : Nat) : Bool := (opensIn s q c).any (fun t => decide (t ≤ 3000))

/-- Whether a head is eligible (R211), not before its place under a scaling factor (R192). -/
def eligible (s : State) (f : Frame) : Bool :=
  f.stage == .queued && gateSoon s f.egress f.tc && (shapersOf s f).all (shapeOk s)
  && (let k := groupFactor s (tcGroup f.tc)
      k == 1 || (decide (0 < k) && decide (tget 0 s.traffic.paced (dirIx f.chan f.dir) ≤ (s.time.ticks : Rat))))

/-- The head of least tag, ties to the lower channel. -/
def leastTag : List (Nat × Frame) → Option (Nat × Frame)
  | [] => none
  | p :: r => match leastTag r with
    | none => some p
    | some b => if b.2.tag < p.2.tag ∨ (b.2.tag = p.2.tag ∧ b.2.chan < p.2.chan) then some b else some p

/-- The key under which the management queue of a port is paced. -/
def mgmtPace (q : Nat) : Nat := 65536 + q

/-- The oldest management frame not yet released, where its class gate and shaper allow it, not before its place under k_R. -/
def mgmtHead (s : State) (q : Nat) : Option MgmtFrame :=
  let k := groupFactor s 1
  if gateSoon s q 6 && shapeOk s (clsShaper q 6)
      && (k == 1 || (decide (0 < k) && decide (tget 0 s.traffic.paced (mgmtPace q) ≤ (s.time.ticks : Rat)))) then
    (portOf s q).mgmt.find? (fun m => m.released.isNone)
  else none

/-- The first management frame not yet released marked with its place. -/
def markReleased (n : Nat) : List MgmtFrame → List MgmtFrame
  | [] => []
  | m :: r => if m.released.isNone then { m with released := some n } :: r else m :: markReleased n r

/-- A frame released to dispatch, or discarded where it can no longer be in time. DESIGN CHOICE (log 116): a decrypt frame is released
here, its shapers charged, before its decryption, as R171, R207 and chapter 4 have the Pump release every frame to dispatch; R14 and
step 6 of the decrypt journey name the host-egress Pump after the tag check. -/
def releaseFrame (fid : Nat) (f : Frame) (s : State) : State :=
  if tooLate s f (leastPath s f) then discard .deadline fid s
  else
    let s1 := handOn fid f s
    if f.tc = 7 then s1
    else
      let s1 := (shapersOf s f).foldl (fun s n => shapeCharge n f.ebytes s) s1
      let k := groupFactor s (tcGroup f.tc)
      if k = 1 then s1
      else
        let r := k * (if tcGroup f.tc = 1 then gRate s f.chan f.dir else bestShare s f.chan f.dir)
        onTraffic (fun t => { t with
          paced := tset 0 t.paced (dirIx f.chan f.dir) ((s.time.ticks : Rat) + 8 * (f.ebytes : Rat) / r) }) s1

/-- A management frame released. -/
def releaseMgmt (q : Nat) (m : MgmtFrame) (s : State) : State :=
  let x := portOf s q
  let n := s.traffic.releases
  let k := groupFactor s 1
  let s := shapeCharge (clsShaper q 6) m.ebytes
    (setPort q { x with mgmt := markReleased n x.mgmt } (onTraffic (fun t => { t with releases := n + 1 }) s))
  if k = 1 then s
  else onTraffic (fun t => { t with
    paced := tset 0 t.paced (mgmtPace q) ((s.time.ticks : Rat) + 8 * (m.ebytes : Rat) / (k * mgmtRate s q)) }) s

/-- The array limit of R184 and the port limit of R207. -/
def mayRelease (s : State) (q : Nat) : Bool :=
  decide ((releasedSlots s : Rat) < horizonNs s * capacity s / 1000) && decide ((releasedBytes s q : Rat) < 375 * rateQ s q)

/-- One release opportunity of port q. -/
def release1 (q : Nat) (s : State) : State :=
  match s.traffic.frames.find? (fun p => p.2.egress == q && p.2.tc == 7 && !p.2.shadow && p.2.stage == .queued) with
  | some (fid, f) => releaseFrame fid f s
  | none =>
    if !mayRelease s q then s
    else
      let pick (g : Nat) : Option (Nat × Frame) := leastTag ((heads s q g).filter (fun p => eligible s p.2))
      match pick 1, mgmtHead s q with
      | some (fid, f), none => releaseFrame fid f s
      | some (fid, f), some m => if m.tag < f.tag then releaseMgmt q m s else releaseFrame fid f s
      | none, some m => releaseMgmt q m s
      | none, none => match pick 2 with
        | some (fid, f) => releaseFrame fid f s
        | none => s

def execPumpRelease (q : Port) (s : State) : Result := .next (if live s then release1 q.val (gateTurn q.val s) else s)

end Sys2Proof.Machine
end

