-- ==== Sys2Proof/Machine/Cipher.lean ====
section
/-! DEFINITION. The cipher array: requests dispatched, suspended and completed (R103 to R119), a cluster's fault and retirement (R277 to
R279), rotation (R280, R281). -/

namespace Sys2Proof.Machine

open Sys2Proof

/-! Frame processing (R33, R62, R80, R104, R110) -/

/-- (SSCI ‖ PN) XOR salt. -/
def frameNonce (ssci pn : Nat) (salt : Salt) : NatList := beOct 12 ((ssci * 2 ^ 64 + pn) ^^^ salt.toNat)

/-- Additional data of a sealed frame: the channel and the PN field. -/
def sealedAad (c word : Nat) : NatList := beOct 2 c ++ beOct 8 word

/-- An encrypt frame as it leaves under a slot's key: a sealed frame, or a standard line frame without FCS (Table 2-3). DESIGN CHOICE
(log 102): the DEI bit of the clear tags, for which Table 2-3 gives no value, is sent 0. -/
def protect (s : State) (f : Frame) (n pn : Nat) (key : NatList) (salt : Salt) : Bytes :=
  let c := f.chan
  let an := f.record.an n
  let nonce := frameNonce f.record.ssciTx pn salt
  let b := f.data
  if sealedQ s f.egress then
    let word := an * 2 ^ 62 + pn
    let (x, t) := gcmEnc key nonce (sealedAad c word) (octets b)
    beBytes 8 word ++ ofOctets (x ++ t)
  else
    let tic := cattr s c 8
    let t0 := beAt b 12 2
    let pcp := if t0 = 0x88A8 ∨ t0 = 0x8100 then bits (beAt b 14 2) 15 13 else 0
    let tags := (if tic = 0 then [] else beBytes 2 0x88A8 ++ beBytes 2 (pcp * 2 ^ 13 + cattr s c 9))
      ++ (if tic = 2 then beBytes 2 0x8100 ++ beBytes 2 (pcp * 2 ^ 13 + cattr s c 0x0A) else [])
    let sd := b.drop 12
    let integ := f.record.protect == 1
    let sectag := beBytes 2 0x88E5 ++ beBytes 1 (0x20 + (if integ then 0 else 0x0C) + an)
      ++ beBytes 1 (if sd.length < 48 then sd.length else 0) ++ beBytes 4 (pn % 2 ^ 32) ++ beBytes 8 f.record.txSci
    let clear := if integ then sd.length else min f.record.confOffset sd.length
    let (x, t) := gcmEnc key nonce (octets (b.take 12 ++ sectag ++ sd.take clear)) (octets (sd.drop clear))
    b.take 12 ++ tags ++ sectag ++ sd.take clear ++ ofOctets (x ++ t)

/-- A recovered host frame padded to 64 bytes with its FCS (R35). -/
def padded (b : Bytes) : Bytes := b ++ zeros (60 - b.length)

/-- A received frame's host frame, and whether its ICV passed. -/
def unprotect (s : State) (f : Frame) (key : NatList) (salt : Salt) : Bytes × Bool :=
  let nonce := frameNonce f.record.ssciRx f.pn salt
  let b := f.data
  if sealedQ s f.ingress then
    let (x, pass) := gcmDec key nonce (sealedAad f.chan (beAt b 0 8)) (octets ((b.drop 8).take (b.length - 24)))
      (octets (b.drop (b.length - 16)))
    (padded (ofOctets x), pass)
  else
    match secTag b f.offset with
    | none => ([], false)
    | some t =>
      let o := f.offset + t.hl
      let sd := (b.drop o).take t.sdl
      let clear := if t.e then min f.record.confOffset t.sdl else t.sdl
      let aad := b.take 12 ++ (b.drop f.offset).take t.hl ++ sd.take clear
      let (x, pass) := gcmDec key nonce (octets aad) (octets (sd.drop clear)) (octets ((b.drop (o + t.sdl)).take 16))
      (padded (b.take 12 ++ sd.take clear ++ ofOctets x), pass)

/-! Placement (R105) -/

/-- Slots queued and running in a cluster, of every request or of express ones. -/
def loadOf (s : State) (express : Bool) (c : Nat) : Nat :=
  s.reqs.foldl (fun n p => if p.2.cluster = some c ∧ (!express || p.2.express) then n + slotsLeft s c p.1 p.2.slots else n)
    (s.traffic.frames.foldl (fun n p => match p.2.stage with
      | .inCluster k => if k = c ∧ (!express || p.2.tc == 7) then n + slotsToEnter s p.1 p.2 else n
      | _ => n) 0)

/-- Clusters that take requests: ACTIVE, with room in the input queue, and not about to be tested once the spare has come (R101, R280). -/
def takers (s : State) : List Nat :=
  (byRole s .active).filter (fun c => !(underTest s c && !awaits s c) && !(clusterOf s c).fault && decide ((clusterOf s c).queue.length < 64))

/-- The member of a list with the least figure, the lowest number on a tie. -/
def leastBy (n : Nat → Nat) : List Nat → Option Nat
  | [] => none
  | c :: r => match leastBy n r with
    | none => some c
    | some d => if n d < n c then some d else some c

/-- The cluster of an express request (R105). -/
def placeExpress (s : State) : Option Nat := leastBy (loadOf s true) ((takers s).filter (fun c => decide (loadOf s true c ≤ 3240)))

def placeFor (s : State) (f : Frame) : Option Nat := if f.tc = 7 then placeExpress s else leastBy (loadOf s false) (takers s)

/-! Pipelines -/

def isExpress (s : State) (id : Nat) : Bool := (frameOf s id).any (fun f => f.tc == 7) || (reqOf s id).any (·.express)

def slotsFor (s : State) (id : Nat) : Nat :=
  match frameOf s id with
  | some f => f.slots
  | none => ((reqOf s id).map (·.slots)).getD 0

/-- w bits of a cluster's mask generator (R120), which gives words of 64 bits. -/
def maskOut (c w : Nat) (s : State) : BitVec w × State :=
  let x := clusterOf s c
  (Config.mask x.maskSeed x.maskWords w, setCluster c { x with maskWords := x.maskWords + cdiv w 64 } s)

/-- Pipeline k of a cluster begins a request with its slots; its key is shared afresh as it enters (R120). -/
def runOn (c k id left : Nat) (s : State) : State :=
  let (m, s) := maskOut c 512 s
  let x := clusterOf s c
  let s := setCluster c { x with
    queue := x.queue.filter (fun i => !(i == id)),
    pipes := tmod {} x.pipes k (fun p => { p with run := some id, left := left, since := s.time.ticks }) } s
  match frameOf s id with
  | some f => putFrame id { f with place := c + 64 * k, key := remask f.key m } s
  | none => match reqOf s id with
    | some r => putReq id { r with key := remask r.key m } s
    | none => s

/-- A free pipeline takes the express request at the head of the queue, or resumes what it holds suspended, or takes the head
(R113, R114). -/
def feed (c k : Nat) (s : State) : State :=
  let x := clusterOf s c
  let p := tget {} x.pipes k
  if p.run.isSome then s
  else
    let own (s : State) : State :=
      match p.susp, x.queue with
      | some fid, _ => runOn c k fid p.suspLeft (setCluster c { x with
          pipes := tmod {} x.pipes k (fun p => { p with susp := none, suspLeft := 0 }) } s)
      | none, fid :: _ => runOn c k fid (slotsFor s fid) s
      | none, [] => s
    match x.queue with
    | fid :: _ => if isExpress s fid then runOn c k fid (slotsFor s fid) s else own s
    | [] => own s

def feedAll (c : Nat) (s : State) : State := feed c 3 (feed c 2 (feed c 1 (feed c 0 s)))

/-- A request enters a cluster's input queue, express ahead of the others. -/
def enqueue (c fid : Nat) (s : State) : State :=
  let x := clusterOf s c
  let q := if isExpress s fid then
      x.queue.filter (isExpress s) ++ fid :: x.queue.filter (fun i => !isExpress s i)
    else x.queue ++ [fid]
  feedAll c (setCluster c { x with queue := q } s)

/-- The bank of a channel slot (R107). -/
def slotBank (n : Nat) : Nat := (n ^^^ n / 16 ^^^ n / 256 ^^^ n / 4096) % 16

/-- Whether an earlier released frame of the channel and direction is still to be dispatched. -/
def mustWait (s : State) (f : Frame) : Bool :=
  s.traffic.frames.any (fun p => p.2.chan == f.chan && p.2.dir == f.dir && p.2.stage == .released && decide (p.2.released < f.released))

/-- The PN of the current slot given to an encrypt frame placed on a cluster (R45, R46). -/
def takePn (c fid : Nat) (f : Frame) (s : State) : Frame × State :=
  if f.dir = .dec then (f, s)
  else
    let n := curSlot s f.chan
    let pn := pnOf s n
    let f := { f with slot := n, pn := pn, stage := .inCluster c }
    let x := chanOf s f.chan
    let s := putFrame fid f (setPn n (pn + 1) (setChan f.chan { x with reserved := x.reserved - 1 } s))
    (f, if effThresh s f.chan ≤ pn then pnThresh f.chan n s else s)

/-- The counts of a request entering a cluster (Tables 14-2 and 14-4). -/
def countRequest (c slots : Nat) (tc : Option Nat) (express : Bool) (s : State) : State :=
  let e : Ev := { group := 4, code := 0, inst := c, tc := tc }
  let s := countEv { e with code := 1 } slots (countEv e 1 (countFix 50 slots s))
  if express then countEv { e with code := 2 } 1 (countFix 51 slots s) else s

/-- The request of a frame whose key is fetched, with its output granules (R104). -/
def enterArray (c fid : Nat) (f : Frame) (x : Slot) (s : State) : State :=
  let key := slotOctets x
  let (b, pass) := if f.dir = .enc then (protect s f f.slot f.pn key x.salt, true) else unprotect s f key x.salt
  let s := countRequest c f.slots (some f.tc) (f.tc == 7) s
  let (outs, s) := takeGranules b.length s
  enqueue c fid (putFrame fid { f with stage := .inCluster c, outp := b, pass := pass, key := x.line, place := c, outs := outs } s)

/-- What a dispatch halts on: parity in the link RAM (R257), in the PN store or other SA state (R266), in the slot's salt or attribute word,
or an error in the store's line (R165). -/
def dispatchHalt (f : Frame) (e : Errs) (word : Bool) (s : State) : Option Nat :=
  if e.link then some haltLinkRam
  else if e.sa then some haltSaState
  else if word then some haltKeyState
  else if (kslotOf s f.slot).state = .valid ∧ !lineOk (kslotOf s f.slot).line then some haltKeyState
  else none

/-- A released frame dispatched (R105): PN, key fetch, check of the key at the cluster, parity of its granules, then its request. A
slot that is not VALID or not enabled is as an empty one (R108, R154). -/
def dispatch (fid : Nat) (f : Frame) (e : Errs) (word : Bool) (s : State) : State :=
  if f.plain then putFrame fid { f with stage := .complete, outp := f.data } s
  else match placeFor s f with
    | none => s
    | some c =>
      let (f, s) := takePn c fid f s
      let x := kslotOf s f.slot
      let s := countEv { group := 5, code := 0, inst := slotBank f.slot } 1 (countFix 53 1 s)
      match dispatchHalt f e word s with
      | some cause => halt cause s
      | none =>
        if x.state ≠ .valid ∨ x.enabled = false then discard .noSa fid s
        else if e.bus then discard .keyParity fid (logFault 0 2 f.slot (countFault 33 s))
        else if !e.data.isEmpty then discard .cisternParity fid (granuleError fid (granulesBad e f.chain) s)
        else enterArray c fid f x s

/-! Sealed control messages in the array (R90, R103, R105, R115) -/

/-- The handle of the link key that a request names (Table 4-2). -/
def linkHandle (s : State) (r : Req) : Nat :=
  match r.kind with
  | .seal p _ => handleLink p false (oddEpoch (whOf s p).tx.epoch) true
  | .unseal p _ odd => handleLink p true odd true
  | .chunk _ _ _ _ => 0

/-- What a control request computes: a message sealed under the next PN, or a segment opened. -/
def workCtl (r : Req) (s : State) : Req × State :=
  match r.kind with
  | .seal p m =>
    let pn := (whOf s p).tx.ctlPn
    ({ r with outp := sealCtl (txKeys s p) pn m.data }, onTx p (fun t => { t with ctlPn := pn + 1 }) s)
  | .unseal p x odd => match openCtl (keysOf s p true odd) x.data with
    | some m => ({ r with outp := m }, s)
    | none => ({ r with pass := false }, s)
  | .chunk _ _ _ _ => (r, s)

/-- A request discarded for a bad key at its cluster (R165). A control message of a line port counts in the Sump as a frame does. -/
def badKey (r : Req) (id h : Nat) (s : State) : State :=
  let s := loseReq .keyParity id (logFault 0 2 h (countFault 33 s))
  match r.kind with
  | .seal p _ => if p < 48 then sump .keyParity { q := 48 + p, tr := s.time.ticks } s else s
  | .unseal p _ _ => if p < 48 then sump .keyParity { q := 48 + p, tr := s.time.ticks } s else s
  | .chunk _ _ _ _ => s

/-- A control request placed as an express request; with no cluster for it, it waits. -/
def dispatchCtl (id : Nat) (r : Req) (e : Errs) (s : State) : State :=
  match placeExpress s with
  | none => s
  | some c =>
    let h := linkHandle s r
    let l := tget {} s.keys.internal h
    let (r, s) := workCtl r (countEv { group := 5, code := 0, inst := h % 16 } 1 (countFix 53 1 s))
    if !(lineOk l || l == {}) then halt haltKeyState s
    else if e.bus then badKey r id h (putReq id r s)
    else enqueue c id (putReq id { r with cluster := some c, key := l } (countRequest c r.slots none true s))

/-- Whether a control request may be dispatched: of the mated link also while the device is halted (Table 10-5), and to be sealed
only for a running transmitter. -/
def ctlMay (s : State) (r : Req) : Bool :=
  r.cluster.isNone && (match r.kind with
    | .seal p _ => (live s || (p == 48 && !asleep s)) && (whOf s p).tx.running
    | .unseal p _ _ => live s || (p == 48 && !asleep s)
    | .chunk _ _ _ _ => false)

/-- A request at the head of the released ones is dispatched; a channel whose PN passes the watermark limit makes the pair NOT_READY
(R296); word: parity in the salt or attribute word of the frame's slot. -/
def execRequestDispatch (fid : Nat) (errs : Errs) (word : Bool) (s : State) : Result :=
  .next (match frameOf s fid with
    | some f => if live s && f.stage == .released && !mustWait s f then settle s (dispatch fid f errs word s) else s
    | none => match reqOf s fid with
      | some r => if ctlMay s r then dispatchCtl fid r errs s else s
      | none => s)

/-! Suspension (R113, R114) -/

/-- The pipeline that runs the non-express request with the most slots left and holds none suspended. -/
def victim (s : State) (c : Nat) : Option Nat :=
  let x := clusterOf s c
  [0, 1, 2, 3].foldl (fun m k =>
    let p := tget {} x.pipes k
    match p.run with
    | none => m
    | some fid =>
      if isExpress s fid ∨ p.susp.isSome = true then m
      else match m with
        | none => some k
        | some j => if pipeLeft s (tget {} x.pipes j) < pipeLeft s p then some k else some j) none

/-- The running request of a pipeline moves to its suspension register and the express request takes its place. -/
def suspend (c k fid : Nat) (s : State) : State :=
  let x := clusterOf s c
  let s := setCluster c { x with
    pipes := tmod {} x.pipes k (fun p => { p with susp := p.run, suspLeft := pipeLeft s p, run := none, left := 0 }) } s
  let tc := (((tget {} x.pipes k).run.bind (frameOf s)).map (·.tc))
  runOn c k fid (slotsFor s fid) (countEv { group := 4, code := 3, inst := c, tc := tc } 1 (countFix 52 1 s))

def execExpressSuspend (cluster : ClusterNo) (s : State) : Result :=
  .next (
    let c := cluster.val
    let s1 := feedAll c s
    if !live s then s
    else match (clusterOf s1 c).queue, victim s1 c with
      | fid :: _, some k => if isExpress s1 fid then suspend c k fid s1 else s1
      | _, _ => s1)

/-! Completion (R112, R118, R14, R41) -/

/-- n lines of the REPLAY range written by the replay cache, a fabric path under key index 3 (R258). DESIGN CHOICE (log 123): the spec does
not say where in the range an SA's bitmap lies, so that the line is open; the bitmap itself is the replay record of its SA. -/
def replayWrites : (n : Nat) → State → State
  | 0, s => s
  | n + 1, s =>
    let (v, s) := freeVal 26 s
    let a := 0x1800000000 + 64 * v.toNat
    replayWrites n (imeCount 3 a (countEv { group := 6, code := 4 } 1 (countFix 59 1 (useLine 3 a s))))

/-- The replay cache's accesses as a PN enters a record with highest PN high (R43), of which the last 4,096 bits are on chip. DESIGN CHOICE
(log 123): an older bit is read and written in its line, and each line that leaves the cache as the highest PN advances is written. -/
def replayCache (window high pn : Nat) (s : State) : State :=
  if window ≤ 4096 then s
  else if pn + 4096 ≤ high then replayWrites 1 (countRead 3 0x1800000000 64 s)
  else replayWrites (min 8 ((max high pn) / 512 - high / 512)) s

/-- A decrypt frame whose ICV passed enters the replay record of its SA, where that SA is still installed. -/
def replayCommit (f : Frame) (s : State) : State :=
  if (kslotOf s f.slot).state = .valid ∧ lineKey (kslotOf s f.slot).line = lineKey f.key then
    let x := replayOf s f.slot
    replayCache (cattr s f.chan 0x15) x.high f.pn (putReplay f.slot { x with high := max x.high f.pn, seen := f.pn :: x.seen } s)
  else s

/-- A request leaves its pipeline, which goes on with the next. -/
def leaveCluster (c fid : Nat) (s : State) : State :=
  let x := clusterOf s c
  emptied c (feedAll c (setCluster c { x with pipes := x.pipes.map (fun p => (p.1, p.2.without fid)) } s))

/-- The result of a completed request: its output granules take the place of its input granules (R104). Those of a frame whose tag failed are
zeroed before they are freed (R14); the model keeps no content of a free granule, which nothing can read (log 6). -/
def result (c fid : Nat) (f : Frame) (s : State) : State :=
  if !f.pass then discard .icvFail fid (countEv { group := 4, code := 4, inst := c } 1 s)
  else
    let s := if f.dir = .dec then replayCommit f s else s
    if f.shadow then discard .standby fid s
    else match f.doomed with
      | some r => discard r fid s
      | none => putFrame fid { f with stage := .complete, key := {}, chain := f.outs, outs := [] } s

/-- Whether a request runs in a cluster and its last slot has entered its pipeline, at the pace (R106). -/
def hasRun (s : State) (c id : Nat) : Bool := (clusterOf s c).pipes.any (fun p => p.2.run == some id && pipeLeft s p.2 == 0)

/-- A kind 0x02 segment that has passed its ICV: dLHB clears, and its plaintext waits to be handled (R90, R96). -/
def passedCtl (p : Nat) (x : CtlSeg) (plain : Bytes) (s : State) : State :=
  if listening s p then
    setDefect p 2 false (onRx p (fun r => { r with inbox := r.inbox ++ [{ x with data := plain }], lastCtl := s.time.ticks }) s)
  else s

/-- The result of a completed request that is no frame's. -/
def reqResult (r : Req) (s : State) : State :=
  match r.kind with
  | .seal p m => onTx p (fun t => { t with ready := t.ready ++ [(r.outp, m)] }) s
  | .unseal p x _ => if r.pass then passedCtl p x r.outp s else ctlFail p s
  | .chunk n _ _ w => putWork n w s

/-- Whether the completion of a frame reads SA state: the replay record that a decrypt frame enters. -/
def readsSa (f : Frame) : Bool := f.dir == .dec && f.pass

def execRequestComplete (req : Met Nat Errs) (s : State) : Result :=
  let fid := req.it
  let errs := req.met
  .next (match frameOf s fid with
    | some f => (match f.stage with
      | .inCluster c =>
        if !(live s && hasRun s c fid) then s
        else if errs.sa && readsSa f then halt haltSaState s
        else withEcc errs.ecc (fun s => leaveCluster c fid (result c fid f s)) s
      | _ => s)
    | none => match reqOf s fid with
      | some r => (match r.cluster with
        | some c => if !asleep s && hasRun s c fid then reqResult r (leaveCluster c fid (dropReq fid s)) else s
        | none => s)
      | none => s)

/-! Retirement (R277 to R279, R282) -/

/-- The lowest SPARE not yet claimed. -/
def freeSpare (s : State) : Option Nat := (byRole s .spare).find? (fun k => !s.maint.replacing.any (fun r => r.2 == k))

def putReplacing (l : List (Nat × Nat)) (s : State) : State := onMaint (fun m => { m with replacing := l }) s

/-- The end of a rotation step, with the answer of its CL.TEST. -/
def endStep (r : Reply) (s : State) : State :=
  match s.maint.rotating with
  | none => s
  | some (_, mb) =>
    let s := onMaint (fun m => { m with rotating := none }) s
    match mb with | some m => answer m.val r s | none => s

/-- The end of a retirement: its spare is ACTIVE, or there is none (R281). -/
def retirementDone (s : State) : State := onMaint (fun m => { m with retiredAt := s.time.ticks }) s

/-- A cluster retired as a fault of a row; what it served, or what the failed spare was to replace, gets the next spare. A SPARE under
test that fails its own known-answer test ends the step. -/
def retire (row c : Nat) (s : State) : State :=
  let x := clusterOf s c
  let served := if x.role = .active ∨ x.role = .idle then [c] else
    ((s.maint.replacing.filter (fun r => r.2 == c)).map (·.1)).filter (fun k => k != c)
  let s := if underTest s c then endStep (.ok, [1, 0, 0, 0]) s else s
  let s := putReplacing (s.maint.replacing.filter (fun r => r.2 != c)) s
  let s := logFault 1 row c (countFault 41 (setRole c .retired s))
  match freeSpare s with
  | none =>
    let s := retirementDone (degrade 10 c 1 (raise evRetire (leBytes 1 c ++ leBytes 1 0xFF) s))
    match s.maint.rotating with
    | some (k, _) => if served.contains k then endStep (reply .internal) s else s
    | none => s
  | some k => match served with
    | [] => retirementDone (raise evRetire (leBytes 1 c ++ leBytes 1 0xFF) s)
    | r :: _ => raise evRetire (leBytes 1 c ++ leBytes 1 k) (Sys2Proof.Machine.wake k (putReplacing (s.maint.replacing ++ [(r, k)]) s))

/-- A rotation step abandoned by a cluster's fault (R281): the cluster in TEST is SPARE without a verdict; CL.TEST answers INTERNAL. -/
def abandon (c : Nat) (s : State) : State :=
  match s.maint.rotating with
  | none => s
  | some (k, _) =>
    let s := if (clusterOf s k).role = .test ∧ k ≠ c then setRole k .spare s else s
    let own := (s.maint.replacing.filter (fun r => r.1 == k)).map (·.2)
    let s := putReplacing (s.maint.replacing.filter (fun r => r.1 != k)) s
    let s := own.foldl (fun s j => if j = c then s else setRole j .spare s) s
    onMaint (fun m => { m with paused := true }) (endStep (reply .internal) s)

def inClusterOf (c : Nat) (f : Frame) : Bool := f.stage == .inCluster c

/-- A cluster's fault flag sets (R116 to R118): a rotation step is abandoned, what the cluster holds is discarded, and it is
retired. One detected in the tick of a halt is recorded, and the halt is the response (R275). -/
def faultFlag (c : Nat) (s : State) : State :=
  if asleep s || (clusterOf s c).role == .retired then s
  else if halted s then logFault 1 8 c (countFault 41 s)
  else
    let s0 := s
    let s := abandon c (setCluster c { clusterOf s c with fault := true } s)
    let s := loseReqs .clusterFault (fun r => r.cluster == some c) (discardAll .clusterFault (inClusterOf c) s)
    settle s0 (retire 8 c (setCluster c { clusterOf s c with queue := [], pipes := [] } s))

def execClusterFault (cluster : ClusterNo) (s : State) : Result := .next (faultFlag cluster.val s)
def execHandshakeTimeout (cluster : ClusterNo) (s : State) : Result := .next (faultFlag cluster.val s)

/-- A spare's known-answer test ends (R278): ACTIVE, or retired. -/
def execSpareKatDone (cluster : ClusterNo) (pass : Bool) (s : State) : Result :=
  .next (
    let k := cluster.val
    if asleep s || !s.maint.replacing.any (fun r => r.2 == k) || !domOn s k then s
    else if halted s then (if pass then s else logFault 1 9 k (countFault 41 s))
    else if pass then
      let forRetired := s.maint.replacing.any (fun r => r.2 == k && (clusterOf s r.1).role == .retired)
      let t := tryTest (setRole k .active (putReplacing (s.maint.replacing.filter (fun r => r.2 != k)) s))
      settle s (if forRetired then retirementDone t else t)
    else settle s (retire 9 k s))

/-! Rotation steps -/

/-- A step on cluster c begins: the lowest SPARE, k, is brought to ACTIVE. DEDUCED (log 126): so too where c is a SPARE itself, c being
k or not. -/
def beginStep (c k : Nat) (mb : Option Mb) (s : State) : State :=
  Sys2Proof.Machine.wake k (putReplacing (s.maint.replacing ++ [(c, k)]) (onMaint (fun m => { m with rotating := some (c, mb) }) s))

/-- The next cluster in cluster order that is not retired. -/
def nextCluster (s : State) : Option Nat :=
  (upFrom s.maint.nextTest 34).find? (fun i => (clusterOf s (i % 34)).role != .retired)

/-- The time between two steps, of which 34 take rotate_h hours, in ns. -/
def rotationNs (s : State) : Nat := attr s clsDev 0 0x0B * 3600 * 10 ^ 9 / 34

def execRotationStep (s : State) : Result :=
  .next (
    if !live s || !(s.glb.mode == .service || s.glb.mode == .maintenance) || attr s clsDev 0 0x0B == 0 || s.maint.rotating.isSome
        || s.maint.paused || !passed s s.maint.stepAt (rotationNs s) then s
    else match freeSpare s, nextCluster s with
      | some k, some i =>
        beginStep (i % 34) k none (onMaint (fun m => { m with nextTest := (i % 34 + 1) % 34, stepAt := s.time.ticks }) s)
      | _, _ => s)

/-- A self-test ends: the cluster is SPARE, or retired (R280). -/
def execClusterTestDone (cluster : ClusterNo) (pass : Bool) (s : State) : Result :=
  .next (
    let c := cluster.val
    match s.maint.rotating with
    | none => s
    | some (k, _) =>
      if asleep s || k != c || (clusterOf s c).role != .test then s
      else if halted s then (if pass then s else logFault 1 9 c (countFault 41 s))
      else if pass then settle s (endStep (.ok, [0, 0, 0, 0]) (setRole c .spare s))
      else settle s (retire 9 c s))

/-- Rotation goes on 1 s after the retirement that stopped it has completed (R281). -/
def execRotationResume (s : State) : Result :=
  .next (
    if live s && !s.maint.replacing.any (fun r => (clusterOf s r.1).role == .retired) && passed s s.maint.retiredAt (10 ^ 9) then
      onMaint (fun m => { m with paused := false }) s
    else s)

/-- CL.TEST (R280): answered by CLUSTER_TEST_DONE. -/
def execClTest (mb : Mb) (cluster : Nat) (s : State) : Result :=
  request offOpr psm mb.val (fun _ s =>
    if 34 ≤ cluster then deny .badObject s
    else if (clusterOf s cluster).role = .retired then deny .badValue s
    else if s.maint.rotating.isSome then deny .busy s
    else match freeSpare s with
      | none => deny .busy s
      | some k => (none, beginStep cluster k (some mb) s)) s

end Sys2Proof.Machine
end

