-- ==== Sys2Proof/Machine/Egress.lean ====
section
/-! DEFINITION. Egress: transmissions (R209, R218 to R222), gates on the wire (R215 to R219), launches (R242 to R244), the spill engine
(R225, R226), quarantine (R256), links (R189, R432) and the verify process (R220). -/

namespace Sys2Proof.Machine

open Sys2Proof

/-! The medium -/

/-- ns of n bytes at the port rate, rounded up. -/
def airNs (s : State) (q n : Nat) : Nat := cdiv (8 * n) (speedGb s q)

/-- Whether an Ethernet port may send: a live device in a mode with traffic, the port up with its lanes (R306). -/
def sends (s : State) (q : Nat) : Bool :=
  live s && (s.glb.mode == .provision || s.glb.mode == .service || s.glb.mode == .maintenance)
  && adminUp s q && (portOf s q).link && lanesOn s q && !fusedQ s q

/-- Whether the medium is free of whole transmissions. -/
def mediumFree (s : State) (q : Nat) : Bool := decide ((portOf s q).busyUntil ≤ s.time.ticks) && (portOf s q).stopped.isNone

/-- Whether a class on the express MAC may cut into the preemptible transmission in progress (R220). -/
def mayCut (s : State) (q c : Nat) : Bool :=
  (portOf s q).cuttable.isSome && preemptOn s q && !preemptible s q c && decide ((portOf s q).expressUntil ≤ s.time.ticks)

/-- A transmission of ns begins: it follows a free medium or cuts into a preemptible one. -/
def occupy (q c ns : Nat) (s : State) : State :=
  let x := portOf s q
  let now := s.time.ticks
  if mediumFree s q then
    setPort q { x with busyUntil := now + ns, cuttable := if preemptible s q c then some c else none, expressUntil := now } s
  else
    let s := if x.stopped.isNone && decide (x.expressUntil < now) then countEv { group := 1, code := 5, inst := q } 1 s else s
    setPort q { x with expressUntil := now + ns, busyUntil := if x.stopped.isSome then x.busyUntil else x.busyUntil + ns } s

/-- The guard of R218 for a frame of class c whose last bit leaves after ns. -/
def gateAllows (s : State) (q c : Nat) (ns : Rat) : Bool :=
  (portOf s q).gates.getLsbD c
  && (if preemptible s q c then !(portOf s q).hold
      else match closesIn s q c with | none => true | some t => decide (ns ≤ (t : Rat)))

/-- R244: whether a non-express frame of class c that takes ns leaves the launch frame its instant. -/
def launchAllows (s : State) (q c : Nat) (ns : Nat) : Bool :=
  match (portOf s q).launchHeld, (portOf s q).mgmt with
  | true, m :: _ => (match m.launch with
    | some l => c == 7 || preemptible s q c || decide (netNs s + ns ≤ launchNs l)
    | none => true)
  | _, _ => true

/-! Transmissions -/

/-- A management frame starts, its time-stamp point at an instant; t_r of such a frame is not defined, so that its latency is a
free value. A parity error in its granules inverts its FCS (R255). -/
def sendMgmt (q : Nat) (m : MgmtFrame) (stamp : Stamp) (e : Errs) (s : State) : State :=
  if e.link then halt haltLinkRam s
  else
    let s := if m.released.isNone then shapeCharge (clsShaper q 6) m.ebytes s else s
    let good := e.data.isEmpty
    let s := emit (.frame q m.data (!good)) (occupy q 6 (airNs s q m.ebytes) s)
    if !good then
      judgeHead q 65 (popMgmt q Reason.cisternParity.code m
        (sump .cisternParity { q := q, tc := some 6, tr := s.time.ticks, granule := m.chain.head? } (looseError (granulesBad e m.chain) s)))
    else
      let v : Ev := { group := 1, code := 2, inst := q, tc := some 6 }
      let s := countEv { v with code := 3 } (m.data.length + 4) (countEv v 1 s)
      let s := match m.ident with | some i => pushStamp q i (txStamp s q stamp) s | none => s
      let (lat, s) := freeVal 32 s
      let s := sampleAt (s.time.now.shift (airNs s q (m.ebytes - 12) * 2 ^ 32))
        { kind := 1, tc := some 6, port := q, addr := m.chain.headD 0, latency := lat.toNat } s
      judgeHead q 65 (popMgmt q 0 m s)

/-- The time-stamp point of a transmission that starts now: after preamble and start frame delimiter (R235). -/
def stampPoint (s : State) (q : Nat) : Stamp := s.time.now.shift (64 * 2 ^ 32 / speedGb s q)

/-- The sampling REQ field of a frame (Table 14-8). -/
def Frame.req (f : Frame) (fid : Nat) : Nat := fid % 2 ^ 20 + f.place * 2 ^ 20

/-- A complete frame of an Ethernet port starts, its deadline checked (R171); a parity error inverts its FCS (R255). -/
def sendFrame (q fid : Nat) (f : Frame) (e : Errs) (s : State) : State :=
  if tooLate s f (8 * (f.ebytes - 12 : Rat) / speedGb s q) then discard .deadline fid s
  else if e.link then halt haltLinkRam s
  else
    let good := e.data.isEmpty
    let s := emit (.frame q f.outp (!good)) (occupy q f.tc (airNs s q f.ebytes) s)
    if good then
      let g : Seg := { chan := f.chan, tc := f.tc, tr := f.tr, req := f.req fid, granule := f.chain.headD 0 }
      removeFrame fid (frameSent q g (f.outp.length + 4) (airNs s q (f.ebytes - 12)) s)
    else discard .cisternParity fid (granuleError fid (granulesBad e f.chain) s)

/-- ns from the start of a cell to the end of the cell with a frame's LAST segment, at the least: 1,012 of its bytes to a cell. -/
def cellsNs (s : State) (q n : Nat) : Rat := cellNs (pattr s q 2) * cdiv n 1012

/-- A sealed frame given to the Wellhead: from its first granule in error on its bytes are sent as zeros (R255). -/
def placeFrame (q fid : Nat) (f : Frame) (e : Errs) (s : State) : State :=
  if tooLate s f (cellsNs s q f.outp.length) then discard .deadline fid s
  else if e.link then halt haltLinkRam s
  else
    let b := match e.data.min? with
      | none => f.outp
      | some i => f.outp.take (256 * i) ++ zeros (f.outp.length - 256 * i)
    let g : Seg :=
      { chan := f.chan, data := b, tc := f.tc, tr := f.tr, req := f.req fid, size := b.length, deadline := f.deadline, released := f.released
        granule := f.chain.headD 0 }
    let s := onTx (q - 48) (fun t => { t with segs := t.segs ++ [g] }) s
    if e.data.isEmpty then removeFrame fid s else discard .cisternParity fid (granuleError fid (granulesBad e f.chain) s)

/-- The earliest-released of two. -/
def earlier (a b : Option (Nat × Frame)) : Option (Nat × Frame) :=
  match a, b with
  | some x, some y => if y.2.released < x.2.released then some y else some x
  | some x, none => some x
  | none, y => y

/-- The earliest-released frame of a group on port q that may start now. -/
def candidate (s : State) (q g : Nat) (ok : Frame → Bool) : Option (Nat × Frame) :=
  s.traffic.frames.foldl (fun a p =>
    if p.2.egress = q ∧ tcGroup p.2.tc = g ∧ !p.2.shadow ∧ ordered s p.2 ∧ ok p.2 then earlier a (some p) else a) none

/-- The management frame that may start now: the head without a launch time, released, or late (R243). -/
def mgmtReady (s : State) (q : Nat) (ok : Nat → Nat → Bool) : Option MgmtFrame :=
  match (portOf s q).mgmt with
  | m :: _ => if (m.released.isSome || m.late) && m.launch.isNone && ok 6 m.ebytes then some m else none
  | [] => none

/-- Whether a management frame goes before a frame of the Assured group: a late launch frame starts as soon as it may (R243). -/
def mgmtFirst (m : MgmtFrame) (f : Frame) : Bool := m.late || m.released.any (fun n => decide (n < f.released))

/-- The choice of R209 on an Ethernet port. -/
def startNext (q : Nat) (e : Errs) (s : State) : State :=
  let ok (c n : Nat) : Bool :=
    (mediumFree s q || mayCut s q c) && gateAllows s q c (8 * (n - 12 : Rat) / speedGb s q) && launchAllows s q c (airNs s q n)
  let pick (g : Nat) : Option (Nat × Frame) := candidate s q g (fun f => ok f.tc f.ebytes)
  match pick 0 with
  | some (fid, f) => sendFrame q fid f e s
  | none => match pick 1, mgmtReady s q ok with
    | some (fid, f), some m => if mgmtFirst m f then sendMgmt q m (stampPoint s q) e s else sendFrame q fid f e s
    | some (fid, f), none => sendFrame q fid f e s
    | none, some m => sendMgmt q m (stampPoint s q) e s
    | none, none => match pick 2 with
      | some (fid, f) => sendFrame q fid f e s
      | none => s

/-- The next complete frame of a sealed port given to the Wellhead, which applies R209 and the gates as it fills bodies (R79, R218). -/
def placeNext (q : Nat) (e : Errs) (s : State) : State :=
  let pick (g : Nat) : Option (Nat × Frame) := candidate s q g (fun _ => true)
  match (pick 0).orElse (fun _ => (pick 1).orElse (fun _ => pick 2)) with
  | some (fid, f) => placeFrame q fid f e s
  | none => s

/-- Every complete frame of a sealed port given to the Wellhead. -/
def placeAll (q : Nat) : (fuel : Nat) → State → State
  | 0, s => s
  | fuel + 1, s => placeAll q fuel (placeNext q {} s)

/-- Whether a frame at the Wellhead can no longer end in time, with a cell that starts now (R171). -/
def segLate (s : State) (q : Nat) (g : Seg) : Bool :=
  match g.deadline with
  | none => false
  | some d => decide (d < (s.time.ticks : Rat) + cellsNs s q g.data.length)

/-- The guard of R218 on a sealed port: a frame starts where it can end before the next closing of its gate, and a segment of a frame
begun is placed where its cell ends before it. -/
def segGate (s : State) (q : Nat) (g : Seg) : Bool :=
  (portOf s q).gates.getLsbD g.tc
  && (match closesIn s q g.tc with
    | none => true
    | some t => decide (cellsNs s q (if g.opened then 1 else g.data.length) ≤ (t : Rat)))

/-- A cell slot (R85): frames that have become complete are taken, those that would be late are discarded, one cell is sent. -/
def cellSlot (p : Nat) (s : State) : State :=
  let q := 48 + p
  let s := if p < 48 then gateTurn q s else s
  let s := if p < 48 then dropSegs p .deadline (segLate s q) (placeAll q s.traffic.frames.length s) else s
  sendCell p (segGate s q) s

def execCellTransmit (wport : WPort) (s : State) : Result :=
  .next (
    let p := wport.val
    let t := (whOf s p).tx
    if !(sending s p && decide (t.seq < 2 ^ 40)) then s
    else if !linkGood s p false (oddEpoch t.epoch) then halt haltKeyState s
    else cellSlot p s)

def execTransmitStart (q : Port) (errs : Errs) (s : State) : Result :=
  .next (
    let q := q.val
    if sealedQ s q then (if adminUp s q && sending s (q - 48) && lanesOn s q then placeNext q errs s else s)
    else if sends s q then startNext q errs (gateTurn q s) else s)

/-! Launch -/

/-- Whether a held launch frame is late (R243): TC6's gate is closed at L, the frame would still be in transmission at its next
closing, or the medium stays busy with an express frame past the tolerance; wait: ns until the medium is free. -/
def launchIsLate (s : State) (q : Nat) (m : MgmtFrame) (at_ wait : Nat) : Bool :=
  let now := netNs s
  let last : Rat := 8 * (m.ebytes - 12 : Rat) / speedGb s q
  !openAt s q 6 at_ || (closesFrom s q 6 at_).any (fun t => decide ((t : Rat) < (now - at_ : Nat) + last))
  || decide (at_ + pattr s q 0x0E < now + wait)

/-- The held launch frame's instant (R242): it starts, cuts into a preemptible transmission, waits for an express one within its
tolerance, or is late (R243). Its time-stamp point passes at the ball in [L, L + 2 ns). -/
def launch (q : Nat) (e : Errs) (s : State) : State :=
  let x := portOf s q
  match x.mgmt with
  | [] => s
  | m :: _ => match m.launch with
    | none => s
    | some l =>
      let at_ := launchNs l
      let now := netNs s
      let free := mediumFree s q || (x.cuttable.isSome && preemptOn s q && decide (x.expressUntil ≤ s.time.ticks))
      let wait := if free then 0 else (if x.cuttable.isSome then x.expressUntil else x.busyUntil) - s.time.ticks
      if !x.launchHeld || !sends s q || decide (now + 1 < at_) then s
      else if launchIsLate s q m at_ wait then judgeHead q 65 (lateLaunch q m s)
      else if !free then s
      else
        let (d, s1) := freeVal 33 s
        let ball : Stamp := { sec := l.1, sub := l.2 * 2 ^ 32 }
        let stamp := if now ≤ at_ + 1 then ball.shift ((d.toNat : Int) - ((portCorr s q).1 * 2 ^ 32 / 10 : Nat)) else stampPoint s q
        sendMgmt q m stamp e (countEv { group := 1, code := 6, inst := q } 1 s1)

def execLaunch (q : Met Port Errs) (s : State) : Result :=
  .next (launch q.it.val q.met (if live s then gateTurn q.it.val s else s))

/-! Gates on the wire -/

/-- An entry of the list begins. -/
def execGateEntry (q : Port) (s : State) : Result := .next (if live s then gateTurn q.val s else s)

/-- A pending commit whose S has come swaps the banks (R215). -/
def execGateSwap (q : Port) (s : State) : Result :=
  .next (if live s && (gateOf s q.val).pending.any (fun t => decide (t ≤ netNs s)) then gateTurn q.val s else s)

/-! The spill engine -/

/-- The address of the i-th line of the SPILL range (Table 9-3). -/
def spillLine (i : Nat) : Nat := if i < 2 ^ 28 then 0x1400000000 + 64 * i else 0x1A00000000 + 64 * (i - 2 ^ 28)

/-- Lines written with a frame's granules, whose bytes beyond its end are zeros (R252): a fabric path under key index 4. -/
def spillPut : List Nat → Bytes → State → State
  | [], _, s => s
  | i :: r, b, s => spillPut r (b.drop 64) (writeLine 4 (spillLine i) (b.take 64 ++ zeros (64 - b.length)) s)

/-- A spilling frame is written to its port's spill area and frees its granules. Which lines it takes there is not stated (log 2). -/
def spillOut (fid : Nat) (f : Frame) (s : State) : State :=
  let n := f.data.length
  let (l, s) := pick 402653184 (cdiv n 64) (s.traffic.frames.map (·.2.lines)).flatten s
  putFrame fid { f with stage := .spilled, chain := [], lines := l } (countFix 60 n (spillPut l f.data s))

def execSpillWrite (fid : Nat) (errs : Errs) (s : State) : Result :=
  .next (match frameOf s fid with
    | none => s
    | some f =>
      if !live s || f.stage != .spilling then s
      else if errs.link then halt haltLinkRam s
      else if !errs.data.isEmpty then discard .cisternParity fid (granuleError fid (granulesBad errs f.chain) s)
      else withEcc errs.ecc (spillOut fid f) s)

/-- Bytes of a channel and direction in the Cistern. -/
def cisternBytes (s : State) (c : Nat) (d : Dir) : Nat :=
  sumFrames s (fun f => f.chan == c && f.dir == d && !f.shadow && inCistern f) (fun f => f.data.length)

/-- A spilled frame comes back, as its lines are read, into shared granules. -/
def spillBack (fid : Nat) (f : Frame) (s : State) : State :=
  let n := f.data.length
  let b := ((f.lines.map (fun i => memRead s 4 (spillLine i) 64)).flatten).take n
  let e : Ev := { group := 3, code := 3, inst := f.egress, tc := some f.tc }
  let s := countEv e 1 (countFix 61 n (f.lines.foldl (fun s i => countRead 4 (spillLine i) 64 s) s))
  let (chain, s) := takeGranules n s
  putFrame fid { f with stage := .queued, spill := false, shared := true, data := b, chain := chain, lines := [] } s

/-- Returns in queue order while the channel holds less than 32 KiB in the Cistern and granules are free (R226). -/
def spillReturns (c : Nat) (d : Dir) : Nat → State → State
  | 0, s => s
  | fuel + 1, s =>
    match s.traffic.frames.find? (fun p => p.2.chan == c && p.2.dir == d && p.2.spill) with
    | some (fid, f) =>
      if f.stage = .spilled ∧ cisternBytes s c d < 32768 ∧ granules f ≤ sharedFree s then spillReturns c d fuel (spillBack fid f s) else s
    | none => s

def execSpillReturn (chan : Nat) (dir : Met Dir Ecc) (s : State) : Result :=
  .next (if live s then withEcc dir.met (spillReturns chan dir.it 32768) s else s)

/-! Quarantine (R256) -/

def execQuarantineTest (granule : Nat) (pass : Bool) (s : State) : Result :=
  .next (
    if !live s || !s.mem.quarantine.contains granule then s
    else
      let s := onMem (fun m => { m with quarantine := m.quarantine.filter (fun g => g != granule) }) s
      if pass then s
      else
        settle s (quarantineLimit (onMem (fun m => { m with heldGranules := m.heldGranules ++ [granule] }) s)))

/-! Links -/

/-- A link comes up: the port up in a mode with traffic, its lanes on (R189). -/
def execLinkUp (q : Port) (s : State) : Result :=
  .next (
    let q := q.val
    if live s && (s.glb.mode == .provision || s.glb.mode == .service || s.glb.mode == .maintenance) && adminUp s q && lanesOn s q
        && !fusedQ s q then
      setPort q { portOf s q with link := true } s
    else s)

/-- A link goes down (R432): PORT_OFF where a domain of the port is not ON, LINK_DOWN otherwise. -/
def execLinkDown (q : Port) (s : State) : Result :=
  .next (
    let q := q.val
    if asleep s then s
    else linkLost q (if portPowered s q then .linkDown else .portOff) s)

/-- The verify process ends (R220). Without operational preemption no MAC hold is in force (R219). -/
def execPreemptVerify (q : Port) (ok : Bool) (s : State) : Result :=
  .next (
    let q := q.val
    let x := portOf s q
    if live s && !sealedQ s q && pattr s q 5 != 0 && x.link then
      regulate q (setPort q { x with preemptOper := ok, hold := x.hold && ok } s)
    else s)

end Sys2Proof.Machine
end

