-- ==== Sys2Proof/Machine/Memory.lean ====
section
/-! DEFINITION. Masters' accesses with ECC (R267, R268), the access checker's hold (R272 to R274), IME sweeps (R263 to R265) and the
data port (R371 to R374). -/

namespace Sys2Proof.Machine

open Sys2Proof

/-! Accesses -/

/-- Whether a master can issue the access (R270): 1 to 256 bytes within a 256-byte block of device address. -/
def wellCut (a : Access) : Bool :=
  let n := match a.write with | some d => d.length | none => a.len
  decide (a.master ≤ 6 ∧ 1 ≤ n ∧ a.addr % 256 + n ≤ 256 ∧ a.addr < 2 ^ 40)

/-- The colour an access carries: DBG carries 0 (R271). -/
def accessColour (a : Access) : Nat := if a.master = mDbg then 0 else a.colour

/-- An access checked, and made where it passes. -/
def runAccess (a : Access) (s : State) : State :=
  match a.write with
  | some d => (masterWrite a.master (accessColour a) a.world a.addr d s).2
  | none =>
    let ((d, _), s) := masterRead a.master (accessColour a) a.world a.addr a.len s
    emit (.master a.master d) s

/-- Whether a hold keeps this access: CP reaches control RAM at all times (R273). -/
def heldBack (s : State) (a : Access) : Bool := holding s && !(a.master == mCp && isCtl a.addr)

/-- Whether a master issues nothing: DMA and lookaside after a halt (Table 10-5), DBG while the debug TAP is closed, which it is outside
lifecycle DEBUG (R310). -/
def closedMaster (s : State) (m : Nat) : Bool :=
  (halted s && (m == mDma || m == mLa)) || (m == mDbg && s.glb.lifecycle != .debug)

def execMasterAccess (acc : Access) (ecc : Ecc) (s : State) : Result :=
  .next (
    if asleep s || !wellCut acc || closedMaster s acc.master then s
    else if heldBack s acc then keepWaiting (.access acc ecc) s
    else withEcc ecc (runAccess acc) s)

/-! The data port -/

/-- Bytes merged over old ones where their byte enable is set. -/
def merge (old : Bytes) (new : MaskedBytes) : Bytes := List.zipWith (fun o n => n.getD o) old new

/-- The bytes that are all enabled. -/
def allOn (d : MaskedBytes) : Option Bytes := d.foldr (fun x a => match x, a with | some b, some l => some (b :: l) | _, _ => none) (some [])

/-- A line's part written with byte enables: nothing where none is set, a merge where some are not (R260, R373). -/
def maskedLine (k a : Nat) (d : MaskedBytes) (s : State) : State :=
  if d.all (·.isNone) then s
  else match allOn d with
    | some b => memWrite k a b s
    | none =>
      let s1 := if isRes a && decide (64 ≤ d.length) then countRead k a 1 s else s
      memWrite k a (merge (memRead s k a d.length) d) s1

/-- Data with byte enables cut at every multiple of w of the address. -/
def maskedCuts (w : Nat) : (fuel a : Nat) → MaskedBytes → List (Nat × MaskedBytes)
  | 0, _, _ => []
  | fuel + 1, a, l =>
    if l.isEmpty then [] else (a, l.take (w - a % w)) :: maskedCuts w fuel (a + (w - a % w)) (l.drop (w - a % w))

/-- The cause of a data-port piece's failure; an address beyond 2^40 − 1 is UNMAPPED. -/
def dpCause (s : State) (colour a : Nat) (write : Bool) : Nat :=
  if 2 ^ 40 ≤ a then causeUnmapped else checkCause s mDp colour a write

/-- A failed piece sets ERR with its cause and address where ERR was clear (R373). -/
def dpFail (colour world a : Nat) (write : Bool) (c : Nat) (s : State) : State :=
  onDp (fun d => if d.err then d else { d with err := true, cause := c, errAddr := a % 2 ^ 40 }) (mpuFault mDp colour world a write c s)

/-- The counts of a piece, as of every master access. -/
def dpCount (colour world a : Nat) (write : Bool) (c : Nat) (s : State) : State :=
  let e : Ev := { group := 6, code := b01 write, world := some world, master := some mDp, addr := some (a % 2 ^ 40) }
  sampleMem { kind := 3, reason := c, master := some mDp, world := some world, addr := a % 2 ^ 40, colour := colour } (countEv e 1 s)

/-- One piece read: zeros once ERR is set, without a check. -/
def dpReadPiece (colour world a n : Nat) (s : State) : Bytes × State :=
  if s.dp.err then (zeros n, s)
  else
    let c := dpCause s colour a false
    if c = 0 then (memRead s colour a n, dpCount colour world a false 0 (countRead colour a n s))
    else (zeros n, dpCount colour world a false c (dpFail colour world a false c s))

/-- One piece written: dropped once ERR is set. -/
def dpWritePiece (colour world a : Nat) (d : MaskedBytes) (s : State) : State :=
  if s.dp.err then s
  else
    let c := dpCause s colour a true
    if c = 0 then
      dpCount colour world a true 0 ((maskedCuts 64 (d.length / 64 + 2) a d).foldl (fun s p => maskedLine colour p.1 p.2 s) s)
    else dpCount colour world a true c (dpFail colour world a true c s)

/-- A BAR2 read: its pieces in ascending order, then its completion. -/
def dpRead (a n colour world : Nat) (s : State) : State :=
  let r := (cuts (n / 256 + 2) a n).foldl (fun (x : Bytes × State) p =>
    let (d, s) := dpReadPiece colour world p.1 p.2 x.2
    (x.1 ++ d, s)) ([], s)
  emit (.read r.1) r.2

/-- A BAR2 write: its pieces in ascending order. -/
def dpWrite (a : Nat) (d : MaskedBytes) (colour world : Nat) (s : State) : State :=
  (maskedCuts 256 (d.length / 256 + 2) a d).foldl (fun s p => dpWritePiece colour world p.1 p.2 s) s

/-- The world of the claiming session (R371). -/
def dpWorld (s : State) : Nat :=
  match s.dp.claim with
  | none => World.internal.code
  | some (m, _) => match (mbxOf s m).session with | some w => w.world.code | none => World.internal.code

/-- A BAR2 request of n bytes taken: its device address, with DP_ADDR advanced in auto-increment mode (R372). -/
def dpTake (offset n : Nat) (s : State) : Nat × State :=
  let s := countEv { group := 7, code := 3, world := some (dpWorld s) } 1 s
  if s.dp.inc then (s.dp.addr, onDp (fun d => { d with addr := (d.addr + n) % 2 ^ 40 }) s) else (s.dp.addr + offset, s)

/-- A BAR2 read of PF0 (1 MiB). -/
def execDpWindowRead (offset : Nat) (len : Met Nat Ecc) (s : State) : Result :=
  .next (
    let n := len.it
    if asleep s || !pcieUp s || decide (2 ^ 20 < offset + n) then s
    else if !s.dp.en then emit (.read (zeros n)) s
    else
      let c := s.dp.colour
      let w := dpWorld s
      let (a, s) := dpTake offset n s
      if holding s then keepWaiting (.dpRead a n c w len.met) s else withEcc len.met (dpRead a n c w) s)

/-- A BAR2 write of PF0. -/
def execDpWindowWrite (offset : Nat) (data : Met MaskedBytes Ecc) (s : State) : Result :=
  .next (
    let d := data.it
    if asleep s || !pcieUp s || decide (2 ^ 20 < offset + d.length) || !s.dp.en then s
    else
      let c := s.dp.colour
      let w := dpWorld s
      let (a, s) := dpTake offset d.length s
      if holding s then keepWaiting (.dpWrite a d c w data.met) s
      else withEcc data.met (dpWrite a d c w) s)

/-! Holds of the checker -/

/-- MPU_CTRL.EN written 0 by a PCIe function, or Gydom's own hold (R272, R273). -/
def execMpuHold (by_ : Option Pf) (s : State) : Result :=
  .next (
    let begun (m : Mem) : Option Nat := if m.mpuEn && !m.gydomHold then some s.time.ticks else m.holdAt
    match by_ with
    | some pf => if written pf s then onMem (fun m => { m with mpuEn := false, holdAt := begun m }) s else s
    | none => if live s then onMem (fun m => { m with gydomHold := true, holdAt := begun m }) s else s)

/-- Every access already checked has completed (R272). -/
def execMpuDrained (s : State) : Result := .next (if !asleep s && holding s then onMem (fun m => { m with held := true }) s else s)

/-- Whether two regions share an address that both cover in enabled sub-regions; sub-regions are multiples of 512 bytes, so that their
starts decide. -/
def overlaps (x y : Region) : Bool :=
  let starts (r : Region) : List Nat := (upFrom 0 8).map (fun i => r.base + i * 2 ^ (r.size - 3))
  (starts x ++ starts y).any (fun a => x.covers a && y.covers a)

/-- The pairs of enabled regions of one window, lowest first. -/
def regionPairs : List (Nat × Nat) :=
  ((upFrom 0 32).map (fun a => (upFrom (a + 1) (31 - a)).map (fun b => (a, b)))).flatten.filter (fun p => decide (p.1 < 12) == decide (p.2 < 12))

def findOverlap (s : State) : Option (Nat × Nat) := regionPairs.find? (fun p => overlaps (region s p.1) (region s p.2))

/-- What a hold kept, served. -/
def serve (w : Waiter) (s : State) : State :=
  match w with
  | .access a e => if closedMaster s a.master then s else withEcc e (runAccess a) s
  | .dpRead a n c v e => withEcc e (dpRead a n c v) s
  | .dpWrite a d c v e => withEcc e (dpWrite a d c v) s
  | .record b => if closedMaster s mDma then s else ringRecord b s
  | .descriptors r => txFlush r 4096 s

/-- The end of a hold: what waited is served in arrival order (R272). -/
def endHold (s : State) : State :=
  let one (s : State) (w : Nat × Waiter) : State := serve w.2 (onMem (fun m => { m with waited := s.time.ticks - w.1 }) s)
  onMem (fun m => { m with waited := 0 })
    (s.mem.waiting.foldl one (onMem (fun m => { m with held := false, holdAt := none, waiting := [] }) s))

/-- Whether a region covers part of the host window, which regions 4 to 11 never do (R269). -/
def inWindow (r : Region) : Bool := r.enabled && decide (r.base < 0x1400000000 ∧ 0x1000000000 < r.base + 2 ^ r.size)

/-- Gydom's update of a region, of 4 to 11 and outside the host window, while accesses are held and drained (R273, Table 9-15). -/
def updateRegion (x : RegionSet) (s : State) : State :=
  let r : Region := { lo := x.lo &&& 0xFFFFF000, hi := x.hi &&& 0xFF, attr := x.attr &&& 0xEFDFFFFF }
  if s.mem.held && decide (4 ≤ x.n ∧ x.n < 12) && !inWindow r then onMem (fun m => { m with regions := tset {} m.regions x.n r }) s else s

/-- The checker enabled by one of its two holders: the overlap check, then the release where the other holds nothing (R272, R273). -/
def releaseHold (s : State) : State :=
  let s := onMem (fun m => { m with overlap := findOverlap s }) s
  if holding s then s else endHold s

/-- MPU_CTRL.EN written 1, or the end of Gydom's own hold with its updates. -/
def execMpuRelease (by_ : Releaser) (s : State) : Result :=
  .next (
    match by_ with
    | .host pf => if written pf s then releaseHold (onMem (fun m => { m with mpuEn := true }) s) else s
    | .gydom l =>
      if live s && s.mem.gydomHold then
        releaseHold (onMem (fun m => { m with gydomHold := false }) (l.foldl (fun s x => updateRegion x s) s))
      else s)

/-- A hold that has lasted 200 µs, once (R274). -/
def execMpuHoldLong (s : State) : Result :=
  .next (
    match s.mem.holdAt with
    | some t =>
      if !asleep s && holding s && passed s t 200000 then
        raise evMpuFault (mpuData 0 0 0 false causeHoldLong) (onMem (fun m => { m with holdLong := true, holdAt := none }) s)
      else s
    | none => s)

/-! IME sweeps -/

/-- IME_SWEEP_REQ with GO, which has no effect for indices 0 to 7; Gydom may set the pending bit of any index (R263). -/
def execImeSweepRequest (by_ : Option Pf) (index : Nat) (s : State) : Result :=
  .next (
    let k := index % 64
    match by_ with
    | some pf =>
      if !written pf s then s
      else
        let s := onMem (fun m => { m with sweepIndex := k }) s
        if 8 ≤ k then pendSweep k s else s
    | none => if live s && decide (1 ≤ k) then pendSweep k s else s)

/-- The enabled sub-regions of a region, as ranges of addresses with their end. -/
def Region.parts (r : Region) : List (Nat × Nat) :=
  if r.enabled then
    ((upFrom 0 8).filter (fun i => !r.attr.getLsbD (6 + i))).map (fun i =>
      (r.base + i * 2 ^ (r.size - 3), r.base + (i + 1) * 2 ^ (r.size - 3)))
  else []

/-- The ranges of index k at the start of its sweep (R264). -/
def sweepRanges (s : State) (k : Nat) : List (Nat × Nat) :=
  if k = 3 then [(0x1800000000, 0x1900000000)]
  else if k = 4 then [(0x1400000000, 0x1800000000), (0x1A00000000, 0x1C00000000)]
  else ((upFrom 0 32).filter (fun n => (region s n).tag == k)).foldl (fun l n => l ++ (region s n).parts) []

/-- The lowest line of the ranges at or above an address. -/
def nextLine (l : List (Nat × Nat)) (a : Nat) : Option Nat :=
  l.foldl (fun m r =>
    if a < r.2 then some (match m with | none => max a r.1 | some b => min b (max a r.1)) else m) none

/-- Whether the renewal of a generation of index k waits for the end of a held entropy failure; no sweep can target it before. -/
def renewing (s : State) (k : Nat) : Bool :=
  s.keys.deferred.any (fun d => match d with | .imeKey i _ => i == k | _ => false)

def execImeSweepStart (s : State) : Result :=
  .next (
    if asleep s || s.mem.sweep.isSome then s
    else match (upFrom 1 63).find? (fun k => s.mem.pendingSweep.getLsbD k && !renewing s k) with
      | none => s
      | some k =>
        let l := sweepRanges s k
        let x := imeKey s k
        onMem (fun m => { m with
          pendingSweep := m.pendingSweep &&& ~~~((1 : W64) <<< k)
          imeK := tset {} m.imeK k { x with wcnt := 0 }
          sweep := some { index := k, ranges := l, ptr := (nextLine l 0).getD 0, target := !x.gen } }) s)

/-- A line read under G_k and written back under the target generation; the sweeper's own write does not count on the counter. -/
def resealLine (w : Sweep) (a : Nat) (s : State) : State :=
  let k := w.index
  let b := memRead s k a 64
  let n := 2 * k + b01 w.target
  let s := putLine (lineVal (tget {} s.keys.ime n)) (a / 64) b (onMem (fun m => { m with used := n :: imeSlot s k a :: m.used }) s)
  let e : Ev := { group := 6, code := 3 }
  countEv { e with code := 4 } 1 (countFix 59 1 (countEv e 1 (countFix 58 1 s)))

/-- The sweep pointer moved past a line. -/
def passLine (w : Sweep) (a : Nat) (s : State) : State :=
  onMem (fun m => { m with sweep := some { w with ptr := (nextLine w.ranges (a + 64)).getD (a + 64) } }) s

/-- The counts of an access by master SWEEP. -/
def sweepCount (w : Sweep) (a c : Nat) (write : Bool) (s : State) : State :=
  let e : Ev := { group := 6, code := b01 write, world := some 3, master := some mSweep, addr := some a }
  sampleMem { kind := 3, reason := c, master := some mSweep, world := some 3, addr := a, colour := w.index } (countEv e 1 s)

/-- One line of a sweep: a fabric access for indices 3 and 4, otherwise checked as master SWEEP (R268). -/
def sweepLine (w : Sweep) (a : Nat) (s : State) : State :=
  if w.index = 3 ∨ w.index = 4 then passLine w a (resealLine w a s)
  else match checkCause s mSweep w.index a false with
    | 0 => passLine w a (sweepCount w a 0 true (sweepCount w a 0 false (if isRes a then resealLine w a s else s)))
    | c => passLine w a (sweepCount w a c false (mpuFault mSweep w.index 3 a false c s))

/-- The next line of the sweep in progress; a hold keeps back an access that is checked (R272). -/
def execImeSweepLine (ecc : Ecc) (s : State) : Result :=
  .next (match s.mem.sweep with
    | none => s
    | some w => match nextLine w.ranges w.ptr with
      | none => s
      | some a => if asleep s || (holding s && !(w.index == 3 || w.index == 4)) then s else withEcc ecc (sweepLine w a) s)

/-- A generation destroyed and generated afresh (R145); while an entropy failure is held only its destruction is done (R162). -/
def renewIme (k : Nat) (g : Bool) (s : State) : State :=
  if s.keys.entropyHeld then
    defer (.imeKey k g) (onKeys (fun x => { x with ime := tset {} x.ime (2 * k + b01 g) {} }) s)
  else newImeKey k g s

/-- The end of a sweep (R264, R145). -/
def execImeSweepDone (s : State) : Result :=
  .next (match s.mem.sweep with
    | none => s
    | some w =>
      if asleep s || (nextLine w.ranges w.ptr).isSome then s
      else
        let k := w.index
        let s := onMem (fun m => { m with sweep := none, imeK := tset {} m.imeK k { imeKey s k with gen := w.target } }) s
        renewIme k (!w.target) (raise evSweepDone (leBytes 1 k) s))

def execImeCeClear (pf : Pf) (s : State) : Result := .next (if written pf s then onMem (fun m => { m with ce0 := 0, ce1 := 0 }) s else s)

end Sys2Proof.Machine
end

