-- ==== Sys2Proof/Machine/Entropy.lean ====
section
/-! DEFINITION. Randomness and re-masking (R120 to R122, R161 to R164), the end of zeroization (R167) and the control cores' lockstep
(R275). -/

namespace Sys2Proof.Machine

open Sys2Proof

/-- The key store reports ZEROIZED (R167, R343): a log record, EV_ZEROIZE and the halt; in reset and on the cells the record alone. -/
def execZeroizeComplete (s : State) : Result :=
  .next (match s.keys.line with
    | none => s
    | some src =>
      let t := stpRecord noSource kindZeroized src (onKeys (fun k => { k with line := none }) s)
      if asleep s then t else halt haltZeroize (raise evZeroize (leBytes 1 src) t))

def execLockstepMismatch (s : State) : Result := .next (halt haltLockstep s)

/-- A mask generator takes its reseed of every 1 ms from the DRBG, also without fresh entropy under HOLD (R120, R122). DESIGN CHOICE
(log 104): the reseeds are staggered in that no two clusters take one in the same tick. -/
def execMaskReseed (cluster : ClusterNo) (s : State) : Result :=
  .next (
    let x := clusterOf s cluster.val
    let taken := s.pmu.clusters.any (fun c => c.2.reseeded == s.time.ticks && decide (c.1 < 34))
    if asleep s || taken || decide (s.time.ticks < x.reseeded + 1000000) then s
    else
      let (v, s) := draw 256 s
      setCluster cluster.val { clusterOf s cluster.val with reseeded := s.time.ticks, maskSeed := v, maskWords := 0 } s)

/-- The DRBG takes fresh entropy; none comes while a failure is held. -/
def execDrbgReseed (s : State) : Result :=
  .next (
    if asleep s || s.keys.entropyHeld then s
    else
      let (_, s) := draw 384 s
      onKeys (fun k => { k with reseeded := s.time.ticks }) s)

/-- An entropy failure, or a reseed more than 2 ms late (R122): HALT, or a held DEGRADE fault. -/
def execEntropyFail (s : State) : Result :=
  .next (
    if asleep s || s.keys.entropyHeld then s
    else if attr s clsDev 0 3 = 0 then halt haltEntropy (onKeys (fun k => { k with entropyBad := true }) s)
    else if halted s then logFault 2 13 0 (countFault 42 s)
    else settle s (degrade 13 0 8 (onKeys (fun k => { k with entropyBad := true, entropyHeld := true, heldSince := s.time.ticks }) s)))

/-- entropy_hold_ms has passed without recovery. -/
def execEntropyHoldExpire (s : State) : Result :=
  .next (if live s && s.keys.entropyHeld && passed s s.keys.heldSince (attr s clsDev 0 4 * 1000000) then halt haltEntropy s else s)

/-- What was put off while a failure was held (R162), where it is still wanted. -/
def resume (d : Deferred) (s : State) : State :=
  match d with
  | .session p => if sealedQ s (48 + p) && adminUp s (48 + p) && !sending s p then (portUp (48 + p) s).2 else s
  | .mate => if paired s then startMate s else s
  | .exchange => if paired s && s.pair.linkUp && !pairKeyed s then beginExchange s else s
  | .imeKey k g => newImeKey k g s

/-- The health tests pass again within the hold: its degrade condition clears, and what was put off is done. -/
def execEntropyRecover (s : State) : Result :=
  .next (
    if live s && s.keys.entropyHeld then
      let late := s.keys.deferred
      let s1 := onMaint (fun m => { m with degrade := m.degrade &&& 7 })
        (onKeys (fun k => { k with entropyBad := false, entropyHeld := false, deferred := [], reseeded := s.time.ticks }) s)
      settle s (late.foldl (fun s d => resume d s) s1)
    else s)

/-! The re-mask sweeper (R163) -/

/-- A re-mask write counted for its bank. -/
def countRemask (bank : Nat) (s : State) : State := countEv { group := 5, code := 1, inst := bank } 1 s

/-- A line re-shared with fresh randomness; none where a share fails its CRC. A line of zeros stays as it is. -/
def reshare (l : Line) (s : State) : Option Line × State :=
  let (r, s) := draw 512 s
  if l = {} then (some l, s) else if lineOk l then (some (remask l r), s) else (none, s)

/-- One visit of the sweeper: an error halts, or makes a general slot INVALID (R165). -/
def remaskAt (space : KeySpace) (i : Nat) (s : State) : State :=
  match space with
  | .chan => match reshare (kslotOf s i).line s with
    | (some l, s) => countRemask (slotBank i) (putK i { kslotOf s i with line := l } s)
    | (none, s) => halt haltKeyState s
  | .general => match reshare (gslotOf s i).line s with
    | (some l, s) => countRemask (i % 16) (putG i { gslotOf s i with line := l } s)
    | (none, s) => (readG i s).2
  | .ime => match reshare (tget {} s.keys.ime i) s with
    | (some l, s) => countRemask (i % 16) (onKeys (fun k => { k with ime := tset {} k.ime i l }) s)
    | (none, s) => halt haltKeyState s
  | .internal => match reshare (tget {} s.keys.internal i) s with
    | (some l, s) => countRemask (i % 16) (onKeys (fun k => { k with internal := tset {} k.internal i l }) s)
    | (none, s) => halt haltKeyState s

/-- How many lines a space has: channel slots, general slots, two generations of 64 indices, internal handles. -/
def spaceSize : KeySpace → Nat
  | .chan => 65536 | .general => 1024 | .ime => 128 | .internal => linkBase + 16 * 49

def execRemaskLine (space : KeySpace) (index : Nat) (s : State) : Result :=
  .next (if asleep s || decide (spaceSize space ≤ index) then s else remaskAt space index s)

/-! The DRK banks (R164) -/

/-- A bank of a root with fresh shares. -/
def freshBank (b : Bank) (r : Key) : Bank := { s0 := b.s0 ^^^ r, s1 := b.s1 ^^^ r, check := b.check }

/-- The DRK re-masked once per second into the other bank, which is verified before the selector flips; a bank being written when the
destruction line is driven stays cleared (R168). -/
def execDrkRemask (s : State) : Result :=
  .next (
    if asleep s || lineDriven s || !passed s s.keys.drkAt (10 ^ 9) then s
    else match activeBank s with
      | none => s
      | some b =>
        let (r, s) := draw 256 s
        let n := freshBank b r
        let s := onKeys (fun k => { k with drkAt := s.time.ticks }) s
        let good := drkCheck n.drk == n.check
        onStp (fun p =>
          if p.bankSelB then { p with bankA := some n, bankSelB := !good } else { p with bankB := some n, bankSelB := good }) s)

end Sys2Proof.Machine
end

