-- ==== Sys2Proof/Machine/Lookaside.lean ====
section
/-! DEFINITION. The lookaside engine (R124 to R133): descriptors fetched and checked (Table 4-11), run in chunks, completed. -/

namespace Sys2Proof.Machine

open Sys2Proof

def laOf (s : State) (n : Nat) : LaQ := tget {} s.la n
def setLa (n : Nat) (q : LaQ) (s : State) : State := { s with la := tset {} s.la n q }

/-- Q0 carries world OPERATOR, Q1 INTERNAL (R124). -/
def laWorld (n : Nat) : World := if n = 0 then .operator else .internal

/-- LA_Qn_DESC_PROD written by PF0; Q1 is Gydom's. -/
def execLaDescProdWrite (pf : Pf) (queue : LaNo) (value : W32) (s : State) : Result :=
  .next (if written pf s && queue.val == 0 then setLa 0 { laOf s 0 with descProd := value.toNat % 4096 } s else s)

/-! The descriptor (Table 4-9) -/

def LaWork.op (w : LaWork) : Nat := leAt w.desc 0 2
def LaWork.flag (w : LaWork) (i : Nat) : Bool := bit (leAt w.desc 2 2) i
def LaWork.first (w : LaWork) : Bool := w.flag 0
def LaWork.last (w : LaWork) : Bool := w.flag 1
def LaWork.ctxIn (w : LaWork) : Bool := w.flag 2
def LaWork.ctxOut (w : LaWork) : Bool := w.flag 3
def LaWork.ctxClear (w : LaWork) : Bool := w.flag 4
def LaWork.irq (w : LaWork) : Bool := w.flag 5
def LaWork.gslot (w : LaWork) : Nat := leAt w.desc 4 2
def LaWork.colour (w : LaWork) : Nat := leAt w.desc 6 1
def LaWork.textLen (w : LaWork) : Nat := leAt w.desc 8 4
def LaWork.aadLen (w : LaWork) : Nat := leAt w.desc 12 2
def LaWork.src (w : LaWork) : Nat := leAt w.desc 16 8
def LaWork.dst (w : LaWork) : Nat := leAt w.desc 24 8
def LaWork.ctx (w : LaWork) : Nat := leAt w.desc 32 8
def LaWork.user (w : LaWork) : Bytes := bsub w.desc 52 4
def LaWork.decrypt (w : LaWork) : Bool := w.op == 2

/-- Check 1: OP, reserved fields, the GSLOT's range, and the flag combinations of R130. -/
def LaWork.formOk (w : LaWork) : Bool :=
  (w.op == 1 || w.op == 2) && decide (leAt w.desc 2 2 < 64) && decide (w.gslot < 1024) && decide (w.colour < 64)
  && allZero (bsub w.desc 7 1) && allZero (bsub w.desc 14 2) && allZero (bsub w.desc 56 8)
  && (w.first || w.ctxIn) && (w.last || w.ctxOut) && (!w.decrypt || (w.first && w.last))

/-- Check 2, with the text of the earlier parts. -/
def LaWork.lengthOk (w : LaWork) (before : Nat) : Bool :=
  decide (w.textLen ≤ 65536) && decide (w.aadLen ≤ 2048) && (w.first || w.aadLen == 0) && (w.last || w.textLen % 16 == 0)
  && decide (before + w.textLen ≤ 2 ^ 36 - 32)

/-! Context records (Tables 4-12 and 4-13) -/

/-- A record presented with CTX_IN: its clear form where it opens, and whether it came in clear. -/
structure CtxIn where
  clear : Bool
  body : Option Bytes

/-- A record of 96 bytes read with CTX_IN; none where its FORMAT is unknown. -/
def openCtx (b : Bytes) (key : NatList) : Option CtxIn :=
  let f := leAt b 0 2
  if f = 0x3216 then some { clear := true, body := some (b.take 64) }
  else if f = 0x3217 then
    let (x, pass) := gcmDec key (octets (bsub b 4 12)) (octets (b.take 4)) (octets (bsub b 16 60)) (octets (bsub b 76 16))
    some { clear := false, body := if pass then some (b.take 4 ++ ofOctets x) else none }
  else none

/-- The clear form of a descriptor's context. -/
def clearCtx (w : LaWork) (count : Nat) : Bytes :=
  leBytes 2 0x3216 ++ leBytes 2 w.gslot ++ leBytes 4 1 ++ leBytes 8 w.totalAad ++ leBytes 8 w.totalText ++ w.iv ++ leBytes 4 w.ctr
  ++ beBytes 16 (w.ghash.1 ^^^ w.ghash.2) ++ zeros 4 ++ leBytes 4 count

/-- The wrapped form under the context-wrap key (R131). -/
def wrapCtx (b : Bytes) (key nonce : NatList) : Bytes :=
  let head := leBytes 2 0x3217 ++ bsub b 2 2
  let (x, t) := gcmEnc key nonce (octets head) (octets (b.drop 4))
  head ++ ofOctets (nonce ++ x ++ t) ++ zeros 4

/-- Whether the mode and lifecycle allow a clear context (R132). -/
def clearAllowed (s : State) : Bool := s.glb.mode == .maintenance || s.glb.lifecycle == .debug

/-- Check 7. -/
def clearCheck (s : State) (w : LaWork) (presented : Bool) : Option Status :=
  if !(w.ctxClear || presented) then none
  else if !attrCtxClear (gslotOf s w.gslot).attr then some .keyAttr
  else if !clearAllowed s then some .mode
  else none

/-- Check 8 (R133): the record belongs to the slot as it stands. -/
def ctxCheck (s : State) (w : LaWork) (c : Option CtxIn) : Option Status :=
  match c with
  | none => some .badValue
  | some x => match x.body with
    | none => some .badValue
    | some b =>
      if leAt b 2 2 ≠ w.gslot then some .badValue else if leAt b 60 4 ≠ installCount s w.gslot then some .keyInvalid else none

/-- The GCM state a context restores, its GHASH shared under a mask (R127). -/
def LaWork.restore (w : LaWork) (b : Bytes) (mask : Nat) : LaWork :=
  { w with
    totalAad := leAt b 8 8, totalText := leAt b 16 8, iv := bsub b 24 12, ctr := leAt b 36 4
    ghash := (beAt b 40 16 ^^^ mask, mask) }

/-! Fetch (R125, R126) -/

/-- A refused ring access (Table 4-8). -/
def laRingErr (n : Nat) (s : State) : State := setLa n { laOf s n with en := false, ringErr := true } s

/-- Whether the engine may fetch from a queue (R125). DESIGN CHOICE (log 105): the spec does not say how many records a completion ring
holds when it is full; here one entry stays free, so that CPL_PROD = CPL_CONS means empty. -/
def laMayFetch (s : State) (n : Nat) : Bool :=
  let q := laOf s n
  let size := 2 ^ q.size
  q.en && q.descProd != q.descCons
  && decide ((q.cplProd + size - q.cplCons % size) % size + q.work.length + 1 ≤ size - 1)
  && decide ((laOf s 0).work.length + (laOf s 1).work.length < 64)

/-- Checks 3 to 6: the slot's use by the queue's world and master LA, charged; KEY_SPENT raises EV_KEY_SPENT. -/
def laUse (n : Nat) (w : LaWork) (s : State) : Option Status × State :=
  match useG w.gslot useLa (laWorld n) mLa true s with
  | (some .keySpent, s) => (some .keySpent, raise evKeySpent (leBytes 1 1 ++ leBytes 2 w.gslot) s)
  | r => r

/-- The context record that CTX_IN names, on a part that is not FIRST; refused where the checker refuses its read. -/
def laContext (n : Nat) (w : LaWork) (s : State) : (Bool × Option CtxIn) × State :=
  if w.first then ((true, none), s)
  else
    let (b, s) := bufRead mLa w.colour (laWorld n).code w.ctx 96 s
    match b with
    | none => ((false, none), s)
    | some b =>
      match readInternal handleCtx s with
      | (none, s) => ((true, none), s)
      | (some key, s) => ((true, openCtx b key), s)

/-- Checks 1 to 8 of a fetched descriptor: its status, and its work with the GCM state it starts from. -/
def laCheck (n : Nat) (w : LaWork) (s : State) : LaWork × State :=
  let fail (st : Status) (s : State) : LaWork × State := ({ w with status := st, done := true }, s)
  if !w.formOk then fail .badValue s
  else
    let ((readable, c), s) := laContext n w s
    let body := (c.bind (·.body)).getD []
    if !w.lengthOk (if w.first then 0 else leAt body 16 8) then fail .badLength s
    else match laUse n w s with
      | (some st, s) => fail st s
      | (none, s) => match clearCheck s w (c.any (·.clear)) with
        | some st => fail st s
        | none =>
          if w.first then ({ w with iv := bsub w.desc 40 12 }, s)
          else if !readable then fail .access s
          else match ctxCheck s w c with
            | some st => fail st s
            | none =>
              let (m, s) := draw 128 s
              (w.restore body m.toNat, s)

/-- A descriptor fetched into the work of its queue, with staging granules for its output and tag. -/
def laFetch (n : Nat) (s : State) : State :=
  let q := laOf s n
  match bufRead mLa q.colour (laWorld n).code (q.descBase + 64 * q.descCons) 64 s with
  | (none, s) => laRingErr n s
  | (some d, s) =>
    let (w, s) := laCheck n { index := q.descCons, desc := d, fetched := s.time.ticks } s
    if halted s then s
    else
      let (chain, s) := if w.done then ([], s) else takeGranules (w.textLen + 16) s
      let q := laOf s n
      setLa n { q with descCons := (q.descCons + 1) % 2 ^ q.size, work := q.work ++ [{ w with chain := chain }] } { s with laTurn := n }

/-- A descriptor fetched; when both queues have work, the engine takes them in turn (R125). -/
def execLaDescriptorFetch (queue : Met LaNo Ecc) (s : State) : Result :=
  .next (
    let n := queue.it.val
    if !live s || holding s || !laMayFetch s n || (laMayFetch s (1 - n) && s.laTurn == n) then s else withEcc queue.met (laFetch n) s)

/-! Chunks (R127) -/

/-- A chunk's bytes through GCM, its GHASH shared under a new mask; the last chunk makes the tag, or compares it in share form with
the received one (R111). -/
def LaWork.run (w : LaWork) (key : NatList) (aad text tagIn : Bytes) (mask : Nat) : LaWork :=
  let rk := aesRounds key
  let h := hashSubkey rk
  let iv := octets w.iv
  let x := ctrMode rk iv w.ctr (octets text)
  let g := ghashIn h (w.ghash.1 ^^^ w.ghash.2) (octets aad)
  let g := ghashIn h g (if w.decrypt then octets text else x)
  let w1 := { w with
    aadDone := w.aadDone + aad.length, textDone := w.textDone + text.length
    totalAad := w.totalAad + aad.length, totalText := w.totalText + text.length
    ctr := (w.ctr + cdiv text.length 16) % 2 ^ 32, ghash := (g ^^^ mask, mask), outp := w.outp ++ ofOctets x }
  if w1.aadDone + w1.textDone < w.aadLen + w.textLen then w1
  else
    let t := gcmTag rk iv g w1.totalAad w1.totalText
    if w.decrypt then
      if natBe t ^^^ mask ^^^ beNat tagIn = mask then { w1 with done := true } else { w1 with done := true, status := .tagFail, outp := [] }
    else { w1 with done := true, outp := if w.last then w1.outp ++ ofOctets t else w1.outp }

/-- AAD and text bytes of the next chunk: at most 2,048 together, the text in whole blocks save at its end. -/
def LaWork.next (w : LaWork) : Nat × Nat :=
  let a := w.aadLen - w.aadDone
  let rest := w.textLen - w.textDone
  let room := 2048 - a
  (a, if rest ≤ room then rest else room / 16 * 16)

/-- Whether a chunk of a descriptor is in the array. -/
def laBusy (s : State) (n index : Nat) : Bool :=
  s.reqs.any (fun p => match p.2.kind with | .chunk k _ _ w => k == n && w.index == index | _ => false)

/-- Whether a cluster's input queue holds a traffic request: any but a lookaside chunk. -/
def trafficWaits (s : State) (c : Nat) : Bool :=
  (clusterOf s c).queue.any (fun id => !(reqOf s id).any (fun r => !r.express))

/-- Slots per ns of the lookaside floor (R128). -/
def floorRate (s : State) : Rat := 4 * nAct s * (s.pmu.pDisp : Rat) / 1000 * laFloor s

/-- The cluster of a chunk (R105): one with no traffic request waiting, the least loaded; else, while the floor has room, any. DESIGN
CHOICE (log 105): the floor has room once the chunks placed within it have had their time at its rate. -/
def placeChunk (s : State) (slots : Nat) : Option (Nat × Rat) :=
  match leastBy (loadOf s false) ((takers s).filter (fun c => !trafficWaits s c)) with
  | some c => some (c, s.laFloorAt)
  | none =>
    if floorRate s = 0 ∨ (s.time.ticks : Rat) < s.laFloorAt then none
    else (leastBy (loadOf s false) (takers s)).map (fun c => (c, (s.time.ticks : Rat) + slots / floorRate s))

/-- A chunk whose bytes and key are in its cluster. -/
def enterChunk (n c a t : Nat) (w : LaWork) (key : Line) (s : State) : State :=
  let id := s.traffic.nextFid
  let r : Req := { kind := .chunk n a t w, cluster := some c, key := key }
  enqueue c id (addReq r (countRequest c r.slots none false s))

/-- A chunk read from SRC, its key fetched and placed in a cluster's input queue. A key in error at the cluster is a RECORD fault; its
descriptor, to which Table 5-9 gives no status, ends with INTERNAL (log 105). Parity in a staging granule ends it so too (R255). -/
def startChunk (n c : Nat) (w : LaWork) (e : Errs) (s : State) : State :=
  let (a, t) := w.next
  let more := if w.decrypt && decide (w.textDone + t = w.textLen) then 16 else 0
  match bufRead mLa w.colour (laWorld n).code (w.src + w.aadDone + w.textDone) (a + t + more) s with
  | (none, s) => putWork n (w.fail .access) s
  | (some b, s) =>
    let s := countEv { group := 5, code := 0, inst := w.gslot % 16 } 1 (countFix 53 1 s)
    let line := (gslotOf s w.gslot).line
    if (gslotOf s w.gslot).state = .empty ∨ (gslotOf s w.gslot).state = .invalid then putWork n (w.fail .keyInvalid) s
    else match readG w.gslot s with
      | (none, s) => putWork n (w.fail .keyInvalid) s
      | (some key, s) =>
        if e.bus then putWork n (w.fail .internal) (logFault 0 2 w.gslot (countFault 33 s))
        else if e.link then halt haltLinkRam s
        else if !e.data.isEmpty then putWork n (w.fail .internal) (looseError (granulesBad e w.chain) s)
        else
          let (m, s) := maskOut c 128 s
          enterChunk n c a t (w.run key (b.take a) ((b.drop a).take t) (b.drop (a + t)) m.toNat) line s

def execLaChunk (queue : Met LaNo Errs) (s : State) : Result :=
  .next (
    let n := queue.it.val
    let errs := queue.met
    if !live s || holding s then s
    else match (laOf s n).work.find? (fun w => !w.done && !laBusy s n w.index) with
      | none => s
      | some w => match placeChunk s (slotsOf w.next.1 w.next.2) with
        | none => s
        | some (c, at_) => withEcc errs.ecc (startChunk n c w errs) { s with laFloorAt := at_ })

/-! Completion (R125, R129, R131) -/

/-- The first access of a buffer that the checker would refuse a write: its address and cause. -/
def refusedWrite (s : State) (colour a n : Nat) : Option (Nat × Nat) :=
  ((cuts (n / 256 + 2) a n).map (fun p => (p.1, checkCause s mLa colour p.1 true))).find? (fun p => p.2 != 0)

/-- Checks 9 and 10 at the end of a descriptor: ACCESS where an access to DST or CTX is refused, whatever its tag; output and context
are written where the descriptor has passed. -/
def laWrite (n : Nat) (w : LaWork) (s : State) : LaWork × State :=
  let v := (laWorld n).code
  let b := clearCtx w (installCount s w.gslot)
  let (nonce, s) := if w.ctxOut && !w.ctxClear then draw 96 s else (0, s)
  let (key, s) := if w.ctxOut && !w.ctxClear then readInternal handleCtx s else (some [], s)
  match key with
  | none => (w, s)
  | some key =>
  let rcd : Bytes := if !w.ctxOut then [] else if w.ctxClear then b else wrapCtx b key (beOct 12 nonce.toNat)
  let size := if w.decrypt then w.textLen else w.outp.length
  match (refusedWrite s w.colour w.dst size).orElse (fun _ => refusedWrite s w.colour w.ctx rcd.length) with
  | some (a, c) => ({ w with status := .access, outp := [] }, mpuFault mLa w.colour v a true c s)
  | none => if w.status = .tagFail then (w, s) else (w, (bufWrite mLa w.colour v w.ctx rcd (bufWrite mLa w.colour v w.dst w.outp s).2).2)

/-- The completion record (Table 4-10). -/
def laRecord (w : LaWork) : Bytes :=
  w.user ++ leBytes 2 w.status.code ++ leBytes 2 w.index ++ leBytes 4 (if w.status = .ok then w.outp.length else 0) ++ zeros 4

/-- A completion made visible: counted, sampled, and the queue's interrupt where both ask for it. -/
def laDone (n : Nat) (w : LaWork) (s : State) : State :=
  let q := laOf s n
  let p := (q.cplProd + 1) % 2 ^ q.size
  let v := (laWorld n).code
  let s := setLa n { q with cplProd := p } s
  let s := countEv { group := 7, code := 1, world := some v } 1 (countFix 54 1 s)
  let s := sample { kind := 4, reason := w.status.code % 256, master := some mLa, world := some v, req := w.index + 0x3F * 2 ^ 20,
                    addr := w.dst, colour := w.colour, latency := s.time.ticks - w.fetched } s
  if n = 0 ∧ w.irq ∧ q.irqEn then raise evLaQ0 (leBytes 2 p) s else s

/-- A descriptor completed: its output and record written, its staging granules freed. -/
def laFinish (n : Nat) (w : LaWork) (s : State) : State :=
  let (w, s) := if w.status = .ok ∨ w.status = .tagFail then laWrite n w s else (w, s)
  if halted s then s
  else
    let q := laOf s n
    let s := setLa n { q with work := q.work.filter (fun x => !(x.index == w.index)) } s
    match masterWrite mLa q.colour (laWorld n).code (q.cplBase + 16 * q.cplProd) (laRecord w) s with
    | (0, s) => laDone n w s
    | (_, s) => laRingErr n s

/-- A descriptor completes; parity in a staging granule ends it with INTERNAL (R255). -/
def execLaComplete (queue : Met LaNo Errs) (s : State) : Result :=
  .next (
    let n := queue.it.val
    let errs := queue.met
    if !live s || holding s then s
    else match (laOf s n).work.find? (fun w => w.done) with
      | none => s
      | some w =>
        if w.status = .ok ∧ errs.link = true then halt haltLinkRam s
        else if w.status = .ok ∧ errs.data ≠ [] then withEcc errs.ecc (laFinish n (w.fail .internal)) (looseError (granulesBad errs w.chain) s)
        else withEcc errs.ecc (laFinish n w) s)

end Sys2Proof.Machine
end

