-- ==== Sys2Proof/Machine/Rings.lean ====
section
/-! DEFINITION. Receive and transmit rings (R378 to R382) and interrupts (R375). -/

namespace Sys2Proof.Machine

open Sys2Proof

/-! Receive rings (R379, R380) -/

/-- The punt record header (Table 15-17). -/
def puntHeader (p : Punt) : Bytes :=
  leBytes 2 p.data.length ++ leBytes 1 p.port ++ leBytes 1 p.entry ++ leBytes 2 (b01 p.ptp) ++ zeros 2 ++ leBytes 6 p.time.sec
  ++ leBytes 2 p.time.frac ++ leBytes 4 p.time.ns ++ zeros 12

/-- Posted descriptors of a ring. -/
def posted (x : Ring) : Nat := (x.prod + 2 ^ x.size - x.cons % 2 ^ x.size) % 2 ^ x.size

/-- What a reservation answers. -/
inductive Reserved where
  | held (l : List Slotted)
  | short
  | refused

/-- Descriptors read from an index until their buffers hold the need. -/
def reserve (colour base mask : Nat) : (fuel i need : Nat) → List Slotted → State → Reserved × State
  | 0, _, need, acc, s => (if need = 0 then .held acc else .short, s)
  | fuel + 1, i, need, acc, s =>
    if need = 0 then (.held acc, s)
    else match masterRead mDma colour 3 (base + 16 * i) 16 s with
      | ((d, 0), s) =>
        reserve colour base mask fuel ((i + 1) % mask) (need - leAt d 8 2) (acc ++ [{ index := i, addr := leAt d 0 8, len := leAt d 8 2 }]) s
      | (_, s) => (.refused, s)

/-- The reservation for the frame at the head of a ring. -/
def reserveFor (r : Nat) (p : Punt) (s : State) : Reserved × State :=
  let x := ringOf s r
  reserve x.colour x.base (2 ^ x.size) (posted x) x.cons (32 + p.data.length) [] s

/-- Buffers filled in turn; the bytes that each got, or none where the checker refuses a write. -/
def fillBuffers (colour : Nat) : List Slotted → Bytes → State → Option (List (Nat × Nat)) × State
  | [], _, s => (some [], s)
  | b :: r, d, s =>
    let part := d.take b.len
    match bufWrite mDma colour 3 b.addr part s with
    | (false, s) => (none, s)
    | (true, s) => match fillBuffers colour r (d.drop b.len) s with
      | (none, s) => (none, s)
      | (some l, s) => (some ((b.index, part.length) :: l), s)

/-- Descriptors written back, given last first, so that FIRST goes last (R379): bytes written, and FIRST, LAST and DONE. -/
def writeBack (colour base first last : Nat) : List (Nat × Nat) → State → Bool × State
  | [], s => (true, s)
  | (i, n) :: r, s =>
    let flags := b01 (i == first) + 2 * b01 (i == last) + 0x8000
    match masterWrite mDma colour 3 (base + 16 * i + 10) (leBytes 2 n ++ leBytes 2 flags) s with
    | (0, s) => writeBack colour base first last r s
    | (_, s) => (false, s)

/-- The frame at the head leaves its ring's queue. -/
def popPunt (r : Nat) (s : State) : State :=
  let x := ringOf s r
  setRing r { x with waiting := x.waiting.drop 1, headAt := s.time.ticks, reserved := none } s

/-- A frame written into its reservation, then CONS and the ring's code. -/
def deliverPunt (r : Nat) (p : Punt) (l : List Slotted) (s : State) : State :=
  let x := ringOf s r
  match fillBuffers x.colour l (puntHeader p ++ p.data) s with
  | (none, s) => ringRefused r (popPunt r s)
  | (some done, s) =>
    let first := ((done.head?).map (·.1)).getD 0
    let last := ((done.getLast?).map (·.1)).getD 0
    match writeBack x.colour x.base first last done.reverse s with
    | (false, s) => ringRefused r (popPunt r s)
    | (true, s) => ringAdvance r l.length (countEv { group := 7, code := 2, world := some 3 } 1 (countFix 55 1 (popPunt r s)))

/-- A parity error in a granule that the punt engine reads (R255). -/
def puntParity (r : Nat) (p : Punt) (e : Errs) (s : State) : State :=
  sump .cisternParity { q := p.port, tr := p.tick, granule := p.chain.head? } (popPunt r (looseError (granulesBad e p.chain) s))

/-- The frame at the head of a ring gets its reservation, or is left to wait. -/
def puntReserve (r : Nat) (p : Punt) (s : State) : State :=
  if (ringOf s r).reserved.isSome then s
  else match reserveFor r p s with
    | (.held l, s) => setRing r { ringOf s r with reserved := some l } s
    | (.short, s) => s
    | (.refused, s) => ringRefused r (popPunt r s)

/-- The frame at the head delivered, once it holds its reservation. -/
def puntNext (r : Nat) (p : Punt) (s : State) : State :=
  let s := puntReserve r p s
  match (ringOf s r).reserved with
  | some l => deliverPunt r p l s
  | none => s

/-- RING_r_PROD written, that of the event ring is RO: a frame that waits for a reservation tries again (R380). -/
def execRingProdWrite (pf : Pf) (ring : RingNo) (value : W32) (s : State) : Result :=
  .next (
    let r := ring.val
    if written pf s && decide (r < 16) then
      let s := setRing r { ringOf s r with prod := value.toNat % 4096 } s
      if !live s || holding s || decide (8 ≤ r) || !(ringOf s r).en then s
      else match (ringOf s r).waiting with
        | [] => s
        | p :: _ => puntReserve r p s
    else s)

def execPuntDeliver (ring : RingNo) (errs : Errs) (s : State) : Result :=
  .next (
    let r := ring.val
    if !live s || holding s || decide (8 ≤ r) || !(ringOf s r).en then s
    else match (ringOf s r).waiting with
      | [] => s
      | p :: _ =>
        if errs.link then halt haltLinkRam s
        else if !errs.data.isEmpty then puntParity r p errs s
        else withEcc errs.ecc (puntNext r p) s)

/-- Whether the head's reservation would be met by the descriptors as posted. -/
def wouldFit (s : State) (r : Nat) (p : Punt) : Bool := match (reserveFor r p s).1 with | .held _ => true | _ => false

/-- RING_WAIT has passed without a reservation (R380); a PROD write of the last of its ticks counts, so that the drop follows that tick. -/
def execRingStarve (ring : RingNo) (s : State) : Result :=
  .next (
    let r := ring.val
    if !live s || decide (8 ≤ r) || !(ringOf s r).en then s
    else match (ringOf s r).waiting with
      | [] => s
      | p :: _ =>
        let x := ringOf s r
        let inTime := decide (s.time.ticks ≤ x.headAt + attr s clsRing r 1 * 1000)
        if inTime || x.reserved.isSome || (!holding s && wouldFit s r p) then s
        else
          let s := countFix 57 1 (ringDrop r (popPunt r s))
          raise evRingStarve (leBytes 1 r ++ leBytes 1 p.port ++ leBytes 2 p.data.length) s)

/-! Transmit rings (R382) -/

/-- Granules of a control message that carries a frame of a transmit ring. -/
def CtlMsg.granules (m : CtlMsg) : Nat := if m.ring.isSome then cdiv m.data.length 256 else 0

/-- Granules of the frames that the control complex sends, those for sealed ports too. -/
def sendGranules (s : State) : Nat :=
  s.traffic.ports.foldl (fun a p => p.2.mgmt.foldl (fun a m => a + cdiv m.data.length 256) a) 0
  + s.wh.foldl (fun a w => w.2.tx.ready.foldl (fun a m => a + m.2.granules) a) 0
  + s.reqs.foldl (fun a r => match r.2.kind with | .seal _ m => a + m.granules | _ => a) 0

/-- The STATUS of a descriptor that breaks a rule of its format. -/
def txRule (s : State) (d : Bytes) : Option Nat :=
  let q := leAt d 10 1
  let len := leAt d 8 2
  if 4 ≤ leAt d 11 1 ∨ leAt d 14 2 ≠ 0 ∨ leAt d 22 2 ≠ 0 ∨ leAt d 30 2 ≠ 0 then some 0xFF
  else if (if q < 96 ∧ sealedQ s q = true then len < 1 ∨ 960 < len else len < 60 ∨ 15996 < len) then some 2
  else if 96 ≤ q ∨ fusedQ s q ∨ !adminUp s q then some 6
  else none

/-- The next descriptor is taken; a ring index stands ahead of CONS until it is done with. -/
def takeTx (r : Nat) (s : State) : State := let x := ringOf s r; setRing r { x with next := (x.next + 1) % 2 ^ x.size } s

/-- A descriptor whose frame has been read goes to its port. -/
def sendTx (r i : Nat) (d b : Bytes) (s : State) : State :=
  let q := leAt d 10 1
  let ident := if bit (leAt d 11 1) 0 then some (leAt d 12 2) else none
  let launch := if bit (leAt d 11 1) 1 then some (leAt d 16 6, leAt d 24 4) else none
  let s := takeTx r s
  if sealedQ s q then
    if launch.isSome then txDone r i (Reason.launchLate).code (sump .launchLate { q := q, tr := s.time.ticks } s)
    else queueCtl (q - 48) { data := beBytes 1 4 ++ [0] ++ beBytes 2 b.length ++ b, ident := ident, ring := some r, index := i } s
  else addMgmt q { data := b, ident := ident, launch := launch, ring := some r, index := i, ebytes := 0 } s

/-- Whether the target has room: its management queue, and granules of the control pool (R208, R254). -/
def txRoom (s : State) (q len : Nat) : Bool :=
  (sealedQ s q || decide ((portOf s q).mgmt.length < 64)) && decide (divertedGranules s + sendGranules s + cdiv len 256 ≤ 16384)

/-- The next descriptor of a transmit ring read and checked, and its frame read where its target has room. -/
def txTake (r : Nat) (s : State) : State :=
  let x := ringOf s r
  match masterRead mDma x.colour 3 (x.base + 32 * x.next) 32 s with
  | ((d, 0), s) => match txRule s d with
    | some st => txDone r x.next st (takeTx r s)
    | none =>
      if !txRoom s (leAt d 10 1) (leAt d 8 2) then s
      else match bufRead mDma x.colour 3 (leAt d 0 8) (leAt d 8 2) s with
        | (none, s) => ringRefused r s
        | (some b, s) => sendTx r x.next d b s
  | (_, s) => ringRefused r s

def execTxDescriptor (ring : Met RingNo Ecc) (s : State) : Result :=
  .next (
    let r := ring.it.val
    let x := ringOf s r
    if !live s || holding s || decide (r < 8 ∨ 16 ≤ r) || !x.en || decide (x.next = x.prod % 2 ^ x.size) then s
    else withEcc ring.met (txTake r) s)

/-! Interrupts (R375) -/

def execIrqRearm (pf : Pf) (vector : VecNo) (s : State) : Result :=
  .next (
    if written pf s then sendIfDue vector.val (onIrq (fun q => { q with armed := q.armed ||| (1 <<< vector.val) }) s) else s)

/-- IRQ_MAP_e written: its EN and VEC bits. -/
def execIrqMapWrite (pf : Pf) (event : Nat) (value : W32) (s : State) : Result :=
  .next (
    if written pf s && decide (event < 56) then
      let v := value.toNat
      let s := onIrq (fun q => { q with map := tset 0 q.map event (bits v 8 8 * 256 + v % 64) }) s
      if bit v 8 then sendIfDue (v % 64) s else s
    else s)

/-- A vector unmasked: a pending message is sent. -/
def unmask (v : Nat) (s : State) : State :=
  let pend := s.irq.pba.getLsbD v
  let s := onIrq (fun q => { q with masked := q.masked &&& ~~~((1 : W64) <<< v), pba := q.pba &&& ~~~((1 : W64) <<< v) }) s
  if pend && s.irq.msix then emit (.msix v) s else s

def execMsixUnmask (vector : VecNo) (s : State) : Result := .next (if asleep s then s else unmask vector.val s)

/-- MSI-X enabled: every vector is armed, and those with a mapped, enabled cause set send. -/
def execMsixEnable (s : State) : Result :=
  .next (
    if asleep s then s
    else (upFrom 0 64).foldl (fun s v => sendIfDue v s) (onIrq (fun q => { q with msix := true, armed := BitVec.allOnes 64 }) s))

end Sys2Proof.Machine
end

