-- ==== Sys2Proof/Machine/View.lean ====
section
/-! DEFINITION. The BAR0 map (chapter 18): what a read of each register returns through either function (R361, R362, R427, R428), BAR4
(R356), a write to a register with no command of its own, and accesses to a domain that is not ON (R327). -/

namespace Sys2Proof.Machine

open Sys2Proof

/-! The map (Tables 18-1, 18-2) -/

/-- The power domain of the block an offset lies in; none outside every block. -/
def regDomain (o : Nat) : Option Nat :=
  if o < 0x110 then some 74
  else if 0x10000 ≤ o ∧ o < 0x18000 then some 74
  else if 0x20000 ≤ o ∧ o < 0x20018 then some 74
  else if 0x30000 ≤ o ∧ o < 0x39008 then some 74
  else if 0x40000 ≤ o ∧ o < 0x40074 then some 75
  else if 0x50000 ≤ o ∧ o < 0x50410 then some 74
  else if 0x60000 ≤ o ∧ o < 0x60060 then some 80
  else if 0x70000 ≤ o ∧ o < 0x702FC then some 74
  else if 0x80000 ≤ o ∧ o < 0x804FC then some 72
  else if 0x90000 ≤ o ∧ o < 0x9000C then some 74
  else if 0xA0000 ≤ o ∧ o < 0xA0440 then some 74
  else if 0xB0000 ≤ o ∧ o < 0xB0130 then some 74
  else if 0x100000 ≤ o ∧ o < 0x140000 then some 74
  else if 0x200000 ≤ o ∧ o < 0x200C00 then some (portDom (48 + (o - 0x200000) / 0x40))
  else if 0x300000 ≤ o ∧ o < 0x301800 then some (portDom ((o - 0x300000) / 0x40))
  else none

/-- Whether an offset lies in a block whose domain is not ON. -/
def regOff (s : State) (o : Nat) : Bool := match regDomain o with | some d => !domOn s d | none => false

/-- The low and the high word of a wide value. -/
def lo32 (n : Nat) : Nat := n % 2 ^ 32
def hi32 (n : Nat) : Nat := n / 2 ^ 32 % 2 ^ 32

/-- The words of a time: nanoseconds, seconds low and high, fraction (Table 8-1). -/
def stampWord (t : Stamp) (k : Nat) : Nat :=
  match k with | 0 => t.ns | 1 => lo32 t.sec | 2 => hi32 t.sec % 65536 | _ => t.frac

/-! Each block as it reads -/

def readGlb (s : State) (o : Nat) : Nat :=
  match o with
  | 0x00 => if s.nvm.part9624 then 0x9624B001 else 0x9648B001
  | 0x10 => s.glb.haltCause
  | 0x14 => s.glb.haltNs
  | 0x18 => lo32 s.glb.haltSec
  | 0x1C => hi32 s.glb.haltSec % 65536
  | 0x100 => s.glb.mode.code + 256 * s.glb.lifecycle.code
  | 0x104 => s.glb.bootStatus.toNat
  | 0x10C => s.glb.resetCause + 256 * s.glb.lastHalt
  | _ => 0

/-- MBX_n_STATUS (Table 15-3). -/
def mbxStatus (x : Mbx) : Nat :=
  b01 x.busy + 2 * b01 x.done + 4 * b01 x.dbRej + 8 * b01 x.wrRej + 16 * b01 x.session.isSome
  + 32 * (match x.session with | some w => w.world.code | none => 0)

/-- A mailbox through the function that holds it; zero through the other (R361). -/
def readMbx (s : State) (pf : Pf) (o : Nat) : Nat :=
  let n := o / 0x800
  let k := o % 0x800
  let x := mbxOf s n
  if (pf == .pf0) != decide (n < 14) then 0
  else if k < 0x200 then leNat ((upFrom k 4).map (fun i => tget 0 x.req i))
  else if k < 0x400 then leAt x.rsp (k - 0x200) 4
  else if k = 0x404 then mbxStatus x
  else 0

def readDp (s : State) (o : Nat) : Nat :=
  let d := s.dp
  match o with
  | 0x00 => b01 d.en + 2 * b01 d.inc + 256 * d.colour
  | 0x04 => b01 d.claim.isSome + 2 * b01 d.err + 256 * d.cause
  | 0x08 => lo32 d.addr
  | 0x0C => hi32 d.addr % 256
  | 0x10 => lo32 d.errAddr
  | 0x14 => hi32 d.errAddr % 256
  | _ => 0

/-- IRQ block (Table 15-14) with the MSI-X table and PBA. -/
def readIrq (s : State) (o : Nat) : Nat :=
  if o < 0xE0 then tget 0 s.irq.map (o / 4)
  else if o = 0x100 then lo32 s.irq.cause.toNat
  else if o = 0x104 then hi32 s.irq.cause.toNat
  else if 0x8000 ≤ o ∧ o < 0x8400 then
    let k := (o - 0x8000) / 4
    if k % 4 = 3 then b01 (s.irq.masked.getLsbD (k / 4)) else tget 0 s.irq.table k
  else if o = 0x9000 then lo32 s.irq.pba.toNat
  else if o = 0x9004 then hi32 s.irq.pba.toNat
  else 0

/-- TIME_STATUS (Table 8-4). -/
def timeStatus (t : TimeBlk) : Nat :=
  b01 t.spent + 2 * b01 t.stepRej + 4 * b01 t.incrRej + 8 * b01 t.ppsinNew + 16 * b01 t.todinNew + 32 * b01 t.todinBad
  + 64 * b01 t.armed.isSome + 128 * b01 t.ppsinOvr

/-- TIME block; TIME_NOW_NS reads the counter, and the words after it the function's snapshot (R229). -/
def readTime (s : State) (pf : Pf) (o : Nat) : Nat :=
  let t := s.time
  let snap := match pf with | .pf0 => t.snap0 | .pf1 => t.snap1
  match o with
  | 0x00 => t.now.ns
  | 0x04 => stampWord snap 1
  | 0x08 => stampWord snap 2
  | 0x0C => stampWord snap 3
  | 0x10 => t.adj.toNat
  | 0x20 => t.stepNs
  | 0x24 => lo32 t.stepSec
  | 0x28 => hi32 t.stepSec % 65536
  | 0x2C => 2 * b01 t.atPps
  | 0x30 => timeStatus t
  | 0x40 => b01 t.ppsOutEn + 2 * b01 t.ppsInEn + 256 * t.ppsWidth
  | 0x44 => stampWord t.ppsin 0
  | 0x48 => stampWord t.ppsin 1
  | 0x4C => stampWord t.ppsin 2
  | 0x50 => stampWord t.ppsin 3
  | 0x60 => t.todCtrl.toNat
  | 0x64 => leAt t.todin 0 4
  | 0x68 => leAt t.todin 4 4
  | 0x6C => leAt t.todin 8 4
  | 0x70 => leAt t.todin 12 4
  | _ => 0

/-- PMU_DOM_n (Table 12-4). -/
def domWord (d : Dom) : Nat := 16 * d.state.code + 256 * d.result + 0x20000 * b01 d.cmdWake

/-- PMU block. -/
def readPmu (s : State) (o : Nat) : Nat :=
  let m := s.pmu
  if o < 81 * 4 then domWord (domOf s (o / 4))
  else match o with
  | 0x200 => m.errAddr
  | 0x204 => m.errDom + 256 * b01 m.errWrite + 65536 * m.errCount + 2 ^ 31 * b01 m.errValid
  | 0x300 => m.avsTarget
  | 0x304 =>
    b01 m.avsChange.isSome + 2 * b01 m.avsRej + 4 * b01 m.avsErr
    + 8 * (match m.avsChange with | some c => b01 (!c.issued) | none => 0) + 65536 * m.avsConfirmed
  | 0x308 => m.vout % 65536
  | 0x30C => m.iout % 65536
  | 0x310 => m.avsTemp % 65536
  | 0x320 => b01 m.sagWarn + 2 * b01 m.sagSeen + 256 * m.sagPoint + 65536 * m.sagCount
  | 0x400 => m.paceLimit
  | 0x404 => m.pAdm + 65536 * m.pDisp
  | 0x408 => (rfloor (m.capFig / 10)).toNat % 65536 + 65536 * m.capAct
  | 0x40C =>
    (rfloor (m.kB * 256)).toNat % 512 + 65536 * ((rfloor (m.kR * 256)).toNat % 512) + 2 ^ 30 * b01 (decide (2 ≤ m.tier))
    + 2 ^ 31 * b01 (decide (m.tier = 3))
  | _ => 0

/-- STP_POWER (Table 13-4). -/
def stpPower (s : State) : Nat := powerByte s + 8 * b01 s.stp.fromB

/-- TMP_STATE: a bit per source in alarm. -/
def tmpState (s : State) : Nat := (upFrom 0 13).foldl (fun a n => a + 2 ^ n * b01 (s.stp.alarm.contains n)) 0

/-- TMP_LOG_HEAD: SEQ of the newest record. -/
def logHead (s : State) : Nat := match s.stp.log.getLast? with | some r => r.seq | none => 0

/-- TMP_LOG_STAT.UNSEEN (Table 13-5). -/
def logUnseen (s : State) : Nat := min 128 ((logHead s + 2 ^ 32 - s.stp.logAck) % 2 ^ 32)

/-- STP and TMP block (Table 13-3). -/
def readStp (s : State) (o : Nat) : Nat :=
  if 0x40 ≤ o ∧ o < 0x60 then (match s.stp.logData with | some r => leAt (logBytes r) (o - 0x40) 4 | none => 0)
  else match o with
  | 0x00 => rtcSubWord s
  | 0x04 => s.stp.rtcLatch
  | 0x08 => stpPower s
  | 0x10 => tmpState s
  | 0x20 => logHead s
  | 0x24 => s.stp.logSel
  | 0x28 => s.stp.logAck
  | 0x2C => logUnseen s + 256 * b01 s.stp.miss
  | _ => 0

/-- MPU block (Tables 9-11 to 9-14). -/
def readMpu (s : State) (o : Nat) : Nat :=
  let m := s.mem
  if 0x100 ≤ o ∧ o < 0x300 then
    let r := region s ((o - 0x100) / 16)
    match o % 16 with | 0 => r.lo.toNat | 4 => r.hi.toNat | 8 => r.attr.toNat | _ => 0
  else match o with
  | 0x00 => b01 m.mpuEn
  | 0x04 =>
    b01 m.held + 2 * b01 m.holdLong + 4 * b01 m.wrRej
    + (match m.overlap with | some (a, b) => 8 + 256 * a + 65536 * b | none => 0)
  | 0x10 => (match m.fault with | some (a, _) => lo32 a | none => 0)
  | 0x14 => (match m.fault with | some (a, _) => hi32 a % 256 | none => 0)
  | 0x18 => (match m.fault with
    | some (_, k, c, w, x) => x + 0x1000 * b01 w + 0x10000 * c + 0x1000000 * k + 2 ^ 31
    | none => 0)
  | 0x1C => m.faultCount
  | _ => 0

/-- IME block (Tables 9-4, 9-6 to 9-8). -/
def readIme (s : State) (o : Nat) : Nat :=
  let m := s.mem
  if 0x110 ≤ o ∧ o < 0x500 then
    let k := (o - 0x100) / 16
    let x := imeKey s k
    match o % 16 with
    | 0 => lo32 x.wcnt
    | 4 => hi32 x.wcnt
    | 8 => x.limit + 256 * b01 x.gen + 512 * (match m.sweep with | some w => b01 (w.index == k) | none => 0)
    | _ => 0
  else match o with
  | 0x00 => m.sweepIndex
  | 0x04 => (match m.sweep with | some w => 2 ^ 31 + 256 * w.index | none => 0)
  | 0x08 => (match m.sweep with | some w => lo32 w.ptr | none => 0)
  | 0x0C => (match m.sweep with | some w => hi32 w.ptr % 256 | none => 0)
  | 0x10 => lo32 m.pendingSweep.toNat
  | 0x14 => hi32 m.pendingSweep.toNat
  | 0x20 => m.ce0 + 65536 * m.ce1
  | _ => 0

/-- PAIR block (Tables 10-9, 18-6); LINK reads 0 while PD_MATE is not ON (R426). -/
def readPair (s : State) (o : Nat) : Nat :=
  let p := s.pair
  match o with
  | 0x00 => b01 (p.linkUp && domOn s 78) + 2 * b01 p.partnerHalted + 256 * p.lease.code + 65536 * p.state.code
  | 0x04 => lo32 p.psel.toNat
  | 0x08 => hi32 p.psel.toNat
  | _ => 0

/-- Whether a ring's engine holds nothing: no frame waiting, no descriptor taken and not completed. -/
def ringIdle (r : Nat) (x : Ring) : Bool :=
  if r < 8 then x.waiting.isEmpty else if r < 16 then x.finished.isEmpty && x.next == x.cons else true

/-- A ring (Table 15-15). -/
def readRing (s : State) (r o : Nat) : Nat :=
  let x := ringOf s r
  match o with
  | 0x00 => b01 x.en + 2 * b01 x.irqEn + 256 * x.colour
  | 0x04 => b01 (ringIdle r x) + 2 * b01 x.accErr
  | 0x08 => lo32 x.base
  | 0x0C => hi32 x.base
  | 0x10 => x.size
  | 0x14 => x.prod
  | 0x18 => x.cons
  | 0x1C => x.drop
  | _ => 0

/-- A lookaside queue (Tables 4-6 to 4-8). -/
def readLa (s : State) (n o : Nat) : Nat :=
  let q := laOf s n
  match o with
  | 0x00 => b01 q.en + 2 * b01 q.irqEn + 256 * q.colour
  | 0x04 => b01 q.work.isEmpty + 2 * b01 q.ringErr + 256 * q.work.length
  | 0x08 => lo32 q.descBase
  | 0x0C => hi32 q.descBase
  | 0x10 => q.size
  | 0x14 => q.descProd
  | 0x18 => q.descCons
  | 0x20 => lo32 q.cplBase
  | 0x24 => hi32 q.cplBase
  | 0x28 => q.cplProd
  | 0x2C => q.cplCons
  | _ => 0

/-- A word of a table of 48-bit counters. -/
def counterWord (t : Tab Nat) (o : Nat) : Nat := if o % 8 = 0 then lo32 (tget 0 t (o / 8)) else hi32 (tget 0 t (o / 8))

/-- PERF block (Tables 14-5, 14-6, 14-8). -/
def readPerf (s : State) (o : Nat) : Nat :=
  let p := s.perf
  if o < 0x800 then counterWord p.cnt o
  else if o < 0x1000 then counterWord p.lat (o - 0x800)
  else if o < 0x1200 then counterWord p.fix (o - 0x1000)
  else if o < 0x1400 then counterWord p.flat (o - 0x1200)
  else if o = 0x1400 then lo32 p.latSec
  else if o = 0x1404 then hi32 p.latSec % 65536
  else if 0x2000 ≤ o ∧ o < 0x2020 then p.ovf.toNat / 2 ^ (8 * (o - 0x2000)) % 2 ^ 32
  else if o = 0x2020 then lo32 p.fovf.toNat
  else if o = 0x2024 then hi32 p.fovf.toNat
  else if o = 0x2100 then 65536 * p.smpFill + 2 ^ 31 * b01 (attr s clsPerf 256 1 == 1 && !halted s)
  else if o = 0x2104 then p.smpWr
  else if o = 0x2108 then p.smpRd
  else if o = 0x210C then p.smpSkip + 65536 * p.smpLost
  else if 0x20000 ≤ o then leAt (tget [] p.smpRec ((o - 0x20000) / 32)) (o % 32) 4
  else 0

/-- WH registers of a line port (Table 18-7). -/
def readWh (s : State) (p o : Nat) : Nat :=
  let w := tget {} s.wh p
  let c := w.latched
  match o with
  | 0x00 => c.txCells % 2 ^ 32
  | 0x04 => c.txFill % 2 ^ 32
  | 0x08 => c.rxCells % 2 ^ 32
  | 0x0C => c.rxCorr % 2 ^ 32
  | 0x10 => c.rxBad % 2 ^ 32
  | 0x14 => c.hunt % 2 ^ 32
  | 0x18 => c.oosUs % 2 ^ 32
  | 0x1C => c.unkeyed % 2 ^ 32
  | 0x20 => c.segErr % 2 ^ 32
  | 0x24 => c.ctlFail % 2 ^ 32
  | 0x28 => c.rdiRx % 2 ^ 32
  | 0x2C => c.defects.toNat
  | 0x30 => w.latSec
  | _ => 0

/-- TSQ registers of a port (Table 8-6). -/
def readTsq (s : State) (q o : Nat) : Nat :=
  let x := tsqOf s q
  let h : TsEntry := x.entries.head?.getD { ident := 0, time := {} }
  match o with
  | 0x00 => x.entries.length + 32 * x.firstLost + 2 ^ 31 * b01 x.ovf
  | 0x04 => h.ident
  | 0x08 => stampWord h.time 0
  | 0x0C => stampWord h.time 1
  | 0x10 => stampWord h.time 2
  | 0x14 => stampWord h.time 3
  | 0x1C => x.lost
  | 0x20 => x.corrTx.toNat
  | 0x24 => x.corrRx.toNat
  | _ => 0

/-- The register at an aligned offset of a domain that is ON. -/
def readOn (s : State) (pf : Pf) (o : Nat) : Nat :=
  if o < 0x10000 then readGlb s o
  else if o < 0x20000 then (if o < 0x18000 then readMbx s pf (o - 0x10000) else 0)
  else if o < 0x30000 then readDp s (o - 0x20000)
  else if o < 0x40000 then readIrq s (o - 0x30000)
  else if o < 0x50000 then readTime s pf (o - 0x40000)
  else if o < 0x60000 then readPmu s (o - 0x50000)
  else if o < 0x70000 then readStp s (o - 0x60000)
  else if o < 0x80000 then readMpu s (o - 0x70000)
  else if o < 0x90000 then readIme s (o - 0x80000)
  else if o < 0xA0000 then readPair s (o - 0x90000)
  else if o < 0xB0000 then (if o < 0xA0440 then readRing s ((o - 0xA0000) / 0x40) ((o - 0xA0000) % 0x40) else 0)
  else if o < 0x100000 then (if o < 0xB0200 then readLa s ((o - 0xB0000) / 0x100) ((o - 0xB0000) % 0x100) else 0)
  else if o < 0x140000 then readPerf s (o - 0x100000)
  else if o < 0x200000 then 0
  else if o < 0x300000 then (if o < 0x200C00 then readWh s ((o - 0x200000) / 0x40) ((o - 0x200000) % 0x40) else 0)
  else if o < 0x301800 then readTsq s ((o - 0x300000) / 0x40) ((o - 0x300000) % 0x40)
  else 0

/-- What a 32-bit read of BAR0 returns through a function: all ones in a domain that is not ON, zero where no register is or the
offset is not aligned. Where the PCIe link has not trained (R313) no read is answered: all ones, as PCIe gives them. -/
def regRead (s : State) (pf : Pf) (o : Nat) : W32 :=
  if !pcieUp s then 0xFFFFFFFF else if o % 4 ≠ 0 then 0 else if regOff s o then 0xFFFFFFFF else BitVec.ofNat 32 (readOn s pf o)

/-- A byte of the counter page BAR4 (R356): a counter shows where its user attribute, or perf_user_fixed, is ON. -/
def bar4Byte (s : State) (o : Nat) : Byte :=
  let shown :=
    if o < 0x1000 then attr s clsPerf (o % 0x800 / 8) 0x0A == 1
    else if o < 0x1400 then attr s clsDev 0 0x0D == 1
    else decide (o < 0x1408)
  if !pcieUp s then 0xFF
  else if shown then BitVec.ofNat 8 (readPerf s (o / 4 * 4) / 2 ^ (8 * (o % 4))) else 0

/-! Writes (R362, R425, R429) -/

/-- The value with its low word replaced, or with bits [w−1:32] replaced. -/
def putLo (n v : Nat) : Nat := n / 2 ^ 32 * 2 ^ 32 + v
def putHi (n v w : Nat) : Nat := n % 2 ^ 32 + v % 2 ^ (w - 32) * 2 ^ 32

/-- MBX_n_STATUS W1C bits; those of MB14 and MB15 are out of reach (R361). -/
def writeMbx (o v : Nat) (s : State) : State :=
  let n := o / 0x800
  let x := mbxOf s n
  if n < 14 ∧ o % 0x800 = 0x404 then setMbx n { x with dbRej := x.dbRej && !bit v 2, wrRej := x.wrRej && !bit v 3 } s else s

/-- DP block: DP_CTRL only while the port is claimed (R371). -/
def writeDp (o v : Nat) (s : State) : State :=
  let d := s.dp
  match o with
  | 0x00 => if d.claim.isSome then onDp (fun d => { d with en := bit v 0, inc := bit v 1, colour := bits v 13 8 }) s else s
  | 0x04 => if bit v 1 then onDp (fun d => { d with err := false, cause := 0, errAddr := 0 }) s else s
  | 0x08 => onDp (fun d => { d with addr := putLo d.addr v }) s
  | 0x0C => onDp (fun d => { d with addr := putHi d.addr v 40 }) s
  | _ => s

/-- IRQ block: causes are W1C; a word of the MSI-X table is stored, and its mask bit sets (clearing it is MSIX_UNMASK). -/
def writeIrq (o v : Nat) (s : State) : State :=
  if o = 0x100 then onIrq (fun q => { q with cause := q.cause &&& ~~~(BitVec.ofNat 64 v) }) s
  else if o = 0x104 then onIrq (fun q => { q with cause := q.cause &&& ~~~(BitVec.ofNat 64 v <<< 32) }) s
  else if 0x8000 ≤ o ∧ o < 0x8400 then
    let k := (o - 0x8000) / 4
    if k % 4 = 3 then (if bit v 0 then onIrq (fun q => { q with masked := q.masked ||| ((1 : W64) <<< (k / 4)) }) s else s)
    else onIrq (fun q => { q with table := tset 0 q.table k v }) s
  else s

/-- TIME block: the step registers, AT_PPS, the W1C bits of TIME_STATUS, PPS and ToD control. -/
def writeTime (o v : Nat) (s : State) : State :=
  match o with
  | 0x20 => onTime (fun t => { t with stepNs := v % 2 ^ 30 }) s
  | 0x24 => onTime (fun t => { t with stepSec := putLo t.stepSec v }) s
  | 0x28 => onTime (fun t => { t with stepSec := putHi t.stepSec v 48 }) s
  | 0x2C => if bit v 0 || bit v 2 then s else onTime (fun t => { t with atPps := bit v 1 }) s
  | 0x30 => onTime (fun t => { t with
      stepRej := t.stepRej && !bit v 1
      incrRej := t.incrRej && !bit v 2
      ppsinNew := t.ppsinNew && !bit v 3
      todinNew := t.todinNew && !bit v 4
      todinBad := t.todinBad && !bit v 5
      ppsinOvr := t.ppsinOvr && !bit v 7 }) s
  | 0x40 =>
    let w := bits v 17 8
    onTime (fun t => { t with
      ppsOutEn := bit v 0
      ppsInEn := bit v 1
      ppsWidth := if 1 ≤ w ∧ w ≤ 999 then w else t.ppsWidth
      ppsOut := t.ppsOut && bit v 0 }) s
  | 0x60 => onTime (fun t => { t with todCtrl := BitVec.ofNat 32 v &&& 0xFFFF0703 }) s
  | _ => s

/-- PMU block: CMD_WAKE with REQ = 0, and the W1C bits. -/
def writePmu (o v : Nat) (s : State) : State :=
  if o < 81 * 4 then (if v % 4 = 0 then putWake (o / 4) (bit v 17) s else s)
  else match o with
  | 0x204 => if bit v 31 then onPmu (fun m => { m with errValid := false, errCount := 0, errAddr := 0 }) s else s
  | 0x304 => onPmu (fun m => { m with avsErr := m.avsErr && !bit v 2, avsRej := m.avsRej && !bit v 1 }) s
  | 0x320 => onPmu (fun m => { m with sagSeen := m.sagSeen && !bit v 1 }) s
  | _ => s

/-- TMP_LOG_ACK (Table 13-3). -/
def writeStp (o v : Nat) (s : State) : State :=
  if o = 0x28 ∧ s.stp.logAck ≤ v then onStp (fun p => { p with logAck := v }) s else s

/-- A region register: 12–31 during a hold with EN = 0 (R272), TAG 1–7 refused; otherwise WR_REJ. -/
def writeRegion (n f v : Nat) (s : State) : State :=
  let r := region s n
  let bad := n < 12 ∨ s.mem.mpuEn ∨ ¬ s.mem.held ∨ (f = 8 ∧ 1 ≤ bits v 27 22 ∧ bits v 27 22 ≤ 7)
  if f = 12 then s
  else if bad then onMem (fun m => { m with wrRej := true }) s
  else
    let w := BitVec.ofNat 32 v
    let x : Region :=
      if f = 0 then { r with lo := w &&& 0xFFFFF000 }
      else if f = 4 then { r with hi := w &&& 0xFF }
      else { r with attr := w &&& 0xEFDFFFFF }
    onMem (fun m => { m with regions := tset {} m.regions n x }) s

/-- MPU block. -/
def writeMpu (o v : Nat) (s : State) : State :=
  if 0x100 ≤ o ∧ o < 0x300 then writeRegion ((o - 0x100) / 16) (o % 16) v s
  else match o with
  | 0x04 => onMem (fun m => { m with wrRej := m.wrRej && !bit v 2, holdLong := m.holdLong && !bit v 1 }) s
  | 0x18 => if bit v 31 then onMem (fun m => { m with fault := none, faultCount := 0 }) s else s
  | _ => s

/-- IME block: INDEX without GO, and the limits. -/
def writeIme (o v : Nat) (s : State) : State :=
  if o = 0 then (if bit v 31 then s else onMem (fun m => { m with sweepIndex := v % 64 }) s)
  else if 0x110 ≤ o ∧ o < 0x500 ∧ o % 16 = 8 ∧ 32 ≤ v % 64 ∧ v % 64 ≤ 46 then
    let k := (o - 0x100) / 16
    onMem (fun m => { m with imeK := tmod {} m.imeK k (fun x => { x with limit := v % 64 }) }) s
  else s

/-- A ring: COLOUR, BASE and SIZE only while EN is 0; CONS of the event ring; DROP cleared by all ones. -/
def writeRing (r o v : Nat) (s : State) : State :=
  let x := ringOf s r
  match o with
  | 0x00 =>
    let y := { x with en := bit v 0, irqEn := bit v 1, colour := if x.en then x.colour else bits v 13 8 }
    if x.en && !bit v 0 then ringStopped r (setRing r y s) else setRing r y s
  | 0x04 => setRing r { x with accErr := x.accErr && !bit v 1 } s
  | 0x08 => if x.en then s else setRing r { x with base := putLo x.base (v / 64 * 64) } s
  | 0x0C => if x.en then s else setRing r { x with base := putHi x.base v 40 } s
  | 0x10 => if x.en || !decide (4 ≤ v % 16 ∧ v % 16 ≤ 12) then s else setRing r { x with size := v % 16 } s
  | 0x18 => if r = 16 then setRing r { x with cons := v % 4096 } s else s
  | 0x1C => if v = 0xFFFFFFFF then setRing r { x with drop := 0 } s else s
  | _ => s

/-- Lookaside queue Q0; Q1 is Gydom's (R124). -/
def writeLa (o v : Nat) (s : State) : State :=
  let q := laOf s 0
  match o with
  | 0x00 => setLa 0 { q with en := bit v 0, irqEn := bit v 1, colour := if q.en then q.colour else bits v 13 8 } s
  | 0x04 => setLa 0 { q with ringErr := q.ringErr && !bit v 1 } s
  | 0x08 => if q.en then s else setLa 0 { q with descBase := putLo q.descBase (v / 64 * 64) } s
  | 0x0C => if q.en then s else setLa 0 { q with descBase := putHi q.descBase v 40 } s
  | 0x10 => if q.en || !decide (4 ≤ v % 16 ∧ v % 16 ≤ 12) then s else setLa 0 { q with size := v % 16 } s
  | 0x20 => if q.en then s else setLa 0 { q with cplBase := putLo q.cplBase (v / 16 * 16) } s
  | 0x24 => if q.en then s else setLa 0 { q with cplBase := putHi q.cplBase v 40 } s
  | 0x2C => setLa 0 { q with cplCons := v % 4096 } s
  | _ => s

/-- PERF block: overflow bits W1C; PERF_SMP_RD frees the records passed (R359); PERF_SMP_LOST clears. -/
def writePerf (o v : Nat) (s : State) : State :=
  if 0x2000 ≤ o ∧ o < 0x2020 then onPerf (fun p => { p with ovf := p.ovf &&& ~~~(BitVec.ofNat 256 v <<< (8 * (o - 0x2000))) }) s
  else if o = 0x2020 then onPerf (fun p => { p with fovf := p.fovf &&& ~~~(BitVec.ofNat 64 v) }) s
  else if o = 0x2024 then onPerf (fun p => { p with fovf := p.fovf &&& ~~~(BitVec.ofNat 64 v <<< 32) }) s
  else if o = 0x2108 then
    let rd := v % 4096
    onPerf (fun p => { p with smpRd := rd, smpFill := if rd = p.smpRd then p.smpFill else (p.smpWr + 4096 - rd) % 4096 }) s
  else if o = 0x210C then onPerf (fun p => { p with smpLost := 0, smpSkip := 0 }) s
  else s

/-- A board correction within ±1,000,000 ps (R236); a value outside is not stored. -/
def corrOk (v : Nat) : Bool := decide (-1000000 ≤ sx 32 v ∧ sx 32 v ≤ 1000000)

/-- TSQ registers: OVF W1C with what it clears, and the board corrections. -/
def writeTsq (q o v : Nat) (s : State) : State :=
  let x := tsqOf s q
  match o with
  | 0x00 => if bit v 31 then setTsq q { x with ovf := false, firstLost := 0, lost := 0 } s else s
  | 0x20 => if corrOk v then setTsq q { x with corrTx := BitVec.ofNat 32 v } s else s
  | 0x24 => if corrOk v then setTsq q { x with corrRx := BitVec.ofNat 32 v } s else s
  | _ => s

/-- A write to an aligned offset of a domain that is ON. -/
def writeOn (o v : Nat) (s : State) : State :=
  if o < 0x10000 then s
  else if o < 0x20000 then (if o < 0x18000 then writeMbx (o - 0x10000) v s else s)
  else if o < 0x30000 then writeDp (o - 0x20000) v s
  else if o < 0x40000 then writeIrq (o - 0x30000) v s
  else if o < 0x50000 then writeTime (o - 0x40000) v s
  else if o < 0x60000 then writePmu (o - 0x50000) v s
  else if o < 0x70000 then writeStp (o - 0x60000) v s
  else if o < 0x80000 then writeMpu (o - 0x70000) v s
  else if o < 0x90000 then writeIme (o - 0x80000) v s
  else if o < 0xA0000 then s
  else if o < 0xB0000 then (if o < 0xA0440 then writeRing ((o - 0xA0000) / 0x40) ((o - 0xA0000) % 0x40) v s else s)
  else if o < 0x100000 then (if o < 0xB0100 then writeLa (o - 0xB0000) v s else s)
  else if o < 0x140000 then writePerf (o - 0x100000) v s
  else if o < 0x300000 then s
  else if o < 0x301800 then writeTsq ((o - 0x300000) / 0x40) ((o - 0x300000) % 0x40) v s
  else s

/-- A 32-bit write to BAR0 (R361, R362): through PF1 it is dropped; in a domain that is not ON it is OFF_DOMAIN_ACCESS's; a write
that a command of its own stands for changes nothing here. -/
def execRegisterWrite (pf : Pf) (offset : Nat) (value : W32) (s : State) : Result :=
  .next (if written pf s && decide (offset % 4 = 0) && !regOff s offset then writeOn offset value.toNat s else s)

/-- An access to a domain that is not ON (R327): through PF0 it is counted, captured while VALID is clear, and logged; a read returns
all ones through either function. -/
def execOffDomainAccess (pf : Pf) (offset : Nat) (write : Bool) (s : State) : Result :=
  .next (
    if asleep s || !pcieUp s || decide (offset % 4 ≠ 0) then s
    else match regDomain offset with
      | none => s
      | some d =>
        if domOn s d then s
        else
          let s := if pf == .pf1 then s
            else
              let m := s.pmu
              let s := onPmu (fun _ => { m with
                errCount := min 255 (m.errCount + 1)
                errValid := true
                errAddr := if m.errValid then m.errAddr else offset
                errWrite := if m.errValid then m.errWrite else write
                errDom := if m.errValid then m.errDom else d }) s
              logFault 0 6 d (countFault 39 s)
          if write then s else emit (.read (leBytes 4 0xFFFFFFFF)) s)

end Sys2Proof.Machine
end

