-- ==== Sys2Proof/Machine/I2c.lean ====
section
/-! DEFINITION. The board management I2C target (R383). -/

namespace Sys2Proof.Machine

open Sys2Proof

/-- The powered cluster with the highest junction temperature of the last meter round, lowest number first; none before a round. -/
def hottest (s : State) : Option (Nat × Int) :=
  if s.pmu.pAdm = 0 then none
  else (allClusters.filter (powered s)).foldl (fun (b : Option (Nat × Int)) c =>
    let t := (clusterOf s c).temp
    match b with
    | some (k, u) => if u < t then some (c, t) else some (k, u)
    | none => some (c, t)) none

/-- A field of the map: n bytes of a value once known, 0xFF before. -/
def i2cField (n : Nat) : Option Nat → Bytes
  | some v => leBytes n v
  | none => List.replicate n 0xFF

/-- The status map (Table 15-19). -/
def i2cMap (s : State) : Bytes :=
  let m := s.pmu
  let avs (v : Nat) : Option Nat := if m.vout = 0 ∧ m.iout = 0 ∧ m.avsTemp = 0 then none else some v
  leBytes 2 (if s.nvm.part9624 then 0x9624 else 0x9648) ++ [0xB0] ++ leBytes 1 (s.glb.mode.code + 16 * s.glb.lifecycle.code)
  ++ leBytes 1 s.glb.haltCause ++ i2cField 1 ((hottest s).map (·.1)) ++ i2cField 2 ((hottest s).map (fun h => tc 16 h.2))
  ++ i2cField 2 (avs m.vout) ++ i2cField 2 (avs m.iout) ++ i2cField 2 (avs (m.vout * m.iout / 1000)) ++ i2cField 2 (avs m.avsTemp)
  ++ leBytes 4 (logHead s) ++ leBytes 1 (logUnseen s) ++ leBytes 1 (stpPower s) ++ leBytes 2 (tmpState s)
  ++ leBytes 1 (s.pair.state.code + 16 * s.pair.lease.code + 64 * b01 (s.pair.linkUp && domOn s 78)) ++ leBytes 1 (nAct s)
  ++ zeros 6

/-- A byte of the map as last refreshed; zero beyond 0x1F. -/
def i2cByte (s : State) (o : Nat) : Byte :=
  if 0x1A ≤ o then 0 else match s.i2c.snap[o]? with | some b => b | none => 0xFF

/-- Whether the target answers: from 10 ms after the release of reset. -/
def i2cUp (s : State) : Bool := !asleep s && passed s s.glb.releasedAt (10 ^ 7)

/-- The first data byte sets the pointer; further bytes are ignored. -/
def execI2cWrite (bytes : Bytes) (s : State) : Result :=
  .next (match bytes with
    | [] => s
    | b :: _ => if !i2cUp s then s else onI2c (fun i => { i with ptr := b.toNat }) s)

/-- Bytes from the pointer on, out of the snapshot at START; the pointer advances past them. -/
def execI2cRead (count : Nat) (s : State) : Result :=
  .next (
    if !i2cUp s then s
    else
      let d := (upFrom s.i2c.ptr count).map (fun o => i2cByte s (o % 256))
      emit (.i2c d) (onI2c (fun i => { i with ptr := (i.ptr + count) % 256 }) s))

/-- The refresh every 1 ms, in every mode and through a halt. -/
def execI2cSnapshot (s : State) : Result :=
  .next (
    if asleep s || !s.i2c.snapAt.all (fun t => passed s t (10 ^ 6)) then s
    else onI2c (fun i => { i with snap := i2cMap s, snapAt := some s.time.ticks }) s)

end Sys2Proof.Machine
end

