-- ==== Sys2Proof/Machine/System.lean ====
section
/-! DEFINITION. SYS and AUTH commands (R304 to R311, R365 to R369, R389, R397 to R399), the mailbox response and request buffer. -/

namespace Sys2Proof.Machine

open Sys2Proof

def partWord (s : State) : Nat := if s.nvm.part9624 then 0x9624 else 0x9648

/-- Table 16-3. -/
def statusBody (s : State) : Bytes :=
  leBytes 2 (partWord s) ++ [0xB0] ++ leBytes 1 s.glb.mode.code ++ leBytes 1 s.glb.lifecycle.code ++ leBytes 1 s.glb.haltCause
  ++ leBytes 1 s.pair.state.code ++ leBytes 1 s.pair.lease.code ++ leBytes 1 (nAct s) ++ zeros 3
  ++ leBytes 4 s.glb.bootStatus.toNat ++ leBytes 6 s.time.now.sec ++ zeros 2 ++ leBytes 4 s.time.now.ns

/-- SYS.STATUS needs no session and works in every mode (R365). -/
def execSysStatus (mb : Mb) (s : State) : Result := openRequest true mb.val (fun s => ((.ok, statusBody s), s)) s

/-- A general slot that admits the change to PROVISION (R309), for the lifecycle that will hold after it. -/
def enrolSlot (l : Lifecycle) (x : Slot) : Bool := officerSlot x && attrPersist x.attr && attrLc x.attr l

/-- The worlds that Table 11-1 names for a transition. -/
def modeWorlds (m t : Mode) : Option (List World) :=
  match m, t with
  | .enrol, .provision => some off
  | .provision, .service => some offOpr
  | .maintenance, .service => some offOpr
  | .service, .maintenance => some off
  | .enrol, .recovery => some off
  | .provision, .recovery => some off
  | .service, .recovery => some off
  | .maintenance, .recovery => some off
  | _, _ => none

/-- ENROL to PROVISION (R309): from BLANK the SEALED fuses are blown first. -/
def toProvision (mb : Mb) (s : State) : Option Reply × State :=
  let after := if s.glb.lifecycle = .blank then Lifecycle.sealed else s.glb.lifecycle
  if !s.keys.gslot.any (fun p => enrolSlot after p.2) then deny .keyInvalid s
  else if s.glb.lifecycle = .blank then (none, onNvm (fun n => { n with programming := some (.sealed, some mb) }) s)
  else (some (reply .ok), settle s (setMode .provision s))

/-- A command of another mailbox has begun and waits for what completes it. -/
def executing (s : State) (mb : Nat) : Bool := (upFrom 0 16).any (fun m => m != mb && waits s m)

/-- SYS.MODE (R304). It waits until the commands already executing are complete; a recognised reset wins (R305). -/
def execSysMode (mb : Mb) (target : Nat) (s : State) : Result :=
  request offOpr [] mb.val (fun w s =>
    match Mode.ofCode target with
    | none => deny .badValue s
    | some t =>
      match modeWorlds s.glb.mode t with
        | none => deny .mode s
        | some ws =>
          if !ws.contains w then deny .denied s
          else if s.glb.pendingReset.isSome || executing s mb.val then (none, s)
          else match t with
            | .provision => toProvision mb s
            | .service => (none, onGlb (fun g => { g with serviceWait := some mb, serviceRound := false, serviceAt := s.time.ticks }) s)
            | .maintenance => (some (reply .ok), settle s (setMode .maintenance s))
            | .recovery => (some (reply .ok), settle s (enterRecovery s))
            | .boot => deny .mode s
            | .enrol => deny .mode s) s

/-- The lifecycle states from which Table 11-4 allows a target. -/
def lifecycleFrom (target : Nat) : List Lifecycle :=
  if target = 2 then [.blank, .sealed] else if target = 3 then [.blank, .sealed, .debug] else []

def lifecycleModes (target : Nat) : List Mode :=
  if target = 3 then [.maintenance, .recovery] else [.enrol, .provision, .maintenance, .recovery]

/-- SYS.LIFECYCLE (R308): the fuse group is programmed; FUSE_PROGRAM_DONE answers and applies the effect. -/
def execSysLifecycle (mb : Mb) (target confirm : Nat) (s : State) : Result :=
  request off (lifecycleModes target) mb.val (fun _ s =>
    if confirm ≠ 0x4C43 then deny .badValue s
    else if !(lifecycleFrom target).contains s.glb.lifecycle then deny .lifecycle s
    else if s.nvm.programming.isSome then deny .busy s
    else (none, onNvm (fun n => { n with
      programming := some (if target = 2 then Lifecycle.debug else Lifecycle.retired, some mb) }) s)) s

/-- A command whose response is written before it acts (R389, R311). -/
def respondThen (mb : Nat) (act : State → State) (s : State) : Option Reply × State :=
  (none, act (respond mb (answer mb (reply .ok) s)))

/-- SYS.RESET (R311). -/
def execSysReset (mb : Mb) (kind : Nat) (s : State) : Result :=
  request offOpr [] mb.val (fun _ s =>
    if 1 < kind then deny .badValue s
    else respondThen mb.val (if kind = 1 then recogniseReset 3 true else recogniseReset 4 false) s) s

/-- SYS.HALT (R283). -/
def execSysHalt (mb : Mb) (confirm : Nat) (s : State) : Result :=
  request off [.service, .maintenance] mb.val (fun _ s =>
    if confirm ≠ 0x4854 then deny .badValue s else respondThen mb.val (halt haltCommand) s) s

/-- A SYS.PATCH_LOAD of an earlier doorbell on another mailbox is executing (R398). -/
def patchBusy (s : State) (mb : Nat) : Bool :=
  let x := mbxOf s mb
  s.mbx.any (fun p => p.1 != mb && (match p.2.started with
    | some (.sysPatchLoad ..) => x.started.isNone || decide (p.2.order < x.order)
    | _ => false))

/-- SYS.PATCH_LOAD (R398). -/
def execSysPatchLoad (mb : Mb) (addr len colour : Nat) (s : State) : Result :=
  request off [.enrol, .maintenance, .recovery] mb.val (fun w s =>
    if patchBusy s mb.val then deny .busy s
    else if len < 4803 ∨ 4787 + 2092352 < len then deny .badValue s
    else withBuffer w addr colour len (fun b s =>
      match patchCheck b s.nvm.patchFloor with
      | none => deny .badValue s
      | some n =>
        let p : Option Patch := some { serial := n, image := b }
        (some (.ok, leBytes 4 n), onNvm (fun v =>
          if v.selB then { v with patchA := p, selB := false } else { v with patchB := p, selB := true }) s)) s) s

/-- Table 16-6. -/
def patchInfo (s : State) : Bytes :=
  let ser (p : Option Patch) : Nat := (p.map (·.serial)).getD 0
  leBytes 4 s.nvm.patchApplied ++ leBytes 4 (ser s.nvm.patchA) ++ leBytes 4 (ser s.nvm.patchB) ++ leBytes 1 (b01 s.nvm.selB)
  ++ zeros 3 ++ leBytes 4 s.nvm.patchFloor

def execSysPatchInfo (mb : Mb) (s : State) : Result := request anyWorld [] mb.val (fun _ s => done (patchInfo s) s) s

/-! Sessions (R368, R369) -/

/-- A non-zero identifier not used on the mailbox since reset: the drawn value, or the next one that serves. -/
def pickId (used : List W32) : (fuel : Nat) → W32 → W32
  | 0, v => v
  | fuel + 1, v => if v = 0 ∨ used.contains v then pickId used fuel (v + 1) else v

/-- A session opened on a mailbox with a drawn identifier. -/
def openSession (mb : Nat) (w : World) (enrolment : Bool) (s : State) : Reply × State :=
  let (v, s) := draw 32 s
  let x := mbxOf s mb
  let id := pickId x.usedIds (x.usedIds.length + 1) v
  ((.ok, leBytes 4 id.toNat),
   setMbx mb { x with session := some { id := id, world := w, enrolment := enrolment, lastAt := s.time.ticks }, usedIds := x.usedIds ++ [id] } s)

/-- The worlds a mailbox offers (Table 15-7). -/
def offers (mb world : Nat) : Bool :=
  if mb < 4 then world == 0 || world == 1 else if mb < 14 then world == 1 else world == 2

/-- An officer challenge under a general slot: one AUTH use charged. -/
def challenge (mb g : Nat) (s : State) : Reply × State :=
  match useG g useAuth .officer mCp true s with
  | (some st, s) => (reply st, s)
  | (none, s) =>
    let (c, s) := draw 128 s
    ((.ok, beBytes 16 c.toNat), setMbx mb { mbxOf s mb with challenge := some (c, g, s.time.ticks) } s)

def authOpen (mb world g : Nat) (s : State) : Reply × State :=
  let s := closeSession mb s
  if 3 ≤ world then (reply .badValue, s)
  else if !offers mb world then (reply .denied, s)
  else if world ≠ 0 then
    if g ≠ 0 then (reply .badValue, s) else openSession mb (if world = 1 then .operator else .observer) false s
  else if g = 0xFFFF then
    if s.glb.mode ≠ .enrol ∨ s.mbx.any (fun p => p.2.session.any (·.enrolment)) = true then (reply .denied, s)
    else openSession mb .officer true s
  else if 1024 ≤ g then (reply .badValue, s)
  else challenge mb g s

def execAuthOpen (mb : Mb) (world gslot : Nat) (s : State) : Result := openRequest false mb.val (authOpen mb.val world gslot) s

/-- The proof of a challenge: AES-CMAC under the slot's key (R368). -/
def proofOf (s : State) (mb : Nat) (c : BitVec 128) (key : NatList) : Nat :=
  natBe (cmac key (beOct 16 c.toNat ++ beOct 8 (deviceId s) ++ [mb, 0]))

def authProve (mb proof : Nat) (s : State) : Reply × State :=
  let x := mbxOf s mb
  let s := setMbx mb { x with challenge := none } s
  match x.challenge with
  | none => (reply .denied, s)
  | some (c, g, t) =>
    if t + 10 ^ 9 < s.time.ticks then (reply .denied, s)
    else if (gslotOf s g).state = .empty ∨ (gslotOf s g).state = .invalid then (reply .denied, s)
    else match readG g s with
      | (none, s) => (reply .keyInvalid, s)
      | (some key, s) => if proofOf s mb c key = proof then openSession mb .officer false s else (reply .denied, s)

def execAuthProve (mb : Mb) (proof : Nat) (s : State) : Result := openRequest false mb.val (authProve mb.val proof) s

def execAuthClose (mb : Mb) (s : State) : Result :=
  request anyWorld [] mb.val (fun _ s => done [] (closeSession mb.val s)) s

/-- An OFFICER session idle for officer_idle_s closes (R369). -/
def execSessionIdleExpire (mb : Mb) (s : State) : Result :=
  .next (
    if asleep s then s
    else match (mbxOf s mb.val).session with
      | some w =>
        if w.world = .officer ∧ passed s w.lastAt (attr s clsDev 0 0x0C * 10 ^ 9) = true then closeSession mb.val s else s
      | none => s)

/-! The mailbox's buffers -/

/-- The function a mailbox lies in. -/
def mbxPf (mb : Nat) : Pf := if mb < 14 then .pf0 else .pf1

/-- A write to the request buffer (R364): dropped with WR_REJ while BUSY, and dropped through the other function (R361). -/
def execMailboxReqWrite (pf : Pf) (mb : Mb) (offset : Nat) (value : W32) (s : State) : Result :=
  .next (
    let x := mbxOf s mb.val
    if asleep s || !pcieUp s || mbxPf mb.val != pf || decide (512 ≤ offset) || offset % 4 != 0 then s
    else if x.busy then setMbx mb.val { x with wrRej := true } s
    else setMbx mb.val { x with req := putBytes x.req offset (leBytes 4 value.toNat) } s)

/-- Gydom writes the response (R363). -/
def execMailboxResponse (mb : Mb) (s : State) : Result := .next (if asleep s then s else respond mb.val s)

end Sys2Proof.Machine
end

