-- ==== Sys2Proof/Machine/KeyCmds.lean ====
section
/-! DEFINITION. KEY commands (Table 5-6, R147 to R160, R166): import, generate, derive, wrap, unwrap, restrict, destroy, zeroize. -/

namespace Sys2Proof.Machine

open Sys2Proof

def epsm : List Mode := [.enrol, .provision, .service, .maintenance]

/-- A key command. While the destruction line is driven it answers HALTED before any check (R166). What refuses every key command in
RETIRED or after a failed known-answer test comes before the check of the mode, which such a device's RECOVERY would fail. -/
def keyRequest (worlds : List World) (modes : List Mode) (mb : Nat) (run : World → State → Option Reply × State) (s : State) :
    Result :=
  if lineDriven s then refuseRequest mb .halted s
  else match keyGate s with
    | some st => request worlds [] mb (fun _ s => deny st s) s
    | none => request worlds modes mb run s

/-- A command that reads the working copy of the DRK: an error in it halts (R165). -/
def withRoot (run : State → Option Reply × State) (s : State) : Option Reply × State :=
  if rootGood s then run s else (some (reply .halted), halt haltKeyState s)

/-! The slot an install names (R149, R151, R156) -/

def spaceCount (space : Nat) : Nat := if space = 0 then 65536 else 1024

/-- The slot that a waiting install names. -/
def installTarget (s : State) : Instr → Option (Nat × Nat)
  | .keyGenerate _ space slot _ => some (space, slot)
  | .keyDerive _ r => some (r.space, r.slot)
  | .keyUnwrap _ target _ _ _ => some (1, target)
  | .keyImport _ addr _ colour =>
    let b := memRead s colour addr 24
    some (beAt b 16 2, beAt b 20 4)
  | _ => none

/-- A second install naming a slot is BUSY while one of an earlier doorbell on another mailbox has not yet committed (R149, R367). -/
def slotBusy (s : State) (mb space slot : Nat) : Bool :=
  let x := mbxOf s mb
  s.mbx.any (fun p => p.1 != mb && (match p.2.started with
    | some i => installTarget s i == some (space, slot) && (x.started.isNone || decide (p.2.order < x.order))
    | none => false))

/-- The checks of a named slot: its range, the standby, R156 and R149. -/
def slotChecks (s : State) (mb space slot : Nat) : Option Status :=
  if 2 ≤ space then some .badValue
  else if spaceCount space ≤ slot then some .badObject
  else if isStandby s then some .denied
  else if space = 0 ∧ chanSlotRefused s slot then some .denied
  else if slotBusy s mb space slot then some .busy
  else none

/-- The requested word: zero for a channel slot (R150), R151 for a general slot. -/
def wordChecks (space : Nat) (word : W64) (w : World) : Option Status :=
  if space = 0 then (if word = 0 then none else some .badValue) else checkWord word (w == .officer)

/-- The key of a slot's KTYPE: 16 octets and zeros for a 128-bit one. -/
def keyFor (ktype : Nat) (k : Key) : Key := keyOf ((keyOctets k).take (ktypeBytes ktype))

/-- The KTYPE an install leaves: that of the fixed word for a channel slot. -/
def installKtype (s : State) (space slot : Nat) (word : W64) : Nat :=
  if space = 0 then (if cattr s (slot / 2) 5 = 1 then 2 else 1) else attrKtype word

/-- Whether a slot is mirrored (Table 10-10). -/
def slotMirrored (s : State) (space slot : Nat) : Bool := space == 0 || attrMaster (gslotOf s slot).attr mMate
def slotObject (space slot : Nat) : Nat := if space = 0 then mirKslot slot else mirGslot slot

/-- A key installed with its ORIGIN and, for a mirrored slot of a READY pair, the partner's acknowledgment awaited (R295). -/
def install (mb space slot : Nat) (word : W64) (origin : Nat) (key : Key) (salt : Salt) (s : State) : Option Reply × State :=
  let k := keyFor (installKtype s space slot word) key
  let (st, t) := if space = 0 then (none, installK slot (cattr s (slot / 2) 5) origin k salt s)
    else installPersisted slot (withOrigin word origin) k s
  match st with
  | some e => (some (reply e), t)
  | none =>
    if slotMirrored t space slot || slotMirrored s space slot then
      let (r, u) := afterMirror mb (slotObject space slot) (s.pair.state == .ready) (reply .ok) (touch (slotObject space slot) t)
      (r, settle s u)
    else done [] (settle s t)

/-! Commands -/

def execKeyIdentity (mb : Mb) (addr colour : Nat) (s : State) : Result :=
  keyRequest anyWorld [] mb.val (fun w s =>
    if s.keys.entropyHeld && !s.keys.identityUsed then deny .busy s
    else withRoot (fun s =>
      let (r, s) := intoBuffer w addr colour (identityItem s) (leBytes 8 (deviceId s)) s
      match r with
      | some (.ok, b) => (some (.ok, b), onKeys (fun k => { k with identityUsed := true }) s)
      | o => (o, s)) s) s

def execKeyGenerate (mb : Mb) (space slot attr : Nat) (s : State) : Result :=
  keyRequest offOpr epsm mb.val (fun w s =>
    let word : W64 := BitVec.ofNat 64 attr
    match slotChecks s mb.val space slot with
    | some st => deny st s
    | none =>
      match wordChecks space word w with
      | some st => deny st s
      | none =>
        if s.keys.entropyHeld then deny .busy s
        else
          let s := onKeys (fun k => { k with reseeded := s.time.ticks }) s
          let (k, s) := draw 256 s
          let (z, s) := draw 96 s
          install mb.val space slot word 1 k z s) s

/-- The derived key and salt (R73, R138): L is the length of the slot's key, and 96 bits more for a channel slot's salt. -/
def deriveKey (source label context : NatList) (space ktype : Nat) : Key × Salt :=
  let size := ktypeBytes ktype
  let out := kdf source label context (8 * size + if space = 0 then 96 else 0)
  (keyOf (out.take size), if space = 0 then BitVec.ofNat 96 (natBe (out.drop size)) else 0)

def execKeyDerive (mb : Mb) (req : DeriveReq) (s : State) : Result :=
  keyRequest offOpr epsm mb.val (fun w s =>
    let word : W64 := BitVec.ofNat 64 req.attr
    if req.label.isEmpty || decide (64 < req.label.length) || decide (255 < req.context.length) then deny .badValue s
    else if req.label.head? = some 0x58 then deny .badValue s
    else match slotChecks s mb.val req.space req.slot with
    | some st => deny st s
    | none =>
      if 1024 ≤ req.source then deny .badObject s
      else match wordChecks req.space word w with
      | some st => deny st s
      | none =>
        match useG req.source useDerive w mCp true s with
        | (some st, s) => deny st s
        | (none, s) =>
          match readG req.source s with
          | (none, s) => deny .keyInvalid s
          | (some k, s) =>
            let d := deriveKey k (octets req.label) (octets req.context) req.space (installKtype s req.space req.slot word)
            install mb.val req.space req.slot word 4 d.1 d.2 s) s

/-- A blob's fields (Table 5-7), checks 1 to 5 of Table 5-8. -/
def blobChecks (s : State) (mb : Nat) (w : World) (b : Bytes) : Option Status :=
  let kind := beAt b 16 2
  let target := beAt b 20 4
  if beAt b 0 4 ≠ 0x584B4931 ∨ beAt b 4 2 ≠ 1 ∨ beAt b 6 2 ≠ 0 ∨ beAt b 18 2 ≠ 0 ∨ 2 ≤ kind then some .badValue
  else if beAt b 8 8 ≠ deviceId s then some .badValue
  else match slotChecks s mb kind target with
    | some st => some st
    | none => wordChecks kind (BitVec.ofNat 64 (beAt b 24 8)) w

/-- A blob opened (R158): the plaintext, none where a check fails. -/
def openBlob (s : State) (b : Bytes) : Option Bytes :=
  let q := bsub b 1120 97
  match pointOf (octets q) with
  | none => none
  | some pt =>
    let ct := bsub b 32 1088
    let head := octets (b.take 32)
    let ec := ecdh (importScalar s) pt
    let ctx := ec.drop 32 ++ head ++ octets ct ++ octets q
    let ka := kdf (kemDecaps (beOct 64 (importSeed s).toNat) (octets ct)) (octets (ascii "XIMP-A")) ctx 256
    let kb := kdf (ec.take 32) (octets (ascii "XIMP-B")) ctx 256
    let (plain, okTag) := gcmDec (xor4 ka kb) (List.replicate 12 0) head (octets (bsub b 1217 48)) (octets (bsub b 1265 16))
    if okTag then some (ofOctets plain) else none

def execKeyImport (mb : Mb) (addr len colour : Nat) (s : State) : Result :=
  keyRequest offOpr epsm mb.val (fun w s =>
    if len ≠ 1281 then deny .badValue s
    else withRoot (withBuffer w addr colour len (fun b s =>
      match blobChecks s mb.val w b with
      | some st => deny st s
      | none =>
        match openBlob s b with
        | none => deny .badValue s
        | some p =>
          let space := beAt b 16 2
          let slot := beAt b 20 4
          let word : W64 := BitVec.ofNat 64 (beAt b 24 8)
          if !allZero (bsub p 44 4) || (ktypeBytes (installKtype s space slot word) == 16 && !allZero (bsub p 16 16)) then
            deny .badValue s
          else
            let salt : Salt := if space = 0 then BitVec.ofNat 96 (beAt p 32 12) else 0
            install mb.val space slot word 2 (keyOf (octets (p.take 32))) salt s)) s) s

/-- The use of the slot that KEY.WRAP exports: EXPORTABLE stands at step 2 of R152, and no use of it is charged. -/
def exportCheck (g : Nat) (w : World) (s : State) : Option Status × State :=
  let x := gslotOf s g
  match x.state.refusal with
  | some st => (some st, s)
  | none =>
    if !attrExportable x.attr || !attrWorld x.attr w || !attrMaster x.attr mCp || !attrLc x.attr s.glb.lifecycle
        || !attrMode x.attr s.glb.mode then (some .keyAttr, s)
    else if expired s x then (some .keyExpired, putG g { x with state := .expired } s)
    else (none, s)

/-- The 48 bytes of a wrapped slot: key, then attribute word in network order (log 19). -/
def wrapped (kek : NatList) (x : Slot) : Bytes := ofOctets (kwWrap kek (keyOctets (lineKey x.line) ++ beOct 8 x.attr.toNat))

def execKeyWrap (mb : Mb) (gslot wrapping addr colour : Nat) (s : State) : Result :=
  keyRequest off [.provision, .maintenance] mb.val (fun w s =>
    if 1024 ≤ gslot ∨ 1024 ≤ wrapping then deny .badObject s
    else if holding s then (none, s)
    else match exportCheck gslot w s with
    | (some st, s) => deny st s
    | (none, s) =>
      match useG wrapping useWrap w mCp true s with
      | (some st, s) => deny st s
      | (none, s) =>
        match readG wrapping s with
        | (none, s) => deny .keyInvalid s
        | (some kek, s) =>
          match readG gslot s with
          | (none, s) => deny .keyInvalid s
          | (some _, s) => intoBuffer w addr colour (wrapped kek (gslotOf s gslot)) [] s) s

def execKeyUnwrap (mb : Mb) (target unwrapping addr colour : Nat) (s : State) : Result :=
  keyRequest off epsm mb.val (fun w s =>
    if 1024 ≤ unwrapping then deny .badObject s
    else match slotChecks s mb.val 1 target with
    | some st => deny st s
    | none => withBuffer w addr colour 48 (fun b s =>
      match useG unwrapping useUnwrap w mCp true s with
      | (some st, s) => deny st s
      | (none, s) =>
        match readG unwrapping s with
        | (none, s) => deny .keyInvalid s
        | (some kek, s) =>
          match kwUnwrap kek (octets b) with
          | none => deny .badValue s
          | some p =>
            let word : W64 := withOrigin (BitVec.ofNat 64 (natBe ((p.drop 32).take 8))) 0
            match wordChecks 1 word w with
            | some st => deny st s
            | none => install mb.val 1 target word 3 (keyOf (p.take 32)) 0 s) s) s

/-- The bits that KEY.RESTRICT may clear: USAGE and the four masks. -/
def restrictable : W64 := 0xFFFFFFF0

def unchangedUses : Nat := 0xFFFFFFFF

/-- KEY.RESTRICT (R155). -/
def execKeyRestrict (mb : Mb) (gslot uses clear : Nat) (s : State) : Result :=
  keyRequest offOpr epsm mb.val (fun w s =>
    if 1024 ≤ gslot then deny .badObject s
    else
      let x := gslotOf s gslot
      let c : W64 := BitVec.ofNat 64 clear
      match x.state.refusal with
      | some st => deny st s
      | none =>
        if !attrWorld x.attr w then deny .keyAttr s
        else if isStandby s && attrMaster x.attr mMate then deny .denied s
        else if c &&& ~~~restrictable ≠ 0 then deny .badValue s
        else if uses ≠ unchangedUses ∧ (2 ^ 24 ≤ uses ∨ (attrUseLimit x.attr = true ∧ attrUsesLeft x.attr < uses)) then
          deny .badValue s
        else
          let a := x.attr &&& ~~~c
          let a := if uses = unchangedUses then a else withUses (a ||| ((1 : W64) <<< 39)) uses
          let spent := attrUseLimit a && attrUsesLeft a == 0
          let t := putG gslot { x with attr := a, state := if spent then .spent else .valid } s
          let t := if spent then raise evKeySpent (leBytes 1 1 ++ leBytes 2 gslot) t else t
          done [] (if attrMaster x.attr mMate then touch (mirGslot gslot) t else t)) s

/-- Steps 3 to 6 of R152, from which KEY.DESTROY by an OFFICER is exempt; a slot without a key has no word to check. -/
def destroyDenied (s : State) (w : World) (x : Slot) : Bool :=
  w != .officer && x.state != .empty && x.state != .invalid
  && (!attrWorld x.attr w || !attrMaster x.attr mCp || !attrLc x.attr s.glb.lifecycle || !attrMode x.attr s.glb.mode)

def execKeyDestroy (mb : Mb) (space slot : Nat) (s : State) : Result :=
  keyRequest offOpr [] mb.val (fun w s =>
    if 2 ≤ space then deny .badValue s
    else if spaceCount space ≤ slot then deny .badObject s
    else
      let x := if space = 0 then kslotOf s slot else gslotOf s slot
      let mirr := slotMirrored s space slot
      if isStandby s && mirr then deny .denied s
      else if space = 0 ∧ chanSlotRefused s slot then deny .denied s
      else if destroyDenied s w x then deny .keyAttr s
      else
        let t := if space = 0 then destroyK slot s else destroyG slot (erasePersist slot s)
        let t := if mirr then touch (slotObject space slot) t else t
        done [] (settle s t)) s

/-- KEY.ZEROIZE: its response is written, then the line is driven (R166, R389). -/
def execKeyZeroize (mb : Mb) (confirm : Nat) (s : State) : Result :=
  if lineDriven s then refuseRequest mb.val .halted s
  else request off [] mb.val (fun _ s =>
    if confirm ≠ 0x5A45 then deny .badValue s else respondThen mb.val (destroy 1) s) s

end Sys2Proof.Machine
end

