-- ==== Sys2Proof/Machine/Doorbell.lean ====
section
/-! DEFINITION. The mailbox doorbell (R363 to R367): the request header (Table 15-4), the checks of Table 15-6 that come before a command's
own, and the request bodies (Table 16-2) read into commands. -/

namespace Sys2Proof.Machine

open Sys2Proof

/-! Request bodies (R384): none where the length is wrong, BAD_VALUE where a reserved field is not zero (R6) -/

/-- What a body reads as: a command, or the answer to its form. -/
abbrev Form := Except Reply Instr

/-- A body of n bytes whose reserved parts, given as offset and size, are zero. -/
def fixed (n : Nat) (reserved : List (Nat × Nat)) (b : Bytes) (i : Instr) : Form :=
  if b.length ≠ n then .error (reply .badLength)
  else if !reserved.all (fun r => allZero (bsub b r.1 r.2)) then .error (reply .badValue)
  else .ok i

/-- n rounded up to a multiple of 4. -/
def pad4 (n : Nat) : Nat := cdiv n 4 * 4

/-- The entries of a set body (R393); where the body does not hold them, the index of the entry that runs past it. -/
def readEntries : (n i : Nat) → Bytes → Except Nat (List SetEntry)
  | 0, i, b => if b.isEmpty then .ok [] else .error (i - 1)
  | n + 1, i, b =>
    let len := leAt b 4 1
    let size := 8 + pad4 len
    if b.length < 8 ∨ b.length < size then .error i
    else
      let e : SetEntry := {
        id := leAt b 0 4, len := len, value := leAt b 8 len,
        clean := allZero (bsub b 5 3) && allZero (bsub b (8 + len) (pad4 len - len)) }
      match readEntries n (i + 1) (b.drop size) with
      | .ok l => .ok (e :: l)
      | .error k => .error k

/-- A set body: count, reserved, entries (R393). -/
def setForm (b : Bytes) (i : Entries → Instr) : Form :=
  if b.length < 4 then .error (setReply .badLength 0)
  else match readEntries (leAt b 0 2) 0 (b.drop 4) with
    | .error k => .error (setReply .badLength k)
    | .ok l => .ok (i { list := l, reservedZero := allZero (bsub b 2 2) })

/-- The body of OBJ.GET (R392). -/
def getForm (mb : Mb) (b : Bytes) : Form :=
  let n := leAt b 0 2
  if b.length ≠ 4 + 4 * n then .error (reply .badLength)
  else if !allZero (bsub b 2 2) then .error (reply .badValue)
  else .ok (.objGet mb ((upFrom 0 n).map (fun k => leAt b (4 + 4 * k) 4)))

/-- The body of a bulk command (R396); r gives the answer to a status. -/
def bulkForm (r : Status → Reply) (b : Bytes) (i : BulkReq → Instr) : Form :=
  let n := leAt b 1 1
  if b.length ≠ 20 + pad4 n then .error (r .badLength)
  else if !allZero (bsub b 17 3) || !allZero (b.drop (20 + n)) then .error (r .badValue)
  else .ok (i { cls := leAt b 0 1, codes := (upFrom 0 n).map (fun k => leAt b (20 + k) 1), first := leAt b 2 2, count := leAt b 4 4,
                addr := leAt b 8 8, colour := leAt b 16 1 })

/-- The body of KEY.DERIVE. -/
def deriveForm (mb : Mb) (b : Bytes) : Form :=
  let l := leAt b 6 1
  let c := leAt b 7 1
  if b.length ≠ 16 + l + c then .error (reply .badLength)
  else if !allZero (bsub b 1 1) then .error (reply .badValue)
  else .ok (.keyDerive mb { space := leAt b 0 1, slot := leAt b 2 2, source := leAt b 4 2, attr := leAt b 8 8, label := bsub b 16 l,
                            context := bsub b (16 + l) c })

/-- A classification key from hport, flags and VIDs at offset 2 of the body of CHAN.MAP and CHAN.UNMAP. -/
def keyAt (b : Bytes) : ClassKey :=
  let f := leAt b 3 1
  { hport := leAt b 2 1, outer := if bit f 0 then some (leAt b 4 2) else none, inner := if bit f 1 then some (leAt b 6 2) else none }

/-- CHAN.MAP and CHAN.UNMAP: flag bits 7:2 are reserved. -/
def keyForm (reserved : List (Nat × Nat)) (b : Bytes) (i : ClassKey → Instr) : Form :=
  if b.length ≠ 8 then .error (reply .badLength)
  else if 4 ≤ leAt b 3 1 ∨ !reserved.all (fun r => allZero (bsub b r.1 r.2)) then .error (reply .badValue)
  else .ok (i (keyAt b))

/-! The command set (Table 16-2) -/

/-- Who may issue a command, and in which modes; [] is every mode but BOOT. A set command's path is its own matter (R393). -/
structure CmdGate where
  worlds : List World
  modes : List Mode := []
  noSession : Bool := false

/-- A command of the set: its gate, and its body read. -/
structure Cmd where
  gate : CmdGate
  form : Form

/-- A body that names one buffer: ADDR (8), COLOUR (1), reserved (3). -/
def bufForm (b : Bytes) (i : Nat → Nat → Instr) : Form := fixed 12 [(9, 3)] b (i (leAt b 0 8) (leAt b 8 1))

/-- A body that names a buffer with its length. -/
def lenForm (b : Bytes) (i : Nat → Nat → Nat → Instr) : Form := fixed 16 [(13, 3)] b (i (leAt b 0 8) (leAt b 8 4) (leAt b 12 1))

/-- A body of one byte and three reserved. -/
def byteForm (b : Bytes) (i : Nat → Instr) : Form := fixed 4 [(1, 3)] b (i (leAt b 0 1))

/-- A body of two bytes and two reserved. -/
def wordForm (b : Bytes) (i : Nat → Instr) : Form := fixed 4 [(2, 2)] b (i (leAt b 0 2))

/-- KEY.WRAP and KEY.UNWRAP. -/
def wrapForm (b : Bytes) (i : Nat → Nat → Nat → Nat → Instr) : Form :=
  fixed 20 [(4, 4), (17, 3)] b (i (leAt b 0 2) (leAt b 2 2) (leAt b 8 8) (leAt b 16 1))

/-- SYS and AUTH. -/
def cmdSys (mb : Mb) (b : Bytes) : Nat → Option Cmd
  | 0x0101 => some { gate := { worlds := anyWorld, noSession := true }, form := fixed 0 [] b (.sysStatus mb) }
  | 0x0102 => some { gate := { worlds := offOpr }, form := byteForm b (.sysMode mb) }
  | 0x0103 => some {
      gate := { worlds := off, modes := lifecycleModes (leAt b 0 1) }
      form := fixed 4 [(1, 1)] b (.sysLifecycle mb (leAt b 0 1) (leAt b 2 2)) }
  | 0x0104 => some { gate := { worlds := offOpr }, form := byteForm b (.sysReset mb) }
  | 0x0105 => some { gate := { worlds := off, modes := [.service, .maintenance] }, form := wordForm b (.sysHalt mb) }
  | 0x0106 => some {
      gate := { worlds := offOpr }
      form := fixed 16 [(6, 2), (13, 3)] b (.sysTimeStep mb (leAt b 0 6) (leAt b 8 4) (leAt b 12 1)) }
  | 0x0107 => some { gate := { worlds := off, modes := [.enrol, .maintenance, .recovery] }, form := lenForm b (.sysPatchLoad mb) }
  | 0x0108 => some { gate := { worlds := anyWorld }, form := fixed 0 [] b (.sysPatchInfo mb) }
  | 0x0201 => some {
      gate := { worlds := anyWorld, noSession := true }
      form := fixed 4 [(1, 1)] b (.authOpen mb (leAt b 0 1) (leAt b 2 2)) }
  | 0x0202 => some { gate := { worlds := anyWorld, noSession := true }, form := fixed 16 [] b (.authProve mb (beAt b 0 16)) }
  | 0x0203 => some { gate := { worlds := anyWorld }, form := fixed 0 [] b (.authClose mb) }
  | _ => none

/-- OBJ and KEY. -/
def cmdKey (mb : Mb) (b : Bytes) : Nat → Option Cmd
  | 0x0301 => some { gate := { worlds := anyWorld }, form := getForm mb b }
  | 0x0302 => some { gate := { worlds := anyWorld }, form := setForm b (.objSet mb) }
  | 0x0303 => some { gate := { worlds := anyWorld }, form := bulkForm reply b (.objBulkRead mb) }
  | 0x0304 => some { gate := { worlds := anyWorld }, form := bulkForm (fun st => bulkReply st 0 0) b (.objBulkWrite mb) }
  | 0x0401 => some { gate := { worlds := anyWorld }, form := bufForm b (.keyIdentity mb) }
  | 0x0402 => some { gate := { worlds := offOpr, modes := epsm }, form := lenForm b (.keyImport mb) }
  | 0x0403 => some {
      gate := { worlds := offOpr, modes := epsm }
      form := fixed 12 [(1, 1)] b (.keyGenerate mb (leAt b 0 1) (leAt b 2 2) (leAt b 4 8)) }
  | 0x0404 => some { gate := { worlds := offOpr, modes := epsm }, form := deriveForm mb b }
  | 0x0405 => some { gate := { worlds := off, modes := [.provision, .maintenance] }, form := wrapForm b (.keyWrap mb) }
  | 0x0406 => some { gate := { worlds := off, modes := epsm }, form := wrapForm b (.keyUnwrap mb) }
  | 0x0407 => some {
      gate := { worlds := offOpr, modes := epsm }
      form := fixed 16 [(2, 2)] b (.keyRestrict mb (leAt b 0 2) (leAt b 4 4) (leAt b 8 8)) }
  | 0x0408 => some { gate := { worlds := offOpr }, form := fixed 4 [(1, 1)] b (.keyDestroy mb (leAt b 0 1) (leAt b 2 2)) }
  | 0x0409 => some { gate := { worlds := off }, form := wordForm b (.keyZeroize mb) }
  | _ => none

/-- CHAN, CA, LINK and SCHED. -/
def cmdChan (mb : Mb) (b : Bytes) : Nat → Option Cmd
  | 0x0501 => some { gate := { worlds := offOpr, modes := psm }, form := wordForm b (.chanCreate mb) }
  | 0x0502 => some { gate := { worlds := anyWorld, modes := psm }, form := setForm b (.chanSet mb) }
  | 0x0503 => some { gate := { worlds := offOpr, modes := psm }, form := wordForm b (.chanEnable mb) }
  | 0x0504 => some { gate := { worlds := offOpr, modes := psm }, form := wordForm b (.chanDisable mb) }
  | 0x0505 => some { gate := { worlds := offOpr, modes := psm }, form := keyForm [] b (.chanMap mb (leAt b 0 2)) }
  | 0x0506 => some { gate := { worlds := offOpr, modes := psm }, form := keyForm [(0, 2)] b (.chanUnmap mb) }
  | 0x0507 => some { gate := { worlds := offOpr, modes := psm }, form := wordForm b (.chanSwitch mb) }
  | 0x0601 => some {
      gate := { worlds := offOpr, modes := psm }
      form := fixed 8 [(6, 2)] b (.caCreate mb (leAt b 0 2) (leAt b 2 2) (leAt b 4 2)) }
  | 0x0602 => some { gate := { worlds := offOpr, modes := psm }, form := setForm b (.caSet mb) }
  | 0x0603 => some {
      gate := { worlds := offOpr, modes := [.service, .maintenance] }
      form := fixed 8 [(2, 2)] b (.caRekey mb (leAt b 0 2) (leAt b 4 4)) }
  | 0x0604 => some { gate := { worlds := offOpr, modes := psm }, form := wordForm b (.caDelete mb) }
  | 0x0701 => some { gate := { worlds := offOpr, modes := psm }, form := setForm b (.linkSet mb) }
  | 0x0702 => some { gate := { worlds := offOpr, modes := psm }, form := byteForm b (.linkRestart mb) }
  | 0x0801 => some { gate := { worlds := offOpr, modes := psm }, form := setForm b (.schedPolicer mb) }
  | 0x0802 => some { gate := { worlds := offOpr, modes := psm }, form := setForm b (.schedShaper mb) }
  | 0x0803 => some { gate := { worlds := offOpr, modes := psm }, form := setForm b (.schedWeight mb) }
  | 0x0804 => some {
      gate := { worlds := offOpr, modes := psm }
      form := fixed 20 [(1, 1), (17, 3)] b (.schedGateLoad mb (leAt b 0 1) (leAt b 2 2) (leAt b 4 4) (leAt b 8 8) (leAt b 16 1)) }
  | 0x0805 => some {
      gate := { worlds := offOpr, modes := psm }
      form := fixed 16 [(1, 1), (12, 4)] b (.schedGateCommit mb (leAt b 0 1) (leAt b 2 6) (leAt b 8 4)) }
  | 0x0806 => some { gate := { worlds := offOpr, modes := psm }, form := byteForm b (.schedGateCancel mb) }
  | _ => none

/-- PAIR to DP. -/
def cmdRest (mb : Mb) (b : Bytes) : Nat → Option Cmd
  | 0x0901 => some { gate := { worlds := off, modes := [.provision, .maintenance] }, form := bufForm b (.pairBind mb) }
  | 0x0902 => some { gate := { worlds := off, modes := [.provision, .maintenance] }, form := fixed 0 [] b (.pairUnbind mb) }
  | 0x0903 => some { gate := { worlds := off, modes := psm }, form := fixed 0 [] b (.pairSolo mb) }
  | 0x0904 => some { gate := { worlds := offOpr, modes := [.service, .maintenance] }, form := fixed 0 [] b (.pairHandover mb) }
  | 0x0905 => some { gate := { worlds := off, modes := psm }, form := setForm b (.pairSet mb) }
  | 0x0A01 => some { gate := { worlds := offOpr, modes := psm }, form := byteForm b (.clTest mb) }
  | 0x0B01 => some { gate := { worlds := anyWorld, modes := psm }, form := setForm b (.pmuSet mb) }
  | 0x0C01 => some { gate := { worlds := anyWorld }, form := bufForm b (.calRead mb) }
  | 0x0C02 => some { gate := { worlds := off, modes := [.maintenance, .recovery] }, form := bufForm b (.calWrite mb) }
  | 0x0C03 => some { gate := { worlds := off, modes := [.maintenance] }, form := fixed 0 [] b (.calHbmTest mb { it := [], met := false }) }
  | 0x0C04 => some { gate := { worlds := offOpr, modes := psm }, form := byteForm b (.calSerdes mb) }
  | 0x0D01 => some { gate := { worlds := anyWorld }, form := fixed 8 [(5, 3)] b (.logTamper mb (leAt b 0 4) (leAt b 4 1)) }
  | 0x0D02 => some { gate := { worlds := anyWorld }, form := fixed 8 [(5, 3)] b (.logFaults mb (leAt b 0 4) (leAt b 4 1)) }
  | 0x0E01 => some { gate := { worlds := offOpr }, form := byteForm b (.laReset mb) }
  | 0x0F01 => some { gate := { worlds := offOpr }, form := setForm b (.perfSet mb) }
  | 0x0F02 => some {
      gate := { worlds := anyWorld }
      form := fixed 16 [(1, 3), (13, 3)] b (.perfSumpRead mb (leAt b 0 1) (leAt b 4 8) (leAt b 12 1)) }
  | 0x1001 => some { gate := { worlds := offOpr }, form := fixed 0 [] b (.dpClaim mb) }
  | 0x1002 => some { gate := { worlds := offOpr }, form := fixed 0 [] b (.dpRelease mb) }
  | _ => none

/-- The command that CMD names, with its body read; none for an unknown one. -/
def readCmd (mb : Mb) (cmd : Nat) (b : Bytes) : Option Cmd :=
  if cmd < 0x0300 then cmdSys mb b cmd
  else if cmd < 0x0500 then cmdKey mb b cmd
  else if cmd < 0x0900 then cmdChan mb b cmd
  else cmdRest mb b cmd

/-! The checks of Table 15-6 -/

/-- Checks 8 and 9 for a body that does not read as a command: its answer. -/
def formAnswer (s : State) (x : Mbx) (g : CmdGate) (r : Reply) : Reply :=
  if g.noSession then r
  else match x.session with
    | none => reply .denied
    | some w =>
      if !g.worlds.contains w.world then reply .denied
      else if !g.modes.isEmpty && !g.modes.contains s.glb.mode then reply .mode
      else r

/-- Checks 5 to 9: the command to execute, or the answer. -/
def requestChecks (s : State) (mb : Mb) (x : Mbx) (cmd session : Nat) (b : Bytes) : Form :=
  if s.glb.mode = .boot ∧ cmd ≠ 0x0101 then .error (reply .mode)
  else match readCmd mb cmd b with
    | none => .error (reply .badCmd)
    | some c =>
      let own := match x.session with | some w => w.id.toNat == session | none => false
      if !own && !(c.gate.noSession && session == 0) then .error (reply .denied)
      else match c.form with
        | .ok i => .ok i
        | .error r => .error (formAnswer s x c.gate r)

/-- A doorbell of a mailbox that is not BUSY: BUSY sets, DONE clears, and Gydom checks the request. -/
def ring (mb : Mb) (s : State) : State :=
  let x := mbxOf s mb.val
  let buf := (upFrom 0 512).map (tget 0 x.req)
  let seq := BitVec.ofNat 32 (leAt buf 0 4)
  let session := BitVec.ofNat 32 (leAt buf 10 4)
  let n := leAt buf 6 2
  let flags := leAt buf 8 2
  let s := onGlb (fun g => { g with doorbells := g.doorbells + 1 }) s
  let y := { x with
    busy := true, done := false, seq := seq, irq := bit flags 0, rung := s.time.ticks, order := s.glb.doorbells,
    started := none, answer := none }
  let refuse (st : Status) : State := setMbx mb.val { y with answer := some { status := st, cached := false } } s
  if halted s then refuse .halted
  else if 496 < n then refuse .badLength
  else if 2 ≤ flags ∨ leAt buf 14 2 ≠ 0 then refuse .badValue
  else if x.last = some (seq, session) then
    setMbx mb.val { y with answer := x.cache.map (fun a => { a with dup := true }) } s
  else
    let y := { y with last := some (seq, session), cache := none }
    let cmd := leAt buf 4 2
    let own := x.session.any (fun w => w.id == session) && (s.glb.mode != .boot || cmd == 0x0101) && (readCmd mb cmd []).isSome
    let t (y : Mbx) : State := let s := setMbx mb.val y s; if own then useSession mb.val s else s
    match requestChecks s mb x cmd session.toNat (bsub buf 16 n) with
    | .ok i => t { y with started := some i }
    | .error r => t { y with answer := some { status := r.1, body := r.2 } }

/-- A write of 1 to MBX_n_DOORBELL.RING: dropped with DB_REJ while BUSY (R364), and through the other function (R361). -/
def execMailboxDoorbell (pf : Pf) (mb : Mb) (s : State) : Result :=
  .next (
    let x := mbxOf s mb.val
    if asleep s || !pcieUp s || mbxPf mb.val != pf then s
    else if x.busy then setMbx mb.val { x with dbRej := true } s
    else ring mb s)

end Sys2Proof.Machine
end

