-- ==== Sys2Proof/Machine/Dispatch.lean ====
section
/-! DEFINITION. The dispatch: one arm per command, each one direct call of its meaning. -/

namespace Sys2Proof.Machine

open Sys2Proof

def exec (i : Instr) (s : State) : Host.Outcome State Fault Refusal :=
  match i with
  | .sysStatus mb => Sys2Proof.Machine.execSysStatus mb s
  | .sysMode mb target => Sys2Proof.Machine.execSysMode mb target s
  | .sysLifecycle mb target confirm => Sys2Proof.Machine.execSysLifecycle mb target confirm s
  | .sysReset mb kind => Sys2Proof.Machine.execSysReset mb kind s
  | .sysHalt mb confirm => Sys2Proof.Machine.execSysHalt mb confirm s
  | .sysTimeStep mb seconds ns atPps => Sys2Proof.Machine.execSysTimeStep mb seconds ns atPps s
  | .sysPatchLoad mb addr len colour => Sys2Proof.Machine.execSysPatchLoad mb addr len colour s
  | .sysPatchInfo mb => Sys2Proof.Machine.execSysPatchInfo mb s
  | .authOpen mb world gslot => Sys2Proof.Machine.execAuthOpen mb world gslot s
  | .authProve mb proof => Sys2Proof.Machine.execAuthProve mb proof s
  | .authClose mb => Sys2Proof.Machine.execAuthClose mb s
  | .objGet mb ids => Sys2Proof.Machine.execObjGet mb ids s
  | .objSet mb entries => Sys2Proof.Machine.execObjSet mb entries s
  | .objBulkRead mb req => Sys2Proof.Machine.execObjBulkRead mb req s
  | .objBulkWrite mb req => Sys2Proof.Machine.execObjBulkWrite mb req s
  | .keyIdentity mb addr colour => Sys2Proof.Machine.execKeyIdentity mb addr colour s
  | .keyImport mb addr len colour => Sys2Proof.Machine.execKeyImport mb addr len colour s
  | .keyGenerate mb space slot attr => Sys2Proof.Machine.execKeyGenerate mb space slot attr s
  | .keyDerive mb req => Sys2Proof.Machine.execKeyDerive mb req s
  | .keyWrap mb gslot wrapping addr colour => Sys2Proof.Machine.execKeyWrap mb gslot wrapping addr colour s
  | .keyUnwrap mb target unwrapping addr colour => Sys2Proof.Machine.execKeyUnwrap mb target unwrapping addr colour s
  | .keyRestrict mb gslot uses clear => Sys2Proof.Machine.execKeyRestrict mb gslot uses clear s
  | .keyDestroy mb space slot => Sys2Proof.Machine.execKeyDestroy mb space slot s
  | .keyZeroize mb confirm => Sys2Proof.Machine.execKeyZeroize mb confirm s
  | .chanCreate mb chan => Sys2Proof.Machine.execChanCreate mb chan s
  | .chanSet mb entries => Sys2Proof.Machine.execChanSet mb entries s
  | .chanEnable mb chan => Sys2Proof.Machine.execChanEnable mb chan s
  | .chanDisable mb chan => Sys2Proof.Machine.execChanDisable mb chan s
  | .chanSwitch mb chan => Sys2Proof.Machine.execChanSwitch mb chan s
  | .chanMap mb chan key => Sys2Proof.Machine.execChanMap mb chan key s
  | .chanUnmap mb key => Sys2Proof.Machine.execChanUnmap mb key s
  | .caCreate mb ca chan cakGslot => Sys2Proof.Machine.execCaCreate mb ca chan cakGslot s
  | .caSet mb entries => Sys2Proof.Machine.execCaSet mb entries s
  | .caRekey mb ca offsetMs => Sys2Proof.Machine.execCaRekey mb ca offsetMs s
  | .caDelete mb ca => Sys2Proof.Machine.execCaDelete mb ca s
  | .linkSet mb entries => Sys2Proof.Machine.execLinkSet mb entries s
  | .linkRestart mb lport => Sys2Proof.Machine.execLinkRestart mb lport s
  | .schedPolicer mb entries => Sys2Proof.Machine.execSchedPolicer mb entries s
  | .schedShaper mb entries => Sys2Proof.Machine.execSchedShaper mb entries s
  | .schedWeight mb entries => Sys2Proof.Machine.execSchedWeight mb entries s
  | .schedGateLoad mb q count cycleNs addr colour => Sys2Proof.Machine.execSchedGateLoad mb q count cycleNs addr colour s
  | .schedGateCommit mb q baseSec baseNs => Sys2Proof.Machine.execSchedGateCommit mb q baseSec baseNs s
  | .schedGateCancel mb q => Sys2Proof.Machine.execSchedGateCancel mb q s
  | .pairBind mb addr colour => Sys2Proof.Machine.execPairBind mb addr colour s
  | .pairUnbind mb => Sys2Proof.Machine.execPairUnbind mb s
  | .pairSolo mb => Sys2Proof.Machine.execPairSolo mb s
  | .pairHandover mb => Sys2Proof.Machine.execPairHandover mb s
  | .pairSet mb entries => Sys2Proof.Machine.execPairSet mb entries s
  | .clTest mb cluster => Sys2Proof.Machine.execClTest mb cluster s
  | .pmuSet mb entries => Sys2Proof.Machine.execPmuSet mb entries s
  | .calRead mb addr colour => Sys2Proof.Machine.execCalRead mb addr colour s
  | .calWrite mb addr colour => Sys2Proof.Machine.execCalWrite mb addr colour s
  | .calHbmTest mb failing => Sys2Proof.Machine.execCalHbmTest mb failing s
  | .calSerdes mb q => Sys2Proof.Machine.execCalSerdes mb q s
  | .logTamper mb first count => Sys2Proof.Machine.execLogTamper mb first count s
  | .logFaults mb first count => Sys2Proof.Machine.execLogFaults mb first count s
  | .laReset mb queue => Sys2Proof.Machine.execLaReset mb queue s
  | .perfSet mb entries => Sys2Proof.Machine.execPerfSet mb entries s
  | .perfSumpRead mb table addr colour => Sys2Proof.Machine.execPerfSumpRead mb table addr colour s
  | .dpClaim mb => Sys2Proof.Machine.execDpClaim mb s
  | .dpRelease mb => Sys2Proof.Machine.execDpRelease mb s
  | .mailboxDoorbell pf mb => Sys2Proof.Machine.execMailboxDoorbell pf mb s
  | .mailboxReqWrite pf mb offset value => Sys2Proof.Machine.execMailboxReqWrite pf mb offset value s
  | .mailboxResponse mb => Sys2Proof.Machine.execMailboxResponse mb s
  | .sessionIdleExpire mb => Sys2Proof.Machine.execSessionIdleExpire mb s
  | .timeNowRead pf => Sys2Proof.Machine.execTimeNowRead pf s
  | .rtcRead pf => Sys2Proof.Machine.execRtcRead pf s
  | .timeIncrWrite pf adj => Sys2Proof.Machine.execTimeIncrWrite pf adj s
  | .stepGo pf cancel => Sys2Proof.Machine.execStepGo pf cancel s
  | .stepArm pf cancel => Sys2Proof.Machine.execStepArm pf cancel s
  | .stepCancel pf atPps => Sys2Proof.Machine.execStepCancel pf atPps s
  | .stepLapse => Sys2Proof.Machine.execStepLapse s
  | .tsqPop pf q => Sys2Proof.Machine.execTsqPop pf q s
  | .ppsInEdge => Sys2Proof.Machine.execPpsInEdge s
  | .todReceive message gapOk => Sys2Proof.Machine.execTodReceive message gapOk s
  | .secondBoundary => Sys2Proof.Machine.execSecondBoundary s
  | .ppsOutFall => Sys2Proof.Machine.execPpsOutFall s
  | .todSend => Sys2Proof.Machine.execTodSend s
  | .pmuDomReqRet pf dom cmdWake wake => Sys2Proof.Machine.execPmuDomReqRet pf dom cmdWake wake s
  | .pmuDomReqOff pf dom cmdWake wake => Sys2Proof.Machine.execPmuDomReqOff pf dom cmdWake wake s
  | .pmuDomReqOn pf dom cmdWake => Sys2Proof.Machine.execPmuDomReqOn pf dom cmdWake s
  | .domainChangeDone dom => Sys2Proof.Machine.execDomainChangeDone dom s
  | .domainWakeDone dom => Sys2Proof.Machine.execDomainWakeDone dom s
  | .offDomainAccess pf offset write => Sys2Proof.Machine.execOffDomainAccess pf offset write s
  | .paceLimitWrite pf value => Sys2Proof.Machine.execPaceLimitWrite pf value s
  | .avsTargetWrite pf value busOk => Sys2Proof.Machine.execAvsTargetWrite pf value busOk s
  | .avsLowerIssue busOk => Sys2Proof.Machine.execAvsLowerIssue busOk s
  | .avsConfirm => Sys2Proof.Machine.execAvsConfirm s
  | .avsTelemetry vout iout temp busOk => Sys2Proof.Machine.execAvsTelemetry vout iout temp busOk s
  | .meterRound readings => Sys2Proof.Machine.execMeterRound readings s
  | .paceDispFollow => Sys2Proof.Machine.execPaceDispFollow s
  | .downshiftEval loads => Sys2Proof.Machine.execDownshiftEval loads s
  | .sagWarn point => Sys2Proof.Machine.execSagWarn point s
  | .sagWarnClear => Sys2Proof.Machine.execSagWarnClear s
  | .sagReset => Sys2Proof.Machine.execSagReset s
  | .mainPowerLost => Sys2Proof.Machine.execMainPowerLost s
  | .mainPowerBack => Sys2Proof.Machine.execMainPowerBack s
  | .powerOn => Sys2Proof.Machine.execPowerOn s
  | .resetNRecognised => Sys2Proof.Machine.execResetNRecognised s
  | .resetEffect => Sys2Proof.Machine.execResetEffect s
  | .resetRelease boot => Sys2Proof.Machine.execResetRelease boot s
  | .bootEnd => Sys2Proof.Machine.execBootEnd s
  | .serviceEntry => Sys2Proof.Machine.execServiceEntry s
  | .glbResetCold pf key => Sys2Proof.Machine.execGlbResetCold pf key s
  | .glbResetWarm pf key => Sys2Proof.Machine.execGlbResetWarm pf key s
  | .pcieFlr pf => Sys2Proof.Machine.execPcieFlr pf s
  | .pcieHotReset => Sys2Proof.Machine.execPcieHotReset s
  | .fuseProgramDone => Sys2Proof.Machine.execFuseProgramDone s
  | .refclkSysLost => Sys2Proof.Machine.execRefclkSysLost s
  | .refclkSgLost group => Sys2Proof.Machine.execRefclkSgLost group s
  | .hostFrameReceive hport frame fcsOk entryOk => Sys2Proof.Machine.execHostFrameReceive hport frame fcsOk entryOk s
  | .lineFrameReceive lport frame fcsOk => Sys2Proof.Machine.execLineFrameReceive lport frame fcsOk s
  | .replayRecheck fid => Sys2Proof.Machine.execReplayRecheck fid s
  | .cellReceive wport octets => Sys2Proof.Machine.execCellReceive wport octets s
  | .sealedFrameClose lport => Sys2Proof.Machine.execSealedFrameClose lport s
  | .announceReceive wport => Sys2Proof.Machine.execAnnounceReceive wport s
  | .heartbeatReceive wport => Sys2Proof.Machine.execHeartbeatReceive wport s
  | .rdiReceive wport => Sys2Proof.Machine.execRdiReceive wport s
  | .ptpSegmentReceive lport => Sys2Proof.Machine.execPtpSegmentReceive lport s
  | .dlodSet wport => Sys2Proof.Machine.execDlodSet wport s
  | .dlodClear wport => Sys2Proof.Machine.execDlodClear wport s
  | .dlhbSet wport => Sys2Proof.Machine.execDlhbSet wport s
  | .drdiClear wport => Sys2Proof.Machine.execDrdiClear wport s
  | .cellTransmit wport => Sys2Proof.Machine.execCellTransmit wport s
  | .epochKeyDerive wport => Sys2Proof.Machine.execEpochKeyDerive wport s
  | .epochChange wport => Sys2Proof.Machine.execEpochChange wport s
  | .epochEnd wport => Sys2Proof.Machine.execEpochEnd wport s
  | .announceSend wport => Sys2Proof.Machine.execAnnounceSend wport s
  | .heartbeatSend wport => Sys2Proof.Machine.execHeartbeatSend wport s
  | .rdiSend wport => Sys2Proof.Machine.execRdiSend wport s
  | .pumpRelease q => Sys2Proof.Machine.execPumpRelease q s
  | .requestDispatch fid errs word => Sys2Proof.Machine.execRequestDispatch fid errs word s
  | .expressSuspend cluster => Sys2Proof.Machine.execExpressSuspend cluster s
  | .requestComplete req => Sys2Proof.Machine.execRequestComplete req s
  | .clusterFault cluster => Sys2Proof.Machine.execClusterFault cluster s
  | .handshakeTimeout cluster => Sys2Proof.Machine.execHandshakeTimeout cluster s
  | .spareKatDone cluster pass => Sys2Proof.Machine.execSpareKatDone cluster pass s
  | .rotationStep => Sys2Proof.Machine.execRotationStep s
  | .clusterTestDone cluster pass => Sys2Proof.Machine.execClusterTestDone cluster pass s
  | .rotationResume => Sys2Proof.Machine.execRotationResume s
  | .transmitStart q errs => Sys2Proof.Machine.execTransmitStart q errs s
  | .gateEntry q => Sys2Proof.Machine.execGateEntry q s
  | .gateSwap q => Sys2Proof.Machine.execGateSwap q s
  | .launch q => Sys2Proof.Machine.execLaunch q s
  | .spillWrite fid errs => Sys2Proof.Machine.execSpillWrite fid errs s
  | .spillReturn chan dir => Sys2Proof.Machine.execSpillReturn chan dir s
  | .linkDown q => Sys2Proof.Machine.execLinkDown q s
  | .quarantineTest granule pass => Sys2Proof.Machine.execQuarantineTest granule pass s
  | .classEntryRewrite key => Sys2Proof.Machine.execClassEntryRewrite key s
  | .chanDrainDone chan => Sys2Proof.Machine.execChanDrainDone chan s
  | .slotRetire chan => Sys2Proof.Machine.execSlotRetire chan s
  | .mkpduReceive ca link => Sys2Proof.Machine.execMkpduReceive ca link s
  | .mkpduSend ca => Sys2Proof.Machine.execMkpduSend ca s
  | .peerLifeExpire ca peer => Sys2Proof.Machine.execPeerLifeExpire ca peer s
  | .rekeyInterval ca => Sys2Proof.Machine.execRekeyInterval ca s
  | .rekeyStart ca => Sys2Proof.Machine.execRekeyStart ca s
  | .zeroizeComplete => Sys2Proof.Machine.execZeroizeComplete s
  | .lockstepMismatch => Sys2Proof.Machine.execLockstepMismatch s
  | .masterAccess acc ecc => Sys2Proof.Machine.execMasterAccess acc ecc s
  | .mpuHold by_ => Sys2Proof.Machine.execMpuHold by_ s
  | .mpuDrained => Sys2Proof.Machine.execMpuDrained s
  | .mpuRelease by_ => Sys2Proof.Machine.execMpuRelease by_ s
  | .mpuHoldLong => Sys2Proof.Machine.execMpuHoldLong s
  | .imeSweepRequest by_ index => Sys2Proof.Machine.execImeSweepRequest by_ index s
  | .imeSweepStart => Sys2Proof.Machine.execImeSweepStart s
  | .imeSweepLine ecc => Sys2Proof.Machine.execImeSweepLine ecc s
  | .imeSweepDone => Sys2Proof.Machine.execImeSweepDone s
  | .imeCeClear pf => Sys2Proof.Machine.execImeCeClear pf s
  | .maskReseed cluster => Sys2Proof.Machine.execMaskReseed cluster s
  | .drbgReseed => Sys2Proof.Machine.execDrbgReseed s
  | .entropyFail => Sys2Proof.Machine.execEntropyFail s
  | .entropyHoldExpire => Sys2Proof.Machine.execEntropyHoldExpire s
  | .entropyRecover => Sys2Proof.Machine.execEntropyRecover s
  | .remaskLine space index => Sys2Proof.Machine.execRemaskLine space index s
  | .drkRemask => Sys2Proof.Machine.execDrkRemask s
  | .laDescProdWrite pf queue value => Sys2Proof.Machine.execLaDescProdWrite pf queue value s
  | .laDescriptorFetch queue => Sys2Proof.Machine.execLaDescriptorFetch queue s
  | .laChunk queue => Sys2Proof.Machine.execLaChunk queue s
  | .laComplete queue => Sys2Proof.Machine.execLaComplete queue s
  | .ringProdWrite pf ring value => Sys2Proof.Machine.execRingProdWrite pf ring value s
  | .puntDeliver ring errs => Sys2Proof.Machine.execPuntDeliver ring errs s
  | .ringStarve ring => Sys2Proof.Machine.execRingStarve ring s
  | .txDescriptor ring => Sys2Proof.Machine.execTxDescriptor ring s
  | .irqRearm pf vector => Sys2Proof.Machine.execIrqRearm pf vector s
  | .irqMapWrite pf event value => Sys2Proof.Machine.execIrqMapWrite pf event value s
  | .msixUnmask vector => Sys2Proof.Machine.execMsixUnmask vector s
  | .dpWindowRead offset len => Sys2Proof.Machine.execDpWindowRead offset len s
  | .dpWindowWrite offset data => Sys2Proof.Machine.execDpWindowWrite offset data s
  | .tmpLogSelWrite pf seq => Sys2Proof.Machine.execTmpLogSelWrite pf seq s
  | .registerWrite pf offset value => Sys2Proof.Machine.execRegisterWrite pf offset value s
  | .tamperAssert sources => Sys2Proof.Machine.execTamperAssert sources s
  | .tamperClear source => Sys2Proof.Machine.execTamperClear source s
  | .suppressedFlush => Sys2Proof.Machine.execSuppressedFlush s
  | .timeLink => Sys2Proof.Machine.execTimeLink s
  | .backupCellsLost => Sys2Proof.Machine.execBackupCellsLost s
  | .i2cWrite bytes => Sys2Proof.Machine.execI2cWrite bytes s
  | .i2cRead count => Sys2Proof.Machine.execI2cRead count s
  | .i2cSnapshot => Sys2Proof.Machine.execI2cSnapshot s
  | .leaseRenewSend => Sys2Proof.Machine.execLeaseRenewSend s
  | .leaseRenew seq echo => Sys2Proof.Machine.execLeaseRenew seq echo s
  | .leaseAck seq st => Sys2Proof.Machine.execLeaseAck seq st s
  | .leaseExpire => Sys2Proof.Machine.execLeaseExpire s
  | .leaseTakeover => Sys2Proof.Machine.execLeaseTakeover s
  | .leaseFirstTake => Sys2Proof.Machine.execLeaseFirstTake s
  | .halting cause => Sys2Proof.Machine.execHalting cause s
  | .handover step => Sys2Proof.Machine.execHandover step s
  | .handoverDrainEnd => Sys2Proof.Machine.execHandoverDrainEnd s
  | .watermarkSend => Sys2Proof.Machine.execWatermarkSend s
  | .watermark batch entries => Sys2Proof.Machine.execWatermark batch entries s
  | .wmAck batch => Sys2Proof.Machine.execWmAck batch s
  | .mirror object version body => Sys2Proof.Machine.execMirror object version body s
  | .mirrorAck object version status => Sys2Proof.Machine.execMirrorAck object version status s
  | .mirrorAckTimeout object => Sys2Proof.Machine.execMirrorAckTimeout object s
  | .state mode ready spares degrade => Sys2Proof.Machine.execState mode ready spares degrade s
  | .timeCmpSend => Sys2Proof.Machine.execTimeCmpSend s
  | .timeCmp seconds ns fraction => Sys2Proof.Machine.execTimeCmp seconds ns fraction s
  | .pairPart part total data => Sys2Proof.Machine.execPairPart part total data s
  | .pairConfirm tag => Sys2Proof.Machine.execPairConfirm tag s
  | .pairingRetry => Sys2Proof.Machine.execPairingRetry s
  | .linkUp q => Sys2Proof.Machine.execLinkUp q s
  | .preemptVerify q ok => Sys2Proof.Machine.execPreemptVerify q ok s
  | .refclkSgRestored group => Sys2Proof.Machine.execRefclkSgRestored group s
  | .serviceEntryTimeout => Sys2Proof.Machine.execServiceEntryTimeout s
  | .msixEnable => Sys2Proof.Machine.execMsixEnable s
  | .fillDrbgReseed wport => Sys2Proof.Machine.execFillDrbgReseed wport s
  | .boundaryScan instruction => Sys2Proof.Machine.execBoundaryScan instruction s

end Sys2Proof.Machine
end

