-- ==== Sys2Proof/Safety.lean ====
section
/-! DEFINITION. What claims are stated in: a run that goes on, when a mailbox may run a command, and which parts of the state a step
may change. -/

namespace Sys2Proof.Safety

open Sys2Proof Sys2Proof.Machine

/-- The step from a state goes on. -/
def Goes (s : State) : Prop := ∃ t, step s = .next t

/-- Mailbox mb may run a command of its row's worlds and modes for a session of world w (R365, checks 1, 5, 7, 8, 9): the device is
awake and not halted, no earlier command of the mailbox waits for its answer, none holds it back (R305, R367), and none whose mailbox
has been reset since it began is still to answer (R312). -/
structure MayRun (worlds : List World) (modes : List Mode) (mb : Mb) (w : World) (s : State) : Prop where
  awake : asleep s = false
  notHalted : halted s = false
  notBoot : s.glb.mode ≠ .boot
  modeOk : modes = [] ∨ s.glb.mode ∈ modes
  free : (mbxOf s mb.val).answer = none
  notHeld : held s mb.val = false
  own : (mbxOf s mb.val).orphan = false
  session : ∃ x, (mbxOf s mb.val).session = some x ∧ x.world = w
  world : w ∈ worlds

/-- Mailbox mb may run a command that needs no session (Table 15-4). -/
structure MayOpen (mb : Mb) (s : State) : Prop where
  awake : asleep s = false
  notHalted : halted s = false
  notBoot : s.glb.mode ≠ .boot
  free : (mbxOf s mb.val).answer = none
  notHeld : held s mb.val = false
  own : (mbxOf s mb.val).orphan = false

/-- The parts of the state beside the queue. -/
inductive Part where
  | glb | nvm | time | pmu | stp | keys | mem | traffic | wh | objs | la | laTurn | laFloorAt | reqs | rings | irq | dp | perf | mbx | cas | pair | maint | i2c | tap | rng | out
  deriving DecidableEq, Repr

/-- A part is as before. -/
def Keeps : Part → State → State → Prop
  | .glb, s, t => t.glb = s.glb
  | .nvm, s, t => t.nvm = s.nvm
  | .time, s, t => t.time = s.time
  | .pmu, s, t => t.pmu = s.pmu
  | .stp, s, t => t.stp = s.stp
  | .keys, s, t => t.keys = s.keys
  | .mem, s, t => t.mem = s.mem
  | .traffic, s, t => t.traffic = s.traffic
  | .wh, s, t => t.wh = s.wh
  | .objs, s, t => t.objs = s.objs
  | .la, s, t => t.la = s.la
  | .laTurn, s, t => t.laTurn = s.laTurn
  | .laFloorAt, s, t => t.laFloorAt = s.laFloorAt
  | .reqs, s, t => t.reqs = s.reqs
  | .rings, s, t => t.rings = s.rings
  | .irq, s, t => t.irq = s.irq
  | .dp, s, t => t.dp = s.dp
  | .perf, s, t => t.perf = s.perf
  | .mbx, s, t => t.mbx = s.mbx
  | .cas, s, t => t.cas = s.cas
  | .pair, s, t => t.pair = s.pair
  | .maint, s, t => t.maint = s.maint
  | .i2c, s, t => t.i2c = s.i2c
  | .tap, s, t => t.tap = s.tap
  | .rng, s, t => t.rng = s.rng
  | .out, s, t => t.out = s.out

/-- Nothing changes but the parts listed; the queue stays. -/
def Only (l : List Part) (s t : State) : Prop := t.pending = s.pending ∧ ∀ p, p ∉ l → Keeps p s t

/-- What raising an event may change (R375, R376): interrupts, the event ring and its memory, counters, what is sent, and the next free
value, which the sampler takes for the time of the ring's access. -/
def raised : List Part := [.irq, .rings, .mem, .perf, .rng, .out]

/-- What every step keeps: memory in its canonical form, and a step target armed only while the step is not spent (R231). -/
def StepInv (s : State) : Prop := Memory.wf s.mem.bytes = true ∧ (s.time.spent = true → s.time.armed = none)

end Sys2Proof.Safety
end

