-- ==== Sys2Proof/Certificates/Slice0/Obligations.lean ====
section
/-! DEFINITION. The statements for the provers. Each says what a command does: that it answers a next state, and what that state is;
parts of the state that it does not name are as before. -/

open Sys2Proof Sys2Proof.Machine Sys2Proof.Safety

/-- A step of a state whose queue is not empty is exec of the front command on the state with the queue's rest. -/
def Obligations.StepRunsFrontCommand : Prop :=
  ∀ (s : State) (c : Instr) (rest : List Instr), s.pending = c :: rest → step s = exec c { s with pending := rest }

/-- With no command waiting, and the block awake, short of the next second boundary and with no step of network time to be made at the tick, a step adds 1 to the tick count and the tick's increment, 2^32 plus ADJ in units of 2^-32 ns, to network time; the armed step, the adjustment and the queue stay; and where no time stamp waits at a full queue and no channel switch is accepted, only time, the Standpipe and what a suppressed tamper record raises change. That a tick is what an empty queue does is the model's choice (log 13). -/
def Obligations.EmptyQueueRunsTheClock : Prop :=
  ∀ s : State, s.pending = [] → asleep s = false → s.time.stepGo = none → s.time.now.sub + tickUnits s < 10 ^ 9 * 2 ^ 32 →
    ∃ t, step s = .next t ∧ t.time.now.sec = s.time.now.sec
      ∧ (t.time.now.sub : Int) = s.time.now.sub + max 0 (2 ^ 32 + s.time.adj.toInt)
      ∧ t.time.ticks = s.time.ticks + 1 ∧ t.time.adj = s.time.adj ∧ t.time.armed = s.time.armed ∧ t.pending = []
      ∧ ((∀ x ∈ s.traffic.tsq, x.2.waiting = []) → (∀ x ∈ s.traffic.chans, x.2.switching = false) → Only ([.time, .stp] ++ raised) s t)

/-- Right after reset, the registers whose reset column is not zero read it through PF0: TIME_PPS_CTRL 100 ms, MPU_CTRL.EN 1, IME_Kk_CTRL.LIMIT 44, RING_r_SIZE 4 and IDLE 1, LA_Qn_DESC_SIZE 4 and IDLE 1, PMU_AVS_TARGET 750, PMU_PACE_LIMIT 0x708, PMU_SHED 0x100 in both fields; TIME_STATUS, MPU_STATUS, DP_STATUS, IRQ_CAUSE_0 and PAIR_STATUS read 0. -/
def Obligations.ResetRegisterValues : Prop :=
  regRead State.reset .pf0 0x40040 = 0x6400 ∧ regRead State.reset .pf0 0x70000 = 1
  ∧ (∀ k : Fin 64, k ≠ 0 → regRead State.reset .pf0 (0x80108 + 16 * k.val) = 44)
  ∧ (∀ r : RingNo, regRead State.reset .pf0 (0xA0010 + 64 * r.val) = 4 ∧ regRead State.reset .pf0 (0xA0004 + 64 * r.val) = 1)
  ∧ (∀ n : LaNo, regRead State.reset .pf0 (0xB0010 + 256 * n.val) = 4 ∧ regRead State.reset .pf0 (0xB0004 + 256 * n.val) = 1)
  ∧ regRead State.reset .pf0 0x50300 = 750 ∧ regRead State.reset .pf0 0x50400 = 0x708
  ∧ regRead State.reset .pf0 0x5040C = 0x01000100 ∧ regRead State.reset .pf0 0x40030 = 0
  ∧ regRead State.reset .pf0 0x70004 = 0 ∧ regRead State.reset .pf0 0x20004 = 0 ∧ regRead State.reset .pf0 0x30100 = 0
  ∧ regRead State.reset .pf0 0x90000 = 0

/-- At every offset outside the mailboxes and outside the snapshot words of TIME_NOW, a read through PF1 BAR0 returns what the same offset returns through PF0; MB0 to MB13 read zero through PF1, and MB14 and MB15 through PF0, once the PCIe link has trained. Through PF1 every register write of the block leaves the whole state as it is, W1C writes and the writes with a command of their own included; the request buffers and doorbells of MB14 and MB15 are not among them. -/
def Obligations.ObserverFunction : Prop :=
  (
  ∀ (s : State) (o : Nat),
    ((o < 0x10000 ∨ 0x18000 ≤ o) → ¬ (0x40004 ≤ o ∧ o ≤ 0x4000C) → regRead s .pf1 o = regRead s .pf0 o)
    ∧ (0x10000 ≤ o → o < 0x17000 → domOn s 74 = true → pcieUp s = true → regRead s .pf1 o = 0)
    ∧ (0x17000 ≤ o → o < 0x18000 → domOn s 74 = true → pcieUp s = true → regRead s .pf0 o = 0)) ∧ (
  ∀ (s : State) (o q : Nat) (v : W32) (a b : Bool) (d : DomNo) (r : RingNo) (n : LaNo) (x : VecNo) (p : Port) (m : Mb), m.val < 14 →
    exec (.registerWrite .pf1 o v) s = .next s ∧ exec (.timeIncrWrite .pf1 v) s = .next s ∧ exec (.stepGo .pf1 a) s = .next s
    ∧ exec (.stepArm .pf1 a) s = .next s ∧ exec (.stepCancel .pf1 a) s = .next s ∧ exec (.tsqPop .pf1 p) s = .next s
    ∧ exec (.pmuDomReqRet .pf1 d a b) s = .next s ∧ exec (.pmuDomReqOff .pf1 d a b) s = .next s
    ∧ exec (.pmuDomReqOn .pf1 d a) s = .next s ∧ exec (.paceLimitWrite .pf1 v) s = .next s
    ∧ exec (.avsTargetWrite .pf1 v a) s = .next s ∧ exec (.glbResetCold .pf1 q) s = .next s
    ∧ exec (.glbResetWarm .pf1 q) s = .next s ∧ exec (.mpuHold (some .pf1)) s = .next s
    ∧ exec (.mpuRelease (.host .pf1)) s = .next s ∧ exec (.imeSweepRequest (some .pf1) q) s = .next s ∧ exec (.imeCeClear .pf1) s = .next s
    ∧ exec (.laDescProdWrite .pf1 n v) s = .next s ∧ exec (.ringProdWrite .pf1 r v) s = .next s
    ∧ exec (.irqRearm .pf1 x) s = .next s ∧ exec (.irqMapWrite .pf1 q v) s = .next s ∧ exec (.tmpLogSelWrite .pf1 v) s = .next s
    ∧ exec (.mailboxReqWrite .pf1 m o v) s = .next s ∧ exec (.mailboxDoorbell .pf1 m) s = .next s)

/-- A PF0 write, with the PCIe link up, by an awake block to a register with no command of its own stores its fields or clears its W1C bits, and leaves the rest of the state: TIME_STEP_NS keeps 30 bits; TIME_STEP_CTRL without GO and CANCEL keeps AT_PPS; IRQ_CAUSE_0 clears the bits written 1; a region register 12 to 31 takes its value during a hold with EN = 0 and sets MPU_STATUS.WR_REJ at any other time, as one of regions 0 to 11 always does; RING_r_BASE_LO keeps bits 31:6 while EN is 0 and has no effect while it is 1; writing TSQ_q_STATUS.OVF clears OVF, FIRST_LOST and LOST; an unaligned write changes nothing. -/
def Obligations.RegisterWrites : Prop :=
  ∀ (s : State) (v : W32), asleep s = false → pcieUp s = true →
    (domOn s 75 = true →
      exec (.registerWrite .pf0 0x40020 v) s = .next { s with time := { s.time with stepNs := v.toNat % 2 ^ 30 } }
      ∧ (v.getLsbD 0 = false → v.getLsbD 2 = false →
          exec (.registerWrite .pf0 0x4002C v) s = .next { s with time := { s.time with atPps := v.getLsbD 1 } }))
    ∧ (domOn s 74 = true →
      exec (.registerWrite .pf0 0x30100 v) s = .next { s with irq := { s.irq with cause := s.irq.cause &&& ~~~(v.setWidth 64) } }
      ∧ (∀ n : Fin 32, 12 ≤ n.val → s.mem.mpuEn = false → s.mem.held = true →
          exec (.registerWrite .pf0 (0x70100 + 16 * n.val) v) s
            = .next { s with mem := { s.mem with
                regions := tset {} s.mem.regions n.val { region s n.val with lo := v &&& 0xFFFFF000 } } })
      ∧ (∀ n : Fin 32, n.val < 12 ∨ s.mem.mpuEn = true ∨ s.mem.held = false →
          exec (.registerWrite .pf0 (0x70100 + 16 * n.val) v) s = .next { s with mem := { s.mem with wrRej := true } })
      ∧ (∀ r : RingNo, exec (.registerWrite .pf0 (0xA0008 + 64 * r.val) v) s
            = .next (if (ringOf s r.val).en then s else
                setRing r.val { ringOf s r.val with base := (ringOf s r.val).base / 2 ^ 32 * 2 ^ 32 + v.toNat / 64 * 64 } s)))
    ∧ (∀ q : Port, domOn s (portDom q.val) = true → v.getLsbD 31 = true →
        exec (.registerWrite .pf0 (0x300000 + 64 * q.val) v) s
          = .next (setTsq q.val { tsqOf s q.val with ovf := false, firstLost := 0, lost := 0 } s))
    ∧ (∀ o : Nat, o % 4 ≠ 0 → exec (.registerWrite .pf0 o v) s = .next s)

/-- With the PCIe link up, a PF0 access to a register whose domain is not ON adds 1 to PMU_DOM_ERR_INFO.COUNT up to 255, captures address, kind and domain while VALID is clear and sets VALID, logs a RECORD fault of row 6 unless the tick of a halt is over, and a read gives all ones; through PF1 a read gives all ones and nothing else changes; no register of such a domain reads as anything but all ones. -/
def Obligations.OffDomainAccess : Prop :=
  ∀ (s : State) (o d : Nat), asleep s = false → pcieUp s = true → o % 4 = 0 → regDomain o = some d → domOn s d = false →
    exec (.offDomainAccess .pf1 o true) s = .next s
    ∧ exec (.offDomainAccess .pf1 o false) s = .next (emit (.read [0xFF, 0xFF, 0xFF, 0xFF]) s)
    ∧ (∀ pf, regRead s pf o = 0xFFFFFFFF)
    ∧ ∀ w : Bool, ∃ t, exec (.offDomainAccess .pf0 o w) s = .next t
      ∧ t.pmu = { s.pmu with
          errCount := min 255 (s.pmu.errCount + 1), errValid := true
          errAddr := if s.pmu.errValid then s.pmu.errAddr else o
          errWrite := if s.pmu.errValid then s.pmu.errWrite else w
          errDom := if s.pmu.errValid then s.pmu.errDom else d }
      ∧ (haltOver s = false → t.maint.log.getLast? = some
          { index := s.maint.nextIndex, sec := s.time.now.sec, ns := s.time.now.ns, cls := 0, row := 6, detail := d })
      ∧ (haltOver s = true → t.maint = s.maint)
      ∧ t.out = (if w then s.out else .read [0xFF, 0xFF, 0xFF, 0xFF] :: s.out)
      ∧ Only [.pmu, .maint, .perf, .out] s t

/-- On an awake block with the PCIe link up, while BUSY is 1, a write to the mailbox's request buffer leaves every byte of it and sets WR_REJ, and a doorbell starts nothing and sets DB_REJ; nothing else changes, so the request that is executing cannot change and no second one begins. -/
def Obligations.BusyMailboxDrops : Prop :=
  ∀ (s : State) (mb : Mb) (o : Nat) (v : W32), asleep s = false → pcieUp s = true → (mbxOf s mb.val).busy = true →
    (o < 512 → o % 4 = 0 →
      exec (.mailboxReqWrite (mbxPf mb.val) mb o v) s = .next (setMbx mb.val { mbxOf s mb.val with wrRej := true } s))
    ∧ exec (.mailboxDoorbell (mbxPf mb.val) mb) s = .next (setMbx mb.val { mbxOf s mb.val with dbRej := true } s)

/-- On an awake block with the PCIe link up, while BUSY is 0, a 32-bit write through the mailbox's own function puts its four bytes, low byte first, at its offset of the request buffer; every other byte of the buffer, every other mailbox and the rest of the state stay. With the PCIe link up, a doorbell of a free mailbox through its own function sets BUSY, clears DONE and takes the next place in doorbell order; on a halted device the answer is HALTED; otherwise a LEN above 496 answers BAD_LENGTH, a reserved FLAGS bit or header byte BAD_VALUE, and a SEQ and SESSION equal to those of the last request that passed the checks gets the cached answer, marked as a duplicate; in BOOT any other command than SYS.STATUS answers MODE; nothing but the mailbox and the doorbell count changes. -/
def Obligations.RequestsAndDoorbells : Prop :=
  (
  ∀ (s : State) (mb : Mb) (o : Nat) (v : W32), asleep s = false → pcieUp s = true → (mbxOf s mb.val).busy = false → o < 512 → o % 4 = 0 →
    ∃ t, exec (.mailboxReqWrite (mbxPf mb.val) mb o v) s = .next t
      ∧ (∀ k, k < 4 → tget 0 (mbxOf t mb.val).req (o + k) = v.extractLsb' (8 * k) 8)
      ∧ (∀ a, a < o ∨ o + 4 ≤ a → tget 0 (mbxOf t mb.val).req a = tget 0 (mbxOf s mb.val).req a)
      ∧ (∀ n, n ≠ mb.val → mbxOf t n = mbxOf s n)
      ∧ { mbxOf t mb.val with req := [] } = { mbxOf s mb.val with req := [] } ∧ Only [.mbx] s t) ∧ (
  ∀ (s : State) (mb : Mb), asleep s = false → pcieUp s = true → (mbxOf s mb.val).busy = false →
    ∃ t, exec (.mailboxDoorbell (mbxPf mb.val) mb) s = .next t
      ∧ (mbxOf t mb.val).busy = true ∧ (mbxOf t mb.val).done = false ∧ (mbxOf t mb.val).order = s.glb.doorbells + 1
      ∧ t.glb = { s.glb with doorbells := s.glb.doorbells + 1 } ∧ (∀ n, n ≠ mb.val → mbxOf t n = mbxOf s n)
      ∧ Only [.glb, .mbx] s t
      ∧ (let buf := (upFrom 0 512).map (tget 0 (mbxOf s mb.val).req)
         let refused (st : Status) : Prop := (mbxOf t mb.val).answer = some { status := st, cached := false }
         let seq := BitVec.ofNat 32 (leAt buf 0 4)
         let session := BitVec.ofNat 32 (leAt buf 10 4)
         (halted s = true → refused .halted)
         ∧ (halted s = false → 496 < leAt buf 6 2 → refused .badLength)
         ∧ (halted s = false → leAt buf 6 2 ≤ 496 → 2 ≤ leAt buf 8 2 ∨ leAt buf 14 2 ≠ 0 → refused .badValue)
         ∧ (halted s = false → leAt buf 6 2 ≤ 496 → leAt buf 8 2 < 2 → leAt buf 14 2 = 0 →
             ((mbxOf s mb.val).last = some (seq, session) →
               (mbxOf t mb.val).answer = (mbxOf s mb.val).cache.map (fun a => { a with dup := true }))
             ∧ ((mbxOf s mb.val).last ≠ some (seq, session) →
               (mbxOf t mb.val).last = some (seq, session) ∧ (mbxOf t mb.val).cache = none
               ∧ (s.glb.mode = .boot → leAt buf 4 2 ≠ 0x0101 →
                   (mbxOf t mb.val).answer = some { status := .mode } ∧ (mbxOf t mb.val).started = none)))))

/-- Unless its mailbox has been reset since the command began, an answer stands in its mailbox as status and body and ends the started command; other mailboxes stay; a command that is refused changes no counter, and one that is executed adds 1 to fixed counter 56 unless the device is halted. The answer of a command whose mailbox has been reset since it began goes nowhere. With an answer waiting and FLAGS.IRQ 0, MAILBOX_RESPONSE writes SEQ, STATUS, LEN, FLAGS and ELAPSED_US with the body into the response buffer, then clears BUSY and sets DONE; a duplicate of an OK answer carries STATUS 0x0001 and FLAGS 1 with the elapsed time of the original; no other mailbox and no other part changes. With FLAGS.IRQ 1 the cause bit of EV_MBXn sets. -/
def Obligations.AnswersAndResponses : Prop :=
  (
  ∀ (mb : Mb) (r : Reply) (s : State),
    ((mbxOf s mb.val).orphan = false → (mbxOf (answer mb.val r s) mb.val).answer = some { status := r.1, body := r.2 }
      ∧ (mbxOf (answer mb.val r s) mb.val).started = none)
    ∧ ((mbxOf s mb.val).orphan = true → mbxOf (answer mb.val r s) mb.val = { mbxOf s mb.val with orphan := false })
    ∧ (∀ n, n ≠ mb.val → mbxOf (answer mb.val r s) n = mbxOf s n)
    ∧ Only [.mbx, .perf] s (answer mb.val r s)
    ∧ (r.1 ≠ .ok → (answer mb.val r s).perf = s.perf)
    ∧ (r.1 = .ok → halted s = false →
        tget 0 (answer mb.val r s).perf.fix 56 = (tget 0 s.perf.fix 56 + 1) % 2 ^ 48)) ∧ (
  ∀ (s : State) (mb : Mb) (a : Answer), asleep s = false → (mbxOf s mb.val).answer = some a →
    (∃ t, exec (.mailboxResponse mb) s = .next t
      ∧ (mbxOf t mb.val).busy = false ∧ (mbxOf t mb.val).done = true ∧ (mbxOf t mb.val).answer = none
      ∧ (mbxOf t mb.val).rsp
        = leBytes 4 (mbxOf s mb.val).seq.toNat
          ++ leBytes 2 (if a.dup = true ∧ a.status = .ok then 1 else a.status.code) ++ leBytes 2 a.body.length
          ++ leBytes 2 (if a.dup then 1 else 0) ++ leBytes 4 (a.elapsed.getD ((s.time.ticks - (mbxOf s mb.val).rung) / 1000)) ++ [0, 0]
          ++ a.body
      ∧ (∀ n, n ≠ mb.val → mbxOf t n = mbxOf s n)
      ∧ ((mbxOf s mb.val).irq = false → Only [.mbx] s t)
      ∧ ((mbxOf s mb.val).irq = true → t.irq.cause.getLsbD (0x28 + mb.val) = true ∧ Only (.mbx :: raised) s t)))

/-- AUTH.OPEN of OPERATOR with GSLOT 0 on MB0 to MB13, and of OBSERVER on MB14 and MB15, answers OK with a non-zero SESSION that the mailbox has not used since reset, and the mailbox then holds that session in place of any before; AUTH.PROVE of a challenge within 1 s with the CMAC proof opens an OFFICER session, and any other proof answers DENIED with the challenge spent; AUTH.CLOSE answers OK and leaves no session, and an OFFICER session closes once officer_idle_s have passed without a request, with the data port released where that session held it. A SESSION value itself is a DRBG output, a free value (log 1). -/
def Obligations.Sessions : Prop :=
  ∀ (s : State) (mb : Mb),
    (MayOpen mb s → (mbxOf s mb.val).usedIds.length + 2 < 2 ^ 32 → ∃ t id, exec (.authOpen mb (if mb.val < 14 then 1 else 2) 0) s = .next t ∧ id ≠ 0
      ∧ id ∉ (mbxOf s mb.val).usedIds
      ∧ (mbxOf t mb.val).session = some { id := id, world := if mb.val < 14 then .operator else .observer, lastAt := s.time.ticks }
      ∧ (mbxOf t mb.val).answer = some { status := .ok, body := leBytes 4 id.toNat }
      ∧ (∀ n, n ≠ mb.val → mbxOf t n = mbxOf s n) ∧ Only [.mbx, .perf, .dp, .rng] s t)
    ∧ (∀ w, MayRun [.officer, .operator, .observer] [] mb w s →
        exec (.authClose mb) s = .next (answer mb.val (.ok, []) (closeSession mb.val (begun mb.val s))))
    ∧ (asleep s = false → ∀ x, (mbxOf s mb.val).session = some x → x.world = .officer →
        exec (.sessionIdleExpire mb) s
          = .next (if passed s x.lastAt (attr s clsDev 0 0x0C * 10 ^ 9) then closeSession mb.val s else s))
    ∧ ((mbxOf (closeSession mb.val s) mb.val).session = none ∧ (mbxOf (closeSession mb.val s) mb.val).challenge = none
        ∧ (∀ id, s.dp.claim = some (mb.val, id) → (closeSession mb.val s).dp = { s.dp with claim := none, en := false })
        ∧ Only [.mbx, .dp] s (closeSession mb.val s))
    ∧ (MayOpen mb s → ∀ c g t0 key u proof, (mbxOf s mb.val).challenge = some (c, g, t0) → s.time.ticks ≤ t0 + 10 ^ 9 →
        ((gslotOf s g).state ≠ .empty ∧ (gslotOf s g).state ≠ .invalid) →
        readG g (setMbx mb.val { mbxOf s mb.val with challenge := none } s) = (some key, u) →
        (proof = proofOf s mb.val c key →
          ∃ t id, exec (.authProve mb proof) s = .next t ∧ (mbxOf t mb.val).challenge = none
            ∧ (mbxOf t mb.val).session = some { id := id, world := .officer, lastAt := s.time.ticks }
            ∧ (mbxOf t mb.val).answer = some { status := .ok, body := leBytes 4 id.toNat })
        ∧ (proof ≠ proofOf s mb.val c key →
          ∃ t, exec (.authProve mb proof) s = .next t ∧ (mbxOf t mb.val).challenge = none
            ∧ (mbxOf t mb.val).session = (mbxOf s mb.val).session
            ∧ (mbxOf t mb.val).answer = some { status := .denied }))

/-- On an awake block with the PCIe link up: a TIME_INCR write within 4,294,967 either way sets ADJ, and one outside sets INCR_REJ; a read of TIME_NOW_NS gives the nanoseconds and puts the whole counter into the reading function's snapshot; a read of STP_RTC_SUB gives it and latches the RTC seconds; writing a SEQ to TMP_LOG_SEL loads the record of that SEQ, or sets MISS where the ring has none; a POP of a queue whose domain is ON drops the oldest entry and, at COUNT 0, nothing, and an entry that met the full queue in the same tick then finds room. Nothing else changes. -/
def Obligations.TimeRegisterCommands : Prop :=
  ∀ s : State, asleep s = false → pcieUp s = true →
    (∀ adj : W32, exec (.timeIncrWrite .pf0 adj) s = .next { s with
        time := if -4294967 ≤ adj.toInt ∧ adj.toInt ≤ 4294967 then { s.time with adj := adj } else { s.time with incrRej := true } })
    ∧ exec (.timeNowRead .pf0) s = .next { s with
        time := { s.time with snap0 := s.time.now }, out := .read (leBytes 4 (s.time.now.sub / 2 ^ 32)) :: s.out }
    ∧ exec (.timeNowRead .pf1) s = .next { s with
        time := { s.time with snap1 := s.time.now }, out := .read (leBytes 4 (s.time.now.sub / 2 ^ 32)) :: s.out }
    ∧ (∀ pf, exec (.rtcRead pf) s = .next { s with
        stp := { s.stp with rtcLatch := s.stp.rtcSec }
        out := .read (leBytes 4 (s.stp.rtcSub + 0x8000 * (if s.stp.osc then 1 else 0))) :: s.out })
    ∧ (∀ seq : W32, ∃ t, exec (.tmpLogSelWrite .pf0 seq) s = .next t ∧ Only [.stp] s t ∧ t.stp.logSel = seq.toNat
        ∧ t.stp.log = s.stp.log
        ∧ (∀ r, t.stp.logData = some r → r ∈ s.stp.log ∧ r.seq = seq.toNat ∧ t.stp.miss = false)
        ∧ (t.stp.logData = none → (∀ r ∈ s.stp.log, r.seq ≠ seq.toNat) ∧ t.stp.miss = true))
    ∧ (∀ q : Port, domOn s (portDom q.val) = true → fusedQ s q.val = false →
        ((tsqOf s q.val).waiting = [] →
          exec (.tsqPop .pf0 q) s = .next (setTsq q.val { tsqOf s q.val with entries := (tsqOf s q.val).entries.drop 1 } s))
        ∧ (∀ e, (tsqOf s q.val).waiting = [e] → (tsqOf s q.val).entries.length = 16 →
          ∃ t, exec (.tsqPop .pf0 q) s = .next t ∧ Only [.traffic, .perf] s t
            ∧ tsqOf t q.val = { tsqOf s q.val with entries := (tsqOf s q.val).entries.drop 1 ++ [e], waiting := [] }))

/-- On an awake block with the PCIe link up and no armed step that has lapsed, GO with AT_PPS 0 sets the step target to be taken at the next tick when no step is spent or armed and the target's nanoseconds are below 10^9; with AT_PPS 1 it arms instead; in every other case GO sets STEP_REJ and moves no time; CANCEL with GO disarms but GO is judged on ARMED as it stood; CANCEL alone disarms. An armed step that lapses, 2 s after GO, disarms and sets STEP_REJ. At the next tick network time takes the target, the step is spent, a TIME_LINK record is written and, unless halted, EV_SECOND is raised. -/
def Obligations.OneStepOfNetworkTime : Prop :=
  ∀ (s : State) (cancel : Bool), asleep s = false →
    (pcieUp s = true → stepLapsed s = false →
      (s.time.spent = false → s.time.armed = none → s.time.stepNs < 10 ^ 9 →
        exec (.stepGo .pf0 cancel) s
          = .next { s with time := { s.time with atPps := false, stepGo := some (s.time.stepSec, s.time.stepNs) } }
        ∧ exec (.stepArm .pf0 cancel) s = .next { s with
            time := { s.time with atPps := true, armed := some (s.time.stepSec, s.time.stepNs), armedAt := s.time.ticks } })
      ∧ (s.time.spent = true ∨ s.time.armed.isSome = true ∨ 10 ^ 9 ≤ s.time.stepNs →
        ∀ arm : Bool, exec (if arm then .stepArm .pf0 cancel else .stepGo .pf0 cancel) s = .next { s with
          time := { s.time with atPps := arm, armed := if cancel then none else s.time.armed, stepRej := true } })
      ∧ (∀ at_ : Bool, exec (.stepCancel .pf0 at_) s = .next { s with time := { s.time with atPps := at_, armed := none } }))
    ∧ (∀ target, s.time.armed = some target → s.time.armedAt + 2 * 10 ^ 9 ≤ s.time.ticks →
        exec .stepLapse s = .next { s with time := { s.time with armed := none, stepRej := true } })
    ∧ (s.time.armed = none ∨ s.time.ticks < s.time.armedAt + 2 * 10 ^ 9 → exec .stepLapse s = .next s)
    ∧ (∀ sec ns, s.pending = [] → s.time.stepGo = some (sec, ns) → ∃ t, step s = .next t
        ∧ t.time.now = { sec := sec, sub := ns * 2 ^ 32 } ∧ t.time.spent = true ∧ t.time.armed = none ∧ t.time.stepGo = none
        ∧ t.time.ticks = s.time.ticks + 1 ∧ t.time.adj = s.time.adj
        ∧ (∃ r, t.stp.log.getLast? = some r ∧ r.kind = kindTimeLink)
        ∧ (halted s = false → t.irq.cause.getLsbD 0x13 = true))

/-- For an OFFICER or OPERATOR session, with no armed step that has lapsed: SYS.TIME_STEP with at_pps 0 and 1 steps at the next tick and arms as the registers do and answers OK, at_pps 2 disarms, at_pps above 2 answers BAD_VALUE, and a step already made or armed answers STEP_SPENT, with no time moved. A PPS_IN edge on an awake block makes an armed step that has not lapsed, and with IN_EN 1 stamps TIME_PPSIN with the time then standing and sets PPSIN_NEW, and PPSIN_OVR where PPSIN_NEW stood. -/
def Obligations.StepByCommandAndByEdge : Prop :=
  (∀ (s : State) (mb : Mb) (w : World) (sec ns : Nat), MayRun [.officer, .operator] [] mb w s → stepLapsed s = false →
    (s.time.spent = false → s.time.armed = none → ns < 10 ^ 9 →
      exec (.sysTimeStep mb sec ns 0) s
        = .next (answer mb.val (.ok, []) { begun mb.val s with time := { s.time with stepGo := some (sec, ns) } })
      ∧ exec (.sysTimeStep mb sec ns 1) s = .next (answer mb.val (.ok, []) { begun mb.val s with
          time := { s.time with armed := some (sec, ns), armedAt := s.time.ticks } }))
    ∧ exec (.sysTimeStep mb sec ns 2) s = .next (answer mb.val (.ok, []) { begun mb.val s with time := { s.time with armed := none } })
    ∧ (∀ k, 2 < k → exec (.sysTimeStep mb sec ns k) s = .next (answer mb.val (.badValue, []) (begun mb.val s)))
    ∧ (s.time.spent = true ∨ s.time.armed.isSome = true → ∀ k, k < 2 →
        exec (.sysTimeStep mb sec ns k) s = .next (answer mb.val (.stepSpent, []) (begun mb.val s))))
  ∧ ∀ s : State, asleep s = false → stepLapsed s = false → ∃ t, exec .ppsInEdge s = .next t
    ∧ (∀ sec ns, s.time.armed = some (sec, ns) →
        t.time.now = { sec := sec, sub := ns * 2 ^ 32 } ∧ t.time.spent = true ∧ t.time.armed = none)
    ∧ (s.time.armed = none → t.time.now = s.time.now ∧ t.time.spent = s.time.spent ∧ Only [.time] s t)
    ∧ (s.time.ppsInEn = true → t.time.ppsin = t.time.now ∧ t.time.ppsinNew = true
        ∧ t.time.ppsinOvr = (s.time.ppsinOvr || s.time.ppsinNew))
    ∧ (s.time.ppsInEn = false → t.time.ppsin = s.time.ppsin ∧ t.time.ppsinNew = s.time.ppsinNew)

/-- On a live block with no suppressed tamper record, step of network time or time stamp waiting and no channel switch accepted, SECOND_BOUNDARY carries the counter into the next second, copies every live counter to its latched copy with the new second in PERF_LAT_SEC, clears the counters with latch_clear ON, latches the Wellhead counts of sealed ports whose domain is ON, raises PPS_OUT for WIDTH_MS where OUT_EN is 1 and the device is not in BOOT, and sets the cause bit of EV_SECOND. -/
def Obligations.SecondBoundaryLatches : Prop :=
  ∀ s : State, live s = true → s.stp.suppressed = [] → s.time.now.sub < 10 ^ 9 * 2 ^ 32 → 0 < tickUnits s → s.time.stepGo = none →
    (∀ x ∈ s.traffic.tsq, x.2.waiting = []) → (∀ x ∈ s.traffic.chans, x.2.switching = false) →
    ∃ t, exec .secondBoundary s = .next t ∧ t.time.now.sec = (s.time.now.sec + 1) % 2 ^ 48 ∧ t.time.now.sub < tickUnits s
      ∧ t.perf.lat = s.perf.cnt ∧ t.perf.flat = s.perf.fix ∧ t.perf.latSec = t.time.now.sec
      ∧ (∀ p : LPort, domOn s (portDom (48 + p.val)) = true → (tget {} t.wh p.val).latSec = t.time.now.sec % 2 ^ 32)
      ∧ (∀ p : LPort, domOn s (portDom (48 + p.val)) = true → sealedQ s (48 + p.val) = true →
          (tget {} t.wh p.val).latched.txCells = (tget {} s.wh p.val).live.txCells ∧ (tget {} t.wh p.val).live.txCells = 0)
      ∧ (∀ p : LPort, domOn s (portDom (48 + p.val)) = true → sealedQ s (48 + p.val) = false → (tget {} t.wh p.val).latched = {})
      ∧ (s.time.ppsOutEn = true → s.glb.mode ≠ .boot →
          t.time.ppsOut = true ∧ t.time.ppsFallAt = t.time.ticks + s.time.ppsWidth * 10 ^ 6) ∧ t.irq.cause.getLsbD 0x13 = true
      ∧ Only ([.time, .stp, .wh] ++ raised) s t

/-- On an awake block PPS_OUT_FALL lowers PPS_OUT once its width has passed since the boundary, and not before; on a live one 200 ms after a boundary, with OUT_EN of TIME_TOD_CTRL 1 and the device not in BOOT, TOD_SEND drives 16 bytes that name the next second, with flags and UTC offset as the register stands and the CRC of the first 14, and a second one for the same boundary changes nothing; with IN_EN 1 a message of 16 bytes with the right magic, version and check goes to TIME_TODIN and sets TODIN_NEW, and any other sets TODIN_BAD alone; with IN_EN 0 nothing changes. -/
def Obligations.PulseAndTimeOfDay : Prop :=
  ∀ s : State, asleep s = false →
    (s.time.ppsFallAt ≤ s.time.ticks → exec .ppsOutFall s = .next { s with time := { s.time with ppsOut := false } })
    ∧ (s.time.ticks < s.time.ppsFallAt → exec .ppsOutFall s = .next s)
    ∧ (halted s = false → ∀ t0, s.time.todAt = some t0 → t0 + 2 * 10 ^ 8 ≤ s.time.ticks →
        (s.time.todCtrl.getLsbD 0 = true → s.glb.mode ≠ .boot → ∃ m, exec .todSend s
            = .next { s with time := { s.time with todAt := none }, out := .tod m :: s.out }
          ∧ m.length = 16 ∧ beAt m 0 2 = 0x5854 ∧ beAt m 2 1 = 1 ∧ beAt m 4 6 = (s.time.now.sec + 1) % 2 ^ 48
          ∧ beAt m 10 2 = s.time.todCtrl.toNat / 65536 ∧ beAt m 14 2 = todCheck m)
        ∧ (s.time.todCtrl.getLsbD 0 = false → exec .todSend s = .next { s with time := { s.time with todAt := none } }))
    ∧ (s.time.todAt = none → exec .todSend s = .next s)
    ∧ ∀ (m : Bytes) (gapOk : Bool),
      (s.time.todCtrl.getLsbD 1 = false → exec (.todReceive m gapOk) s = .next s)
      ∧ (s.time.todCtrl.getLsbD 1 = true →
          (gapOk = true ∧ m.length = 16 ∧ beAt m 0 2 = 0x5854 ∧ beAt m 2 1 = 1 ∧ beAt m 14 2 = todCheck m →
            exec (.todReceive m gapOk) s = .next { s with time := { s.time with todin := m, todinNew := true } })
          ∧ (¬ (gapOk = true ∧ m.length = 16 ∧ beAt m 0 2 = 0x5854 ∧ beAt m 2 1 = 1 ∧ beAt m 14 2 = todCheck m) →
            exec (.todReceive m gapOk) s = .next { s with time := { s.time with todinBad := true } }))

/-- One enabled source other than ZEROIZE_N that is sampled, not in alarm and has written fewer than 8 records in this RTC second, recognised in alarm, enters TMP_STATE and writes one ASSERT record with the next SEQ; from alarm, recognised clear, it leaves TMP_STATE and writes a CLEAR record; a recognition beyond the eighth is counted and not written; the flush at the next RTC second starts the counts anew. Losing main power writes a MAIN_LOST record and leaves no key line, and its return writes a MAIN_BACK record and resets the device with cause 0; without main power the loss of both cells clears the DRK banks, the canary, the log and the RTC; with main power and 86,400 RTC seconds after the last one, a TIME_LINK record pairs RTC and network time, and before that nothing changes; ZEROIZE_N recognised on an awake device with main power drives the destruction line, so that no key slot, inline-memory key, internal key or DRK remains. -/
def Obligations.Standpipe : Prop :=
  (
  ∀ (s : State) (n : SrcNo), n.val ≠ 0 → sampled s n.val = true → attr s clsTamper n.val 4 = 0 →
    (s.stp.alarm.contains n.val = false → ∃ t, exec (.tamperAssert [n.val]) s = .next t
      ∧ (∀ k : SrcNo, t.stp.alarm.contains k.val = (s.stp.alarm.contains k.val || k == n))
      ∧ (tget 0 s.stp.written n.val < 8 → (∃ r, t.stp.log.getLast? = some r ∧ r.seq = s.stp.nextSeq ∧ r.source = n.val
          ∧ r.kind = kindAssert ∧ r.detail = 0) ∧ t.stp.nextSeq = (s.stp.nextSeq + 1) % 2 ^ 32)
      ∧ (8 ≤ tget 0 s.stp.written n.val → t.stp.log = s.stp.log
          ∧ tget 0 t.stp.suppressed n.val = tget 0 s.stp.suppressed n.val + 1)
      ∧ Only [.stp] s t)
    ∧ (s.stp.alarm.contains n.val = true → ∃ t, exec (.tamperClear n) s = .next t
      ∧ t.stp.alarm.contains n.val = false ∧ (∀ k, k ≠ n.val → t.stp.alarm.contains k = s.stp.alarm.contains k)
      ∧ (tget 0 s.stp.written n.val < 8 → ∃ r, t.stp.log.getLast? = some r ∧ r.seq = s.stp.nextSeq ∧ r.source = n.val
          ∧ r.kind = kindClear)
      ∧ Only [.stp] s t)
    ∧ (s.stp.suppressed = [] → s.stp.rtcSub < 32768 → exec .suppressedFlush s = .next { s with stp := { s.stp with
        rtcSec := (s.stp.rtcSec + 1) % 2 ^ 32, rtcSub := 0, written := [] } })) ∧ (
  ∀ s : State,
    (s.stp.main = true → ∃ t, exec .mainPowerLost s = .next t ∧ t.stp.main = false
      ∧ (∃ r, t.stp.log.getLast? = some r ∧ r.kind = kindMainLost ∧ r.seq = s.stp.nextSeq)
      ∧ t.keys.kslot = [] ∧ t.keys.gslot = [] ∧ t.keys.ime = [] ∧ t.keys.internal = [] ∧ t.keys.drk = none ∧ Only [.stp, .rng, .keys] s t)
    ∧ (s.stp.main = false → ∃ t, exec .mainPowerBack s = .next t ∧ t.stp.main = true ∧ t.glb.inReset = true
      ∧ (∃ r, t.stp.log.getLast? = some r ∧ r.kind = kindMainBack ∧ r.seq = s.stp.nextSeq)
      ∧ t.glb.resetCause = 0 ∧ t.glb.warm = false ∧ t.pending = s.pending)
    ∧ (s.stp.main = false → ∃ t, exec .backupCellsLost s = .next t ∧ t.stp.bankA = none ∧ t.stp.bankB = none
      ∧ t.stp.canary = false ∧ t.stp.log = [] ∧ t.stp.rtcSec = 0 ∧ t.stp.rtcSub = 0 ∧ Only [.stp] s t)
    ∧ (s.stp.main = true → linkDue s = false → exec .timeLink s = .next s)
    ∧ (s.stp.main = true → linkDue s = true → ∃ t, exec .timeLink s = .next t ∧ t.stp.linkSec = s.stp.rtcSec
      ∧ (∃ r, t.stp.log.getLast? = some r ∧ r.kind = kindTimeLink ∧ r.rtcSec = s.stp.rtcSec ∧ r.ntSec = s.time.now.sec
        ∧ r.ntNs = s.time.now.ns) ∧ Only [.stp] s t)
    ∧ (s.stp.main = true → s.stp.alarm.contains 0 = false → ∃ t, exec (.tamperAssert [0]) s = .next t
      ∧ t.keys.kslot = [] ∧ t.keys.gslot = [] ∧ t.keys.ime = [] ∧ t.keys.internal = [] ∧ t.keys.drk = none
      ∧ t.stp.bankA = none ∧ t.stp.bankB = none ∧ t.pair.exch = {} ∧ t.keys.line.isSome = true))

/-- With the PCIe link up, a PF0 write of PMU_DOM_n by an awake block stores CMD_WAKE with every request. Where the domain is host-switched, not fused off, and no wake meets the request: a RET of an ON domain that offers it, or an OFF of a domain that is ON or RET, starts CHANGING toward the target with RESULT 0 when the domain's condition holds and answers REFUSED (3) with the state unchanged when it does not; a request of the state it is in answers DONE (1), one while CHANGING BUSY (4), RET of a domain without retention or from OFF NOT_ALLOWED (5). REQ ON starts a RET or OFF domain toward ON and answers DONE where it is ON. A change that completes takes its state with RESULT 1; for a cluster domain, 34 to 41 and the others alike. Nothing else changes. On an awake block a domain that is CHANGING toward ON becomes ON; an IDLE cluster of that domain is ACTIVE again; with no port of the domain admin UP, a domain that returns from retention keeps its contents, so that nothing but the domain changes, and a MAC group that returns from OFF finds its ports without link and its transmit time-stamp queues empty. -/
def Obligations.PowerDomains : Prop :=
  (
  ∀ (s : State) (d : DomNo) (cw : Bool), asleep s = false → pcieUp s = true → hostSwitched d.val = true → (s.nvm.part9624 && fusedDom d.val) = false →
    (let put (x : Dom) : State := setDom s d.val x
     let now := domOf s d.val
     (now.state = .on ∨ now.state = .ret → now.woken ≠ some s.time.ticks → sleepOk s d.val = true →
       exec (.pmuDomReqOff .pf0 d cw false) s = .next (put { now with
         cmdWake := cw, state := .changing, toward := .off, result := 0, asked := s.time.ticks, fromOff := !offersRet d.val }))
     ∧ (now.state = .on → offersRet d.val = true → now.woken ≠ some s.time.ticks → sleepOk s d.val = true →
       exec (.pmuDomReqRet .pf0 d cw false) s = .next (put { now with
         cmdWake := cw, state := .changing, toward := .ret, result := 0, asked := s.time.ticks, fromOff := false }))
     ∧ (∀ w, now.state = .on → sleepOk s d.val = false →
       exec (.pmuDomReqOff .pf0 d cw w) s = .next (put { now with cmdWake := cw, result := 3 })
       ∧ (offersRet d.val = true → exec (.pmuDomReqRet .pf0 d cw w) s = .next (put { now with cmdWake := cw, result := 3 })))
     ∧ (∀ w, now.state = .changing → exec (.pmuDomReqOff .pf0 d cw w) s = .next (put { now with cmdWake := cw, result := 4 }))
     ∧ (∀ w, now.state = .off → exec (.pmuDomReqOff .pf0 d cw w) s = .next (put { now with cmdWake := cw, result := 1 }))
     ∧ (∀ w, offersRet d.val = false ∨ now.state = .off →
       exec (.pmuDomReqRet .pf0 d cw w) s = .next (put { now with cmdWake := cw, result := 5 }))
     ∧ (now.state = .on →
       exec (.pmuDomReqOn .pf0 d cw) s = .next (put { now with cmdWake := cw, result := 1, woken := some s.time.ticks }))
     ∧ (now.state = .ret ∨ now.state = .off →
       exec (.pmuDomReqOn .pf0 d cw) s = .next (put { now with
         cmdWake := cw, result := 0, state := .changing, toward := .on, fromOff := now.state == .off }))
     ∧ (now.state = .changing → now.toward ≠ .on →
       exec (.domainChangeDone d) s = .next (put { now with state := now.toward, result := 1 })))
    ∧ ∀ x, Only [.pmu] s (setDom s d.val x)) ∧ (
  ∀ (s : State) (d : DomNo), asleep s = false → (s.nvm.part9624 && fusedDom d.val) = false →
    (domOf s d.val).state = .changing → (domOf s d.val).toward = .on →
    ∃ t, exec (.domainWakeDone d) s = .next t ∧ (d.val < 34 → (clusterOf s d.val).role = .idle → (clusterOf t d.val).role = .active)
      ∧ domOn t d.val = true
      ∧ ((∀ q ∈ domPorts d.val, adminUp s q = false) → (domOf s d.val).fromOff = false → (34 ≤ d.val ∨ (clusterOf s d.val).role ≠ .idle) → Only [.pmu] s t
          ∧ (∀ n, n ≠ d.val → domOf t n = domOf s n) ∧ t.pmu.clusters = s.pmu.clusters)
      ∧ ((∀ q ∈ domPorts d.val, adminUp s q = false) → 58 ≤ d.val → d.val ≤ 69 → (domOf s d.val).fromOff = true → ∀ q : Port, portDom q.val = d.val →
          (portOf t q.val).link = false ∧ tsqOf t q.val = {}))

/-- On an awake block: with the PCIe link up a PMU_PACE_LIMIT write of 800 to 1800 outside the tick of a meter round is stored, one in the tick of a round lowers p_adm to it at once where it is lower, and any other value is discarded; p_disp takes the pace of a fall of p_adm once every frame accepted under the higher pace has entered a cluster, or the horizon and 2 µs have passed, and waits otherwise; a meter round, 10 µs after the last, adds 1 to fixed counter 63 while the device is not halted, gives each powered cluster its reading with a band moved by the hysteresis of R175, and while a sag warning is in force p_adm never rises, and one that comes earlier changes nothing; a sag warning sets both flags, counts to at most 65,535, names the point and lowers both paces to the lowest table entry at 95 % of the reference; 10 µs after the last warning its end clears the warning and not the seen flag; a downshift evaluation makes at most four clusters IDLE and none ACTIVE, and with downshift off changes nothing. -/
def Obligations.PaceAndSag : Prop :=
  ∀ s : State, asleep s = false →
    (pcieUp s = true → ∀ v : W32,
      (v.toNat % 2048 < 800 ∨ 1800 < v.toNat % 2048 → exec (.paceLimitWrite .pf0 v) s = .next s)
      ∧ (800 ≤ v.toNat % 2048 → v.toNat % 2048 ≤ 1800 →
        (s.pmu.roundAt ≠ some s.time.ticks → exec (.paceLimitWrite .pf0 v) s = .next { s with pmu := { s.pmu with
            paceLimit := v.toNat % 2048, limitAt := some s.time.ticks
            limitOld := if s.pmu.limitAt = some s.time.ticks then s.pmu.limitOld else s.pmu.paceLimit } })
        ∧ (s.pmu.roundAt = some s.time.ticks → v.toNat % 2048 < s.pmu.pAdm → ∃ t, exec (.paceLimitWrite .pf0 v) s = .next t
            ∧ t.pmu.paceLimit = v.toNat % 2048 ∧ t.pmu.pAdm = v.toNat % 2048)))
    ∧ (s.pmu.drains = [] → exec .paceDispFollow s = .next s)
    ∧ (∀ d r, s.pmu.drains = d :: r → drained1 s d = false → exec .paceDispFollow s = .next s)
    ∧ (∀ d, s.pmu.drains = [d] → drained1 s d = true → ∃ t, exec .paceDispFollow s = .next t ∧ Only [.pmu] s t
        ∧ t.pmu.pDisp = d.pace ∧ t.pmu.drains = [] ∧ t.pmu.pAdm = s.pmu.pAdm)
    ∧ (∀ l : Readings, roundDue s = false → exec (.meterRound l) s = .next s)
    ∧ (∀ l : Readings, roundDue s = true → ∃ t, exec (.meterRound l) s = .next t
        ∧ (halted s = false → tget 0 t.perf.fix 63 = (tget 0 s.perf.fix 63 + 1) % 2 ^ 48)
        ∧ (∀ (c : Nat) (r : Reading), c < 34 → l[c]? = some r → (domOf s c).state ≠ .off →
            (clusterOf t c).meter = r.meter ∧ (clusterOf t c).temp = r.temp ∧ (clusterOf t c).vdd = r.vdd
            ∧ (clusterOf t c).band = nextBand r.temp (clusterOf s c).band)
        ∧ (s.pmu.sagWarn = true → t.pmu.pAdm ≤ s.pmu.pAdm)
        ∧ t.keys = s.keys ∧ t.traffic = s.traffic ∧ t.time = s.time)
    ∧ (∀ point, ∃ t, exec (.sagWarn point) s = .next t
        ∧ t.pmu.sagWarn = true ∧ t.pmu.sagSeen = true ∧ t.pmu.sagCount = min 0xFFFF (s.pmu.sagCount + 1) ∧ t.pmu.sagPoint = point % 8
        ∧ t.pmu.pAdm = min s.pmu.pAdm (lowestTab s (95 * sagReference s / 100))
        ∧ t.pmu.pDisp = min s.pmu.pDisp (lowestTab s (95 * sagReference s / 100))
        ∧ t.irq.cause.getLsbD 2 = true ∧ Only ([.pmu] ++ raised) s t)
    ∧ (s.pmu.sagAt + 10000 ≤ s.time.ticks → exec .sagWarnClear s = .next { s with pmu := { s.pmu with sagWarn := false } })
    ∧ (s.time.ticks < s.pmu.sagAt + 10000 → exec .sagWarnClear s = .next s)
    ∧ (∀ l : Loads, ∃ t, exec (.downshiftEval l) s = .next t ∧ Only [.pmu] s t
        ∧ (∀ c, (clusterOf t c).role = .active → (clusterOf s c).role = .active)
        ∧ (byRole t .idle).length ≤ (byRole s .idle).length + 4
        ∧ (attr s clsPmu 0 4 = 0 → t = s))

/-- On a live block with the PCIe link up, with track 0 and no change in progress: a target of 650 to 850 mV in steps of 5 mV above the rail is issued at once, and one below lowers p_adm to the lowest table entry at that voltage and is held; a target while a change is in progress waits as the latest; any other value, or any with track 1, sets TARGET_REJ and asks for nothing. A held lowering is issued once p_disp has followed. The sensors' confirmation, 10 µs after the issue, ends a change that was issued. A transaction of the bus that fails sets ERR, adds 1 to fixed counter 38 and changes no setpoint; telemetry, 1 ms after the last, that succeeds stores its three words. -/
def Obligations.CoreVoltage : Prop :=
  ∀ s : State, live s = true → pcieUp s = true →
    (∀ v : W32, attr s clsPmu 0 7 = 0 →
      (let mv := v.toNat % 1024
       650 ≤ mv → mv ≤ 850 → mv % 5 = 0 →
        (s.pmu.avsChange = none → s.pmu.rail < mv → exec (.avsTargetWrite .pf0 v true) s = .next { s with
            pmu := { s.pmu with avsTarget := mv, rail := mv, avsChange := some { target := mv, old := s.pmu.rail, issued := true, since := s.time.ticks } }
            out := .avs mv :: s.out })
        ∧ (s.pmu.avsChange = none → mv < s.pmu.rail → ∀ ok, ∃ t, exec (.avsTargetWrite .pf0 v ok) s = .next t ∧ Only [.pmu] s t
            ∧ t.pmu.avsTarget = mv ∧ t.pmu.rail = s.pmu.rail
            ∧ t.pmu.avsChange = some { target := mv, old := s.pmu.rail, issued := false }
            ∧ t.pmu.pAdm = min s.pmu.pAdm (lowestTab s mv))
        ∧ (s.pmu.avsChange.isSome = true → ∀ ok, exec (.avsTargetWrite .pf0 v ok) s
            = .next { s with pmu := { s.pmu with avsTarget := mv, avsNext := some mv } })))
    ∧ (∀ (v : W32) (ok : Bool),
        attr s clsPmu 0 7 = 1 ∨ v.toNat % 1024 < 650 ∨ 850 < v.toNat % 1024 ∨ v.toNat % 1024 % 5 ≠ 0 →
        exec (.avsTargetWrite .pf0 v ok) s = .next { s with pmu := { s.pmu with avsRej := true } })
    ∧ (∀ c, s.pmu.avsChange = some c → c.issued = false → s.pmu.drains = [] → exec (.avsLowerIssue true) s = .next { s with
          pmu := { s.pmu with rail := c.target, avsChange := some { target := c.target, old := s.pmu.rail, issued := true, since := s.time.ticks } }
          out := .avs c.target :: s.out })
    ∧ (∀ c d r, s.pmu.avsChange = some c → s.pmu.drains = d :: r → drained1 s d = false → ∀ ok, exec (.avsLowerIssue ok) s = .next s)
    ∧ (∀ c, s.pmu.avsChange = some c → c.issued = true → s.pmu.avsNext = none → c.since + 10000 ≤ s.time.ticks →
        exec .avsConfirm s = .next { s with pmu := { s.pmu with avsConfirmed := c.target, avsChange := none } })
    ∧ (∀ c, s.pmu.avsChange = some c → s.time.ticks < c.since + 10000 → exec .avsConfirm s = .next s)
    ∧ (s.pmu.teleAt.all (fun t => passed s t (10 ^ 6)) = true → ∀ v i k, exec (.avsTelemetry v i k true) s = .next { s with
          pmu := { s.pmu with teleAt := some s.time.ticks, vout := v % 65536, iout := i % 65536, avsTemp := k % 65536 } })
    ∧ (s.pmu.teleAt.all (fun t => passed s t (10 ^ 6)) = true → ∀ v i k, ∃ t, exec (.avsTelemetry v i k false) s = .next t
        ∧ t.pmu = { s.pmu with avsErr := true, teleAt := some s.time.ticks }
        ∧ tget 0 t.perf.fix 38 = (tget 0 s.perf.fix 38 + 1) % 2 ^ 48 ∧ Only [.pmu, .perf, .maint] s t)

/-- On an awake block a keyed PF0 write of GLB_RESET.COLD or WARM with the PCIe link up, RESET_N low, and a sag reset each record a pending reset with their code, their kind and the time of the recognition, and send HALTING on a keyed mated link; a write without the key does nothing; a source that meets a pending reset keeps the lower code and is cold where either is; nothing of the machine is reset yet. On an awake block a function-level reset of PF1 leaves MB14 and MB15 without session, request and answer, one of PF0 MB0 to MB13, the data port and the interrupt block at their reset values, the number of records written apart, and lookaside queue Q0 at its reset value; a hot reset does both; session identifiers used stay used, and a command that waits in a mailbox goes on without an answer; nothing else changes. -/
def Obligations.ResetsRecognised : Prop :=
  (
  ∀ s : State, asleep s = false →
    (let asked (code : Nat) (cold : Bool) (t : State) : Prop :=
       t.glb.pendingReset = some (match s.glb.pendingReset with
         | none => { code := code, cold := cold, soft := if 2 ≤ code then some s.time.ticks else none
                     hard := if 2 ≤ code then none else some s.time.ticks }
         | some r => { code := min r.code code, cold := r.cold || cold
                       soft := r.soft.or (if 2 ≤ code then some s.time.ticks else none)
                       hard := r.hard.or (if 2 ≤ code then none else some s.time.ticks) })
       ∧ t.glb.mode = s.glb.mode ∧ t.glb.inReset = false ∧ Only [.glb, .traffic, .reqs, .out] s t
       ∧ (s.pair.linkUp = false ∨ s.glb.pendingReset.isSome = true → t.out = s.out ∧ t.reqs = s.reqs ∧ t.traffic = s.traffic)
       ∧ (s.pair.linkUp = true → s.glb.pendingReset = none →
            t.out = .mate (leBytes 1 0x12 ++ [BitVec.ofNat 8 (if code = 1 then 0x80 else 0x81)]) :: s.out)
     (pcieUp s = true → ∃ t, exec (.glbResetCold .pf0 0xA5C3) s = .next t ∧ asked 3 true t)
     ∧ (pcieUp s = true → ∃ t, exec (.glbResetWarm .pf0 0xA5C3) s = .next t ∧ asked 4 false t)
     ∧ (∃ t, exec .sagReset s = .next t ∧ asked 1 true t)
     ∧ (∃ t, exec .resetNRecognised s = .next t ∧ asked 2 true t ∧ t.glb.resetNLow = true)
     ∧ (∀ k, k ≠ 0xA5C3 → exec (.glbResetCold .pf0 k) s = .next s ∧ exec (.glbResetWarm .pf0 k) s = .next s))) ∧ (
  ∀ s : State, asleep s = false →
    (∃ t, exec (.pcieFlr .pf1) s = .next t ∧ Only [.mbx, .dp] s t
      ∧ (∀ m, m = 14 ∨ m = 15 → mbxOf t m = { usedIds := (mbxOf s m).usedIds, orphan := waits s m || (mbxOf s m).orphan })
      ∧ (∀ m, m < 14 ∨ 16 ≤ m → mbxOf t m = mbxOf s m))
    ∧ (∃ t, exec (.pcieFlr .pf0) s = .next t ∧ Only [.mbx, .dp, .irq, .la] s t
      ∧ (∀ m, m < 14 → mbxOf t m = { usedIds := (mbxOf s m).usedIds, orphan := waits s m || (mbxOf s m).orphan }) ∧ (∀ m, 14 ≤ m → mbxOf t m = mbxOf s m)
      ∧ t.dp = {} ∧ t.irq = { records := s.irq.records } ∧ tget {} t.la 0 = {}
      ∧ (∀ q, q ≠ 0 → tget {} t.la q = tget {} s.la q))
    ∧ (∃ t, exec .pcieHotReset s = .next t ∧ Only [.mbx, .dp, .irq, .la] s t ∧ t.dp = {}
      ∧ (∀ m, m < 16 → mbxOf t m = { usedIds := (mbxOf s m).usedIds, orphan := waits s m || (mbxOf s m).orphan })))

/-- A recognised reset takes effect, on an awake device, 5 µs after a recognition of code 0 or 1, or 5 µs after one of another code where the destruction line is not driven and no fuses are programmed, and not before; it puts the device in reset with its code as cause and the halt cause kept as the last one; the Standpipe, the fuses, the calibration set, the bindings and the persist records stay, fuses whose programming a reset of code 0 or 1 cuts reading as before or blown; the stored bytes of the Reservoir stay and other memory reads zero; every channel slot is EMPTY, and objects, channels, rings, sessions and the pairing state read at their defaults. A warm reset keeps network time, the enable of MSI-X and the general slots, save that a VALID slot with EXP_RESET is EXPIRED; a cold one and POWER_ON leave every general slot EMPTY and network time at zero. -/
def Obligations.ResetLeaves : Prop :=
  ∀ s : State,
    (let left (code : Nat) (cold : Bool) (t : State) : Prop :=
       t.glb.inReset = true ∧ t.glb.resetCause = code ∧ t.glb.mode = .boot ∧ t.glb.haltCause = 0 ∧ t.glb.pendingReset = none
       ∧ t.glb.lastHalt = (if code = 0 then 0 else s.glb.haltCause)
       ∧ t.stp = s.stp ∧ t.pending = s.pending
       ∧ (s.nvm.programming = none → t.nvm = { s.nvm with patchApplied := 0 })
       ∧ (∀ l m, s.nvm.programming = some (l, m) → t.nvm = { s.nvm with programming := none, patchApplied := 0 }
            ∨ t.nvm = { burn l s.nvm with patchApplied := 0 })
       ∧ t.time = (if cold then {} else { s.time with ppsOut := false }) ∧ t.irq = { msix := !cold && s.irq.msix }
       ∧ (∀ a, isRes a = true → tget 0 t.mem.bytes a = tget 0 s.mem.bytes a)
       ∧ (∀ a, isRes a = false → tget 0 t.mem.bytes a = 0)
       ∧ t.keys.kslot = [] ∧ t.objs = [] ∧ t.traffic = {} ∧ t.reqs = [] ∧ t.rings = [] ∧ t.mbx = [] ∧ t.pair = {} ∧ t.wh = [] ∧ t.cas = []
       ∧ (∀ n, gslotOf t n = if cold then {} else
            if (gslotOf s n).state = .valid ∧ attrExpReset (gslotOf s n).attr then { gslotOf s n with state := .expired }
            else gslotOf s n)
     (∀ r, s.glb.pendingReset = some r →
       (let due : Prop := (∃ a, r.hard = some a ∧ a + 5000 ≤ s.time.ticks)
          ∨ (∃ a, r.soft = some a ∧ a + 5000 ≤ s.time.ticks ∧ s.keys.line = none ∧ s.nvm.programming = none)
        (asleep s = false → due → ∃ t, exec .resetEffect s = .next t ∧ left r.code r.cold t)
        ∧ (asleep s = true ∨ ¬ due → exec .resetEffect s = .next s)))
     ∧ (s.stp.main = true → ∃ t, exec .powerOn s = .next t ∧ left 0 true t))

/-- A release of a powered device in reset whose destruction line is not driven leaves reset: with both the clock and the entropy source good it boots, with the lifecycle of the fuses, regions 0 to 3 as Table 9-15 gives them and every other region off, the core rail confirmed at 750 mV, or at what the sensors read, rounded down to 5 mV, where the write to the regulator fails, and the pair PAIRING where a binding stands; without the reference clock it halts with REFCLK, otherwise without entropy with ENTROPY. The end of boot enters RECOVERY on a failed check or when RETIRED, else ENROL when BLANK or without an officer slot, else PROVISION. A SYS.MODE SERVICE that waits answers OK in SERVICE after a meter round, an unpaired device then holding the lease, and INTERNAL in its old mode when 50 ms have passed and the round has not come, and not before. -/
def Obligations.StartUp : Prop :=
  (∀ (s : State) (b : BootReport), s.glb.inReset = true → s.stp.main = true → halted s = false → s.keys.line = none →
    ∃ t, exec (.resetRelease b) s = .next t ∧ t.glb.inReset = false ∧ t.glb.resetNLow = false
      ∧ t.glb.lifecycle = (if b.fuseBad then .retired else fuseLifecycle s.nvm) ∧ t.glb.mode = s.glb.mode
      ∧ (b.refclkBad = true → t.glb.haltCause = 6)
      ∧ (b.refclkBad = false → b.entropyBad = true → t.glb.haltCause = 7)
      ∧ (b.refclkBad = false → b.entropyBad = false → t.glb.haltCause = 0 ∧ t.glb.booted = true ∧ t.pmu.avsConfirmed = (match b.avsReading with | none => 750 | some v => v / 5 * 5)
          ∧ t.mem.regions = bootRegions ∧ t.pair.state = (if s.nvm.binding.isSome then .pairing else .unpaired)))
  ∧ (∀ s : State, live s = true → s.glb.booted = true → ∃ t, exec .bootEnd s = .next t ∧ t.glb.booted = false
      ∧ t.glb.mode = (if s.glb.bootStatus.toNat % 256 ≠ 0 ∨ s.glb.lifecycle = .retired then .recovery
          else if s.glb.lifecycle = .blank ∨ s.keys.gslot.any (fun p => officerSlot p.2) = false then .enrol else .provision)
      ∧ (paired s = false → Only [.glb, .keys, .mbx, .dp, .rng] s t))
  ∧ (∀ (s : State) (mb : Mb), live s = true → s.glb.serviceWait = some mb → (mbxOf s mb.val).orphan = false →
      (s.glb.serviceRound = true → s.glb.pendingReset = none → ∃ t, exec .serviceEntry s = .next t
        ∧ t.glb.mode = .service ∧ t.glb.serviceWait = none
        ∧ (paired s = false → t.pair.lease = .holder ∧ (mbxOf t mb.val).answer = some { status := .ok }))
      ∧ (s.time.ticks < s.glb.serviceAt + 50000000 → exec .serviceEntryTimeout s = .next s)
      ∧ (s.glb.serviceRound = false → s.glb.serviceAt + 50000000 ≤ s.time.ticks → exec .serviceEntryTimeout s
        = .next (answer mb.val (.internal, []) { s with glb := { s.glb with serviceWait := none } })))

/-- Loss of the system reference clock halts a device that is not halted with REFCLK. On a live device a SerDes group that is lost takes the link of each of its ports down and counts one DEGRADE fault with its condition, and one that returns is no longer lost, the condition clearing with the last. Fuses blown make the new lifecycle, close every session and answer the waiting command, save that a recognised reset wins over the change to PROVISION: SEALED enters PROVISION, DEBUG clears every key and drives the destruction line, RETIRED asks for a cold reset. Boundary scan takes its instruction only while RESET_N is held low and is BYPASS otherwise; nothing else changes. -/
def Obligations.ClocksFusesAndScan : Prop :=
  (∀ s : State, live s = true → ∃ t, exec .refclkSysLost s = .next t ∧ t.glb.haltCause = 6 ∧ t.glb.haltTick = s.time.ticks
      ∧ t.traffic.frames = [] ∧ t.irq.cause.getLsbD 0 = true ∧ Only [.glb, .irq, .traffic, .pmu, .wh, .rings, .time, .reqs, .out] s t)
  ∧ (∀ (s : State) (g : SgNo), live s = true →
      (s.traffic.sgLost.contains g.val = false → ∃ t, exec (.refclkSgLost g) s = .next t
        ∧ t.traffic.sgLost = s.traffic.sgLost ++ [g.val] ∧ (∀ q : Port, portSg q.val = g.val → (portOf t q.val).link = false)
        ∧ t.maint.degrade.getLsbD 2 = true ∧ tget 0 t.perf.fix 42 = (tget 0 s.perf.fix 42 + 1) % 2 ^ 48)
      ∧ (s.traffic.sgLost.contains g.val = true → ∃ t, exec (.refclkSgRestored g) s = .next t
        ∧ t.traffic.sgLost = s.traffic.sgLost.filter (fun k => k != g.val) ∧ (paired s = false → t.traffic.ports = s.traffic.ports)
        ∧ t.maint.degrade = (if s.traffic.sgLost.all (fun k => k == g.val) && s.traffic.sgFailed.isEmpty then s.maint.degrade &&& 0xB
            else s.maint.degrade)))
  ∧ (∀ (s : State) (m : Mb) (l : Lifecycle), asleep s = false → s.nvm.programming = some (l, some m) →
      (mbxOf s m.val).orphan = false → ∃ t, exec .fuseProgramDone s = .next t ∧ t.nvm.programming = none ∧ t.glb.lifecycle = l
        ∧ (∀ n, n < 16 → (mbxOf t n).session = none)
        ∧ (l ≠ .sealed ∨ s.glb.pendingReset = none → (mbxOf t m.val).answer = some { status := .ok })
        ∧ (l = .sealed → t.nvm.sealedFuse = blown ∧ (s.glb.pendingReset = none → t.glb.mode = .provision)
            ∧ (s.glb.pendingReset.isSome = true → t.glb.mode = s.glb.mode ∧ (mbxOf t m.val).answer = (mbxOf s m.val).answer))
        ∧ (l = .debug → t.nvm.debugFuse = blown ∧ t.keys.kslot = [] ∧ t.keys.gslot = [] ∧ t.keys.line.isSome = true)
        ∧ (l = .retired → s.glb.pendingReset = none → t.nvm.retiredFuse = blown
            ∧ t.glb.pendingReset = some { code := 5, cold := true, soft := some s.time.ticks, hard := none }))
  ∧ (∀ (s : State) (i : TapInstr), exec (.boundaryScan i) s = .next { s with tap := if s.glb.resetNLow then (match i with
      | .extest => .extest | .intest => .intest | .clamp => .clamp | .highz => .highz | .bypass => .bypass | .other => .bypass)
      else .bypass })

/-- SYS.STATUS answers OK in any mode and without a session, with the 28 bytes of Table 16-3, on a device that is not halted. SYS.MODE answers DENIED to an OBSERVER, to others BAD_VALUE for a code above 5 and MODE for a change that Table 11-1 does not list; with no reset recognised and no command of another mailbox in execution, from PROVISION or MAINTENANCE a SERVICE request waits for the meter round; ENROL to PROVISION on a SEALED device with an enrolled officer slot enters PROVISION, and on a BLANK one programs the SEALED fuses first; SERVICE to MAINTENANCE enters it; a change to RECOVERY enters it with every frame discarded and no lease. SYS.LIFECYCLE with its confirmation and an allowed target starts the fuses. SYS.PATCH_INFO answers Table 16-6. -/
def Obligations.SystemCommands : Prop :=
  (∀ (s : State) (mb : Mb), asleep s = false → halted s = false → (mbxOf s mb.val).answer = none → held s mb.val = false →
    exec (.sysStatus mb) s = .next (answer mb.val (.ok,
      leBytes 2 (if s.nvm.part9624 then 0x9624 else 0x9648) ++ [0xB0] ++ leBytes 1 s.glb.mode.code ++ leBytes 1 s.glb.lifecycle.code
      ++ leBytes 1 s.glb.haltCause ++ leBytes 1 s.pair.state.code ++ leBytes 1 s.pair.lease.code ++ leBytes 1 (nAct s) ++ [0, 0, 0]
      ++ leBytes 4 s.glb.bootStatus.toNat ++ leBytes 6 s.time.now.sec ++ [0, 0] ++ leBytes 4 s.time.now.ns) s))
  ∧ (∀ (s0 : State) (mb : Mb) (w : World), MayRun [.officer, .operator, .observer] [] mb w s0 → let s := begun mb.val s0
      (∀ k, 5 < k → w ≠ .observer → exec (.sysMode mb k) s0 = .next (answer mb.val (.badValue, []) s))
      ∧ (∀ k, w = .observer → exec (.sysMode mb k) s0 = .next (answer mb.val (.denied, []) s))
      ∧ (w ≠ .observer → exec (.sysMode mb 0) s0 = .next (answer mb.val (.mode, []) s)
          ∧ exec (.sysMode mb 1) s0 = .next (answer mb.val (.mode, []) s)
          ∧ (s.glb.mode = .recovery → ∀ k, k ≤ 5 → exec (.sysMode mb k) s0 = .next (answer mb.val (.mode, []) s)))
      ∧ (w ≠ .observer → s.glb.pendingReset = none → executing s mb.val = false →
          (s.glb.mode = .provision ∨ s.glb.mode = .maintenance → exec (.sysMode mb 3) s0
            = .next { s with glb := { s.glb with serviceWait := some mb, serviceRound := false, serviceAt := s.time.ticks } })
          ∧ (w = .officer → s.glb.mode = .enrol → s.glb.lifecycle = .blank → s.keys.gslot.any (fun p => enrolSlot .sealed p.2) = true →
              exec (.sysMode mb 2) s0 = .next { s with nvm := { s.nvm with programming := some (.sealed, some mb) } })
          ∧ (w = .officer → s.glb.mode = .enrol → s.glb.lifecycle = .sealed → s.keys.gslot.any (fun p => enrolSlot .sealed p.2) = true →
              ∃ t, exec (.sysMode mb 2) s0 = .next t ∧ t.glb.mode = .provision ∧ (mbxOf t mb.val).answer = some { status := .ok })
          ∧ (w = .officer → s.glb.mode = .service →
              ∃ t, exec (.sysMode mb 4) s0 = .next t ∧ t.glb.mode = .maintenance ∧ (mbxOf t mb.val).answer = some { status := .ok })
          ∧ (w = .officer → s.glb.mode ≠ .recovery →
              ∃ t, exec (.sysMode mb 5) s0 = .next t ∧ t.glb.mode = .recovery ∧ t.traffic.frames = [] ∧ t.pair.lease = .none
                ∧ (mbxOf t mb.val).answer = some { status := .ok })))
  ∧ (∀ (s0 : State) (mb : Mb), MayRun [.officer] [.maintenance, .recovery] mb .officer s0 → let s := begun mb.val s0
      (∀ c, c ≠ 0x4C43 → exec (.sysLifecycle mb 3 c) s0 = .next (answer mb.val (.badValue, []) s))
      ∧ (s.glb.lifecycle ≠ .retired → s.nvm.programming = none → exec (.sysLifecycle mb 3 0x4C43) s0
          = .next { s with nvm := { s.nvm with programming := some (.retired, some mb) } })
      ∧ (s.glb.lifecycle = .blank ∨ s.glb.lifecycle = .sealed → s.nvm.programming = none → exec (.sysLifecycle mb 2 0x4C43) s0
          = .next { s with nvm := { s.nvm with programming := some (.debug, some mb) } }))
  ∧ (∀ (s0 : State) (mb : Mb) (w : World), MayRun [.officer, .operator, .observer] [] mb w s0 → let s := begun mb.val s0
      exec (.sysPatchInfo mb) s0 = .next (answer mb.val (.ok,
        leBytes 4 s.nvm.patchApplied ++ leBytes 4 ((s.nvm.patchA.map (·.serial)).getD 0) ++ leBytes 4 ((s.nvm.patchB.map (·.serial)).getD 0)
        ++ leBytes 1 (if s.nvm.selB then 1 else 0) ++ [0, 0, 0] ++ leBytes 4 s.nvm.patchFloor) s))

/-- SYS.RESET writes its OK response and then records a warm or a cold reset; SYS.HALT with its confirmation writes its OK response and then halts the device with cause COMMAND, every frame gone; SYS.PATCH_LOAD of an image that passes the checks of R398 answers OK with the serial, puts the image into the slot that is not selected and selects it. A wrong confirmation, kind or image answers BAD_VALUE, and a SYS.PATCH_LOAD while one of an earlier doorbell on another mailbox executes answers BUSY; both do none of it. -/
def Obligations.ResetHaltAndPatch : Prop :=
  (∀ (s0 : State) (mb : Mb) (w : World), MayRun [.officer, .operator] [] mb w s0 → let s := begun mb.val s0
    (∀ k, k < 2 → s.glb.pendingReset = none → ∃ t, exec (.sysReset mb k) s0 = .next t
      ∧ t.glb.pendingReset = some { code := if k = 1 then 3 else 4, cold := k == 1, soft := some s.time.ticks, hard := none }
      ∧ (mbxOf t mb.val).busy = false ∧ (mbxOf t mb.val).done = true ∧ (mbxOf t mb.val).answer = none
      ∧ Only ([.glb, .mbx, .traffic, .reqs] ++ raised) s t)
    ∧ (∀ k, 1 < k → exec (.sysReset mb k) s0 = .next (answer mb.val (.badValue, []) s)))
  ∧ (∀ (s0 : State) (mb : Mb), MayRun [.officer] [.service, .maintenance] mb .officer s0 → let s := begun mb.val s0
    (∃ t, exec (.sysHalt mb 0x4854) s0 = .next t ∧ t.glb.haltCause = 9 ∧ t.traffic.frames = []
      ∧ (mbxOf t mb.val).busy = false ∧ (mbxOf t mb.val).done = true ∧ t.keys = s.keys)
    ∧ ∀ c, c ≠ 0x4854 → exec (.sysHalt mb c) s0 = .next (answer mb.val (.badValue, []) s))
  ∧ (∀ (s0 : State) (mb : Mb) (a n c : Nat), MayRun [.officer] [.enrol, .maintenance, .recovery] mb .officer s0 → let s := begun mb.val s0
    (patchBusy s mb.val = true → exec (.sysPatchLoad mb a n c) s0 = .next (answer mb.val (.busy, []) s))
    ∧ (patchBusy s mb.val = false → n < 4803 ∨ 2097139 < n → exec (.sysPatchLoad mb a n c) s0 = .next (answer mb.val (.badValue, []) s))
    ∧ (patchBusy s mb.val = false → 4803 ≤ n → n ≤ 2097139 → holding s = false → ∀ b u, bufRead mCp c 0 a n s = (some b, u) →
        (patchCheck b u.nvm.patchFloor = none → exec (.sysPatchLoad mb a n c) s0 = .next (answer mb.val (.badValue, []) u))
        ∧ (∀ k, patchCheck b u.nvm.patchFloor = some k → exec (.sysPatchLoad mb a n c) s0 = .next (answer mb.val (.ok, leBytes 4 k) { u with
            nvm := if u.nvm.selB then { u.nvm with patchA := some { serial := k, image := b }, selB := false }
              else { u.nvm with patchB := some { serial := k, image := b }, selB := true } }))))

/-- For every 40-bit SEQ and either KP, the eight header bytes give SEQ and KP back and pass their check, and with any one of their 64 bits inverted the receiver restores exactly those eight bytes and counts a correction. -/
def Obligations.CellHeaderCorrection : Prop :=
  ∀ (seq kp : Nat), seq < 2 ^ 40 →
    (cellHeader seq kp).length = 8 ∧ headSeq (cellHeader seq kp) = seq ∧ headKp (cellHeader seq kp) = decide (kp % 2 = 1)
    ∧ correctHead (cellHeader seq kp) = some (cellHeader seq kp, false)
    ∧ ∀ i, i < 64 → correctHead (flipBit (cellHeader seq kp) i) = some (cellHeader seq kp, true)

/-- A Wellhead that sends, with SEQ below 2^40 and sound key lines, sends a cell of 1,024 bytes whose header carries its SEQ and the low bit of its epoch, raises SEQ by one, counts the cell, and has no announce due; no key changes. Once SEQ has reached 2^39 both directions hold the next epoch's keys. At SEQ 2^40 the next epoch starts with SEQ 0, its keys, control PN 1 and an announce due; where the epoch would pass 2^32 − 1 no more cells are sent and EV_LOD is raised. The keys of an epoch are those that the session's master, identifier, role, nonce and epoch give. -/
def Obligations.CellsSent : Prop :=
  ∀ (s : State) (p : WPort), sending s p.val = true →
    (let x := (whOf s p.val).tx
     (x.seq < 2 ^ 40 → linkGood s p.val false (oddEpoch x.epoch) = true →
       ∃ t body, exec (.cellTransmit p) s = .next t ∧ Out.cell p.val (cellHeader x.seq x.epoch ++ body) ∈ t.out
       ∧ body.length = 1016 ∧ (whOf t p.val).tx.seq = x.seq + 1 ∧ (whOf t p.val).tx.announceDue = false
       ∧ (whOf t p.val).tx.epoch = x.epoch ∧ (whOf t p.val).live.txCells = (whOf s p.val).live.txCells + 1
       ∧ t.keys = s.keys)
     ∧ (2 ^ 40 ≤ x.seq → x.epoch < 2 ^ 32 - 1 → ∃ t, exec (.epochChange p) s = .next t
          ∧ Only [.wh, .keys, .rng, .reqs, .traffic, .pmu] s t
          ∧ (let y := (whOf t p.val).tx
             y.seq = 0 ∧ y.epoch = x.epoch + 1 ∧ y.next = false ∧ y.ctlPn = 1 ∧ y.announceDue = true ∧ y.ready = [] ∧ y.nonce = x.nonce
             ∧ y.running = true)
          ∧ (x.next = true → t.keys = s.keys)
          ∧ (x.next = false → s.keys.line = none → keysOf t p.val false (oddEpoch (x.epoch + 1))
              = linkKeys (masterOf s p.val) x.linkId x.role x.nonce (x.epoch + 1)))
     ∧ (2 ^ 40 ≤ x.seq → 2 ^ 32 - 1 ≤ x.epoch → ∃ t, exec (.epochEnd p) s = .next t
          ∧ (whOf t p.val).tx.running = false ∧ (live s = true → t.irq.cause.getLsbD 7 = true))
     ∧ (x.running = true → 2 ^ 39 ≤ x.seq → ∃ t, exec (.epochKeyDerive p) s = .next t ∧ Only [.wh, .keys, .rng] s t
          ∧ (whOf t p.val).tx.next = true
          ∧ (x.next = false → s.keys.line = none → keysOf t p.val false (oddEpoch ((x.epoch + 1) % 2 ^ 32))
              = linkKeys (masterOf s p.val) x.linkId x.role x.nonce ((x.epoch + 1) % 2 ^ 32))
          ∧ ((whOf s p.val).rx.keyed = true → 2 ^ 39 ≤ (whOf s p.val).rx.seq → (whOf t p.val).rx.next = true)
          ∧ ∀ q, q ≠ p.val → whOf t q = whOf s q))

/-- On a Wellhead that sends: an announce becomes due; a heartbeat with the running count goes to the array to be sealed and the count rises by one modulo 2^32; an RDI with cause dLOD, else dLHB, goes there while either defect stands and 10 µs have passed since the last one, and none otherwise; the fill generator is seeded anew. A Wellhead that does not send does none of these. -/
def Obligations.ControlMessagesSent : Prop :=
  ∀ (s : State) (p : WPort),
    (let w := whOf s p.val
     (sending s p.val = true →
       exec (.announceSend p) s = .next (setWh p.val { w with tx := { w.tx with announceDue := true } } s)
       ∧ exec (.heartbeatSend p) s = .next (setWh p.val { w with tx := { w.tx with heartbeat := (w.tx.heartbeat + 1) % 2 ^ 32 } }
            (addReq { kind := .seal p.val { data := [2, 0, 0, 0] ++ beBytes 4 w.tx.heartbeat } } s))
       ∧ (w.rx.lod = true ∨ w.rx.lhb = true → (∀ a, w.tx.rdiAt = some a → a + 10000 ≤ s.time.ticks) → exec (.rdiSend p) s
            = .next (addReq { kind := .seal p.val { data := [3, if w.rx.lod then 1 else 2, 0, 0] } }
                (setWh p.val { w with tx := { w.tx with rdiAt := some s.time.ticks } } s)))
       ∧ (∀ a, w.tx.rdiAt = some a → s.time.ticks < a + 10000 → exec (.rdiSend p) s = .next s)
       ∧ (w.rx.lod = false → w.rx.lhb = false → exec (.rdiSend p) s = .next s)
       ∧ exec (.fillDrbgReseed p) s = .next (setWh p.val { w with tx := { w.tx with
            fill := some (drbgSeed w.tx.fill (Config.drbg s.rng 384)) } } { s with rng := s.rng + 1 }))
     ∧ (sending s p.val = false → exec (.announceSend p) s = .next s ∧ exec (.heartbeatSend p) s = .next s
         ∧ exec (.rdiSend p) s = .next s ∧ exec (.fillDrbgReseed p) s = .next s ∧ exec (.cellTransmit p) s = .next s))

/-- On a listening Wellhead: after 125 µs out of SYNC dLOD sets, and after 125 µs in SYNC it clears; in SYNC dLHB sets when 100 µs have passed since the last kind 0x02 segment that has passed its ICV; dRDI clears when the receiver is KEYED and 100 µs have passed since that or the last RDI; none of them earlier. A flag that changes raises EV_LOD or EV_RDI and, when it sets, is noted for the second; a flag that stands already changes nothing. A heartbeat that waits alone is taken and clears dLHB; an RDI is counted, clears dLHB and sets dRDI, which, when it was not set, leaves no frame for the port that is outside the array. -/
def Obligations.WellheadDefects : Prop :=
  ∀ (s : State) (p : WPort), listening s p.val = true →
    (let r := (whOf s p.val).rx
     let now := s.time.ticks
     let set (e alone : Nat) (lod lhb rdi : Bool) (t : State) : Prop :=
       (whOf t p.val).rx.lod = lod ∧ (whOf t p.val).rx.lhb = lhb ∧ (whOf t p.val).rx.rdi = rdi ∧ (whOf t p.val).rx.state = r.state
       ∧ (whOf t p.val).rx.keyed = r.keyed ∧ Only (.wh :: raised) s t
       ∧ ((lod, lhb, rdi) ≠ (r.lod, r.lhb, r.rdi) → t.irq.cause.getLsbD e = true)
       ∧ ((lod, lhb, rdi) = (r.lod, r.lhb, r.rdi) → alone = 3 → t = s)
     (r.state ≠ .sync → r.since + 125000 ≤ now → ∃ t, exec (.dlodSet p) s = .next t ∧ set 7 3 true r.lhb r.rdi t)
     ∧ (r.state = .sync → r.since + 125000 ≤ now → ∃ t, exec (.dlodClear p) s = .next t ∧ set 7 3 false r.lhb r.rdi t)
     ∧ (now < r.since + 125000 → exec (.dlodSet p) s = .next s ∧ exec (.dlodClear p) s = .next s)
     ∧ (r.state = .sync → r.lastCtl + 100000 ≤ now → ∃ t, exec (.dlhbSet p) s = .next t ∧ set 7 3 r.lod true r.rdi t
          ∧ (r.lhb = false → (whOf t p.val).live.defects.getLsbD 1 = true))
     ∧ (now < r.lastCtl + 100000 → exec (.dlhbSet p) s = .next s)
     ∧ (r.keyed = true → r.lastRdi + 100000 ≤ now → ∃ t, exec (.drdiClear p) s = .next t ∧ set 8 3 r.lod r.lhb false t)
     ∧ (now < r.lastRdi + 100000 → exec (.drdiClear p) s = .next s)
     ∧ (∀ x, r.inbox = [x] → isOther x = true → ∃ t, exec (.heartbeatReceive p) s = .next t
          ∧ set 7 0 r.lod false r.rdi t ∧ (whOf t p.val).rx.inbox = [])
     ∧ (∀ x, r.inbox = [x] → isType 3 x = true → ∃ t, exec (.rdiReceive p) s = .next t ∧ (whOf t p.val).rx.inbox = []
          ∧ (whOf t p.val).rx.lhb = false ∧ (whOf t p.val).rx.rdi = true ∧ (whOf t p.val).rx.lod = r.lod
          ∧ (whOf t p.val).rx.lastRdi = now ∧ (whOf t p.val).live.rdiRx = (whOf s p.val).live.rdiRx + 1
          ∧ (r.rdi = true ∨ 48 ≤ p.val → Only (.wh :: raised) s t)
          ∧ (r.rdi = false → p.val < 48 → ∀ f ∈ t.traffic.frames, atPort (48 + p.val) f.2 = false)))

/-- A listening line port in SYNC, with nothing buffered and no announce waiting, that receives one cell, a KEYED one with sound key lines: a header that fits or is corrected to the expected SEQ and KP is counted, with its correction, ends a run of bad ones and stays in SYNC with the SEQ advanced modulo 2^40; any other is a bad header, counted, and with ALPHA of them in a row the receiver leaves SYNC and stops being KEYED, otherwise it goes on in SYNC. An announce that waits alone on a port with a session master, and whose tag, SEQ and KP fit, makes the receiver KEYED with the epoch and nonce it names and, while the destruction line is not driven, the keys of those. -/
def Obligations.CellsReceived : Prop :=
  ∀ (s : State) (p : WPort), p.val < 48 → listening s p.val = true → (whOf s p.val).rx.state = .sync → (whOf s p.val).rx.buf = [] →
    (let r := (whOf s p.val).rx
     (∀ b : Bytes, b.length = 1024 → annWaits r = false → (r.keyed = true → linkGood s p.val true (oddEpoch r.epoch) = true) →
       (let good : Option Bool := match correctHead (b.take 8) with
          | some (h, fixed) => if headSeq h = r.seq ∧ headKp h = r.kp then some fixed else none
          | none => none
        (∀ fixed, good = some fixed → ∃ t, exec (.cellReceive p b) s = .next t
          ∧ (whOf t p.val).live.rxCells = (whOf s p.val).live.rxCells + 1
          ∧ (whOf t p.val).live.rxCorr = (whOf s p.val).live.rxCorr + (if fixed then 1 else 0)
          ∧ (whOf t p.val).live.rxBad = (whOf s p.val).live.rxBad
          ∧ (whOf t p.val).rx.seq = (if r.seq + 1 < 2 ^ 40 then r.seq + 1 else 0)
          ∧ (whOf t p.val).rx.state = .sync ∧ (whOf t p.val).rx.bad = 0 ∧ (whOf t p.val).rx.buf = []
          ∧ (whOf t p.val).rx.keyed = r.keyed)
        ∧ (good = none → ∃ t, exec (.cellReceive p b) s = .next t
          ∧ (whOf t p.val).live.rxBad = (whOf s p.val).live.rxBad + 1
          ∧ (whOf t p.val).live.rxCells = (whOf s p.val).live.rxCells
          ∧ (attr s clsLink p.val 6 ≤ r.bad + 1 → (whOf t p.val).rx.state ≠ .sync ∧ (whOf t p.val).rx.keyed = false)
          ∧ (r.bad + 1 < attr s clsLink p.val 6 → (whOf t p.val).rx.state = .sync ∧ (whOf t p.val).rx.bad = r.bad + 1
              ∧ (whOf t p.val).rx.keyed = r.keyed))))
     ∧ (∀ x, r.inbox = [x] → annWaits r = true →
       (let x' := (whOf s p.val).tx
        let e := beAt x.data 12 4
        hasMaster s p.val = true → annTag (masterOf s p.val) x'.linkId (1 - x'.role) x.data = beAt x.data 24 16 →
        beAt x.data 16 5 = x.seq → bit e 0 = x.kp → ∃ t, exec (.announceReceive p) s = .next t ∧ Only [.wh, .keys, .rng] s t
          ∧ (whOf t p.val).rx.keyed = true ∧ (whOf t p.val).rx.epoch = e
          ∧ (whOf t p.val).rx.nonce = BitVec.ofNat 64 (beAt x.data 4 8) ∧ (whOf t p.val).rx.inbox = []
          ∧ (s.keys.line = none → keysOf t p.val true (oddEpoch e)
              = linkKeys (masterOf s p.val) x'.linkId (1 - x'.role) (BitVec.ofNat 64 (beAt x.data 4 8)) e))))

/-- For a session and mode of its row, OBJ.SET and each of CHAN.SET, CA.SET, LINK.SET, SCHED.POLICER, SCHED.SHAPER, SCHED.WEIGHT, PAIR.SET, PMU.SET and PERF.SET with a body in form of 1 to 30 entries runs the order of R393: all entries applied answers OK, with what the pair then does at once, a failed check answers its status, with the index of its entry where the status carries one, and a set that must wait for a domain gives no answer yet; a reserved byte that is not zero, or a count outside 1 to 30, answers BAD_VALUE and changes nothing. The body of PERF.SET's OK response is laid out by the model (log 14). -/
def Obligations.SetCommandsAnswer : Prop :=
  ∀ (s0 : State) (mb : Mb) (w : World) (e : Entries), e.reservedZero = true → (∀ x ∈ e.list, x.clean = true) → e.list ≠ [] →
    e.list.length ≤ 30 →
    (let s := begun mb.val s0
     let ends (i : Instr) (only : Option Nat) (weight : Bool) (body : State → Bytes) : Prop :=
       (∀ t, applySet only weight w e.list s = (.applied, t) → exec i s0 = .next (answer mb.val (.ok, body t) (settle s t)))
       ∧ (∀ st ix t, applySet only weight w e.list s = (.fail st ix, t) → exec i s0 = .next (answer mb.val (st,
            if st = .badLength ∨ st = .badValue ∨ st = .denied ∨ st = .noBound then leBytes 2 ix ++ [0, 0] else []) t))
       ∧ (∀ t, applySet only weight w e.list s = (.waiting, t) → exec i s0 = .next t)
     let now (t : State) : Bytes := leBytes 6 t.time.now.sec ++ [0, 0] ++ leBytes 4 t.time.now.ns
     let work : List Mode := [.provision, .service, .maintenance]
     (MayRun [.officer, .operator, .observer] [] mb w s0 → ends (.objSet mb e) none false (fun t =>
        if (e.list.head?.map (fun x => x.id)).getD 0 / 2 ^ 24 = 15 then now t else []))
     ∧ (MayRun [.officer, .operator, .observer] work mb w s0 → ends (.pmuSet mb e) (some 13) false (fun _ => []))
     ∧ (MayRun [.officer, .operator, .observer] work mb w s0 → ends (.chanSet mb e) (some 4) false (fun _ => []))
     ∧ (MayRun [.officer, .operator] work mb w s0 → ends (.caSet mb e) (some 9) false (fun _ => [])
         ∧ ends (.linkSet mb e) (some 10) false (fun _ => []) ∧ ends (.schedPolicer mb e) (some 5) false (fun _ => [])
         ∧ ends (.schedShaper mb e) (some 6) false (fun _ => []) ∧ ends (.schedWeight mb e) (some 4) true (fun _ => []))
     ∧ (MayRun [.officer] work mb w s0 → ends (.pairSet mb e) (some 12) false (fun _ => []))
     ∧ (MayRun [.officer, .operator] [] mb w s0 → ends (.perfSet mb e) (some 15) false now))

/-- A set that is applied is of one instance, without a read-only or repeated attribute, each value of its width and in range, and leaves each of the attributes it names at the value given; a set of any class other than a port's that fails leaves the state as it was. -/
def Obligations.SetsAreWhole : Prop :=
  ∀ (s t : State) (only : Option Nat) (weight : Bool) (w : World) (l : List SetEntry),
    (applySet only weight w l s = (.applied, t) →
      (∀ e ∈ l, ∃ width, idSpec s (idCls e.id) (idInst e.id) (idAttr e.id) = some (width, false) ∧ e.len = width
        ∧ attrRange (idCls e.id) (idAttr e.id) e.value = true)
      ∧ (∀ e ∈ l, ∀ f ∈ l, e.id / 256 = f.id / 256) ∧ (l.map (fun e => idAttr e.id)).Nodup
      ∧ (∀ e ∈ l, idCls e.id ≠ clsGslot → attr t (idCls e.id) (idInst e.id) (idAttr e.id) = e.value)
      ∧ (∀ e ∈ l, idCls e.id = clsGslot → (gslotOf t (idInst e.id)).expires = e.value))
    ∧ (∀ st ix, applySet only weight w l s = (.fail st ix, t) →
        (∀ e ∈ l.take 1, idCls e.id ≠ clsHport ∧ idCls e.id ≠ clsLport) → t = s)

/-- OBJ.GET of 1 to 30 IDs whose response fits answers OK with one entry per ID, each the ID, its own status and length and its value padded to four bytes, and changes nothing else; of more IDs or none BAD_VALUE. OBJ.BULK_READ that passes its checks writes the records to its buffer and answers their length. OBJ.BULK_WRITE that passes its checks applies the records of its buffer in ascending order and answers what came of them; with a refused buffer both answer DENIED. -/
def Obligations.ObjectReads : Prop :=
  ∀ (s0 : State) (mb : Mb) (w : World), MayRun [.officer, .operator, .observer] [] mb w s0 → let s := begun mb.val s0
    (∀ ids : NatList,
      (let entry (id : Nat) : Bytes :=
         let v := (readId s id).2
         leBytes 4 id ++ leBytes 2 (readId s id).1.code ++ leBytes 1 v.length ++ [0] ++ v ++ zeros (cdiv v.length 4 * 4 - v.length)
       let body := leBytes 2 ids.length ++ [0, 0] ++ (ids.map entry).flatten
       (ids = [] ∨ 30 < ids.length → exec (.objGet mb ids) s0 = .next (answer mb.val (.badValue, []) s))
       ∧ (ids ≠ [] → ids.length ≤ 30 → body.length ≤ 496 → exec (.objGet mb ids) s0 = .next (answer mb.val (.ok, body) s))))
    ∧ (∀ r : BulkReq,
        (∀ st, bulkCheck s w false r = some st → exec (.objBulkRead mb r) s0 = .next (answer mb.val (st, []) s))
        ∧ (bulkCheck s w false r = none → holding s = false →
            (let d := ((upFrom r.first r.count).map (bulkRecord s r)).flatten
             ∀ ok t, bufWrite mCp r.colour w.code r.addr d s = (ok, t) → exec (.objBulkRead mb r) s0
               = .next (answer mb.val (if ok then (.ok, leBytes 4 d.length) else (.denied, [])) t)))
        ∧ (bulkCheck s w true r = none → holding s = false →
            (∀ t, bufRead mCp r.colour w.code r.addr (recordBytes r * r.count) s = (none, t) →
              exec (.objBulkWrite mb r) s0 = .next (answer mb.val (.denied, leBytes 4 0 ++ leBytes 1 0 ++ zeros 3) t))
            ∧ (∀ b t, bufRead mCp r.colour w.code r.addr (recordBytes r * r.count) s = (some b, t) →
              ∀ a u, bulkApply r w r.count r.first b t = (some a, u) → exec (.objBulkWrite mb r) s0 = .next (answer mb.val a u))))
    ∧ (∀ (r : BulkReq) (i : Nat) (b : Bytes), (∀ t, applySet none false w (recordEntries r i r.codes b) s = (.applied, t) → ∀ n,
          bulkApply r w (n + 1) i b s = bulkApply r w n (i + 1) (b.drop (recordBytes r)) t)
        ∧ (∀ st ix t n, applySet none false w (recordEntries r i r.codes b) s = (.fail st ix, t) →
          bulkApply r w (n + 1) i b s = (some (st, leBytes 4 (i - r.first) ++ leBytes 1 ix ++ zeros 3), t))
        ∧ bulkApply r w 0 i b s = (some (.ok, leBytes 4 (i - r.first) ++ leBytes 1 0 ++ zeros 3), s))

/-- On a device whose key commands run and whose destruction line is not driven, in their modes, with a slot and a requested word that pass their checks: KEY.GENERATE installs DRBG output with ORIGIN 1 after a reseed; KEY.DERIVE with a label of 1 to 64 bytes not beginning with X and a context of at most 255 bytes installs the key and, for a channel slot, the salt that the KDF of its source slot gives, with ORIGIN 4, one use of the source charged; KEY.IMPORT, with a sound working copy of the DRK, of a blob that opens installs its key with ORIGIN 2; KEY.UNWRAP of 48 bytes that unwrap installs the key with the wrapped word and ORIGIN 3. A slot or word that fails its checks answers that status and installs nothing. A drawn key is a free value (log 1). -/
def Obligations.KeyInstallCommands : Prop :=
  ∀ (s0 : State) (mb : Mb) (w : World), keyGate s0 = none → s0.keys.line = none →
    (let s := begun mb.val s0
     let ends (r : Option Reply × State) : State := match r.1 with | some a => answer mb.val a r.2 | none => r.2
     let work : List Mode := [.enrol, .provision, .service, .maintenance]
     (MayRun [.officer, .operator] work mb w s0 → ∀ space slot word,
        (∀ st, slotChecks s mb.val space slot = some st → exec (.keyGenerate mb space slot word) s0 = .next (answer mb.val (st, []) s))
        ∧ (slotChecks s mb.val space slot = none → ∀ st, wordChecks space (BitVec.ofNat 64 word) w = some st →
            exec (.keyGenerate mb space slot word) s0 = .next (answer mb.val (st, []) s))
        ∧ (slotChecks s mb.val space slot = none → wordChecks space (BitVec.ofNat 64 word) w = none → s.keys.entropyHeld = false →
            ∃ key salt u, exec (.keyGenerate mb space slot word) s0
                = .next (ends (install mb.val space slot (BitVec.ofNat 64 word) 1 key salt u))
              ∧ Only [.keys, .rng] s u ∧ u.keys = { s.keys with reseeded := s.time.ticks }))
     ∧ (MayRun [.officer, .operator] work mb w s0 → ∀ q : DeriveReq, q.label ≠ [] → q.label.length ≤ 64 → q.context.length ≤ 255 →
        q.label.head? ≠ some 0x58 → q.source < 1024 → slotChecks s mb.val q.space q.slot = none →
        wordChecks q.space (BitVec.ofNat 64 q.attr) w = none →
        (∀ st u, useG q.source useDerive w mCp true s = (some st, u) → exec (.keyDerive mb q) s0 = .next (answer mb.val (st, []) u))
        ∧ (∀ u k v, useG q.source useDerive w mCp true s = (none, u) → readG q.source u = (some k, v) →
            (let d := deriveKey k (octets q.label) (octets q.context) q.space (installKtype v q.space q.slot (BitVec.ofNat 64 q.attr))
             exec (.keyDerive mb q) s0 = .next (ends (install mb.val q.space q.slot (BitVec.ofNat 64 q.attr) 4 d.1 d.2 v)))))
     ∧ (MayRun [.officer, .operator] work mb w s0 → ∀ a c, rootGood s = true → holding s = false →
        (∀ n, n ≠ 1281 → exec (.keyImport mb a n c) s0 = .next (answer mb.val (.badValue, []) s))
        ∧ ∀ b u, bufRead mCp c w.code a 1281 s = (some b, u) →
          (∀ st, blobChecks u mb.val w b = some st → exec (.keyImport mb a 1281 c) s0 = .next (answer mb.val (st, []) u))
          ∧ (blobChecks u mb.val w b = none → openBlob u b = none →
              exec (.keyImport mb a 1281 c) s0 = .next (answer mb.val (.badValue, []) u))
          ∧ (∀ p, blobChecks u mb.val w b = none → openBlob u b = some p → allZero (bsub p 44 4) = true →
              (let space := beAt b 16 2
               let slot := beAt b 20 4
               let word : W64 := BitVec.ofNat 64 (beAt b 24 8)
               (ktypeBytes (installKtype u space slot word) = 16 → allZero (bsub p 16 16) = true) →
               exec (.keyImport mb a 1281 c) s0 = .next (ends (install mb.val space slot word 2 (keyOf (octets (p.take 32)))
                 (if space = 0 then BitVec.ofNat 96 (beAt p 32 12) else 0) u)))))
     ∧ (MayRun [.officer] work mb .officer s0 → ∀ slot g a c, g < 1024 → slotChecks s mb.val 1 slot = none → holding s = false →
        ∀ b u v k x, bufRead mCp c 0 a 48 s = (some b, u) → useG g useUnwrap .officer mCp true u = (none, v) →
        readG g v = (some k, x) →
          (kwUnwrap k (octets b) = none → exec (.keyUnwrap mb slot g a c) s0 = .next (answer mb.val (.badValue, []) x))
          ∧ (∀ p, kwUnwrap k (octets b) = some p →
              (let word : W64 := withOrigin (BitVec.ofNat 64 (natBe ((p.drop 32).take 8))) 0
               (∀ st, wordChecks 1 word .officer = some st → exec (.keyUnwrap mb slot g a c) s0 = .next (answer mb.val (st, []) x))
               ∧ (wordChecks 1 word .officer = none → exec (.keyUnwrap mb slot g a c) s0
                   = .next (ends (install mb.val 1 slot word 3 (keyOf (p.take 32)) 0 x)))))))

/-- With an ORIGIN of three bits, the destruction line not driven and the pair not NOT_READY, an install into a general slot leaves it VALID with the word requested and its ORIGIN, the key as its KTYPE uses it in its line under some mask, salt zero, no expiry and its commits one higher, and every other slot of either space as it was; a PERSIST word with no record free answers BUSY and leaves the slot as it was. An install into a channel slot, the line not driven and the pair not NOT_READY, leaves it VALID with the fixed word of the channel's suite and its ORIGIN, the salt and key given, PN 1 and its enable bit from R154. Outside READY the answer is OK at once. -/
def Obligations.InstalledSlots : Prop :=
  ∀ (s t : State) (mb : Nat) (slot origin : Nat) (word : W64) (key : Key) (salt : Salt) (r : Option Reply),
    origin < 8 → s.keys.line = none → s.pair.state ≠ .notReady → (install mb 1 slot word origin key salt s = (r, t) →
      (attrPersist word = false ∨ (writePersist slot (withOrigin word origin) (keyFor (attrKtype word) key) s).1 = true →
        (∃ m, gslotOf t slot = { state := .valid, attr := withOrigin word origin, commits := (gslotOf s slot).commits + 1
                                 line := slotLine (attrKtype (withOrigin word origin)) (keyFor (attrKtype word) key) m })
        ∧ (∀ g, g ≠ slot → gslotOf t g = gslotOf s g) ∧ t.keys.kslot = s.keys.kslot
        ∧ (s.pair.state ≠ .ready → r = some (.ok, [])))
      ∧ (attrPersist word = true → (writePersist slot (withOrigin word origin) (keyFor (attrKtype word) key) s).1 = false →
          r = some (.busy, []) ∧ t.keys = s.keys))
    ∧ (s.keys.line = none → s.pair.state ≠ .notReady → install mb 0 slot word origin key salt s = (r, t) →
      (let suite := cattr s (slot / 2) 5
       (kslotOf t slot).state = .valid ∧ (kslotOf t slot).attr = chanWord suite origin ∧ (kslotOf t slot).salt = salt
       ∧ (kslotOf t slot).enabled = enableBit s (kslotOf t slot) ∧ pnOf t slot = 1
       ∧ (∃ m, (kslotOf t slot).line = slotLine (attrKtype (chanWord suite origin)) (keyFor (if suite = 1 then 2 else 1) key) m)
       ∧ (∀ n, n ≠ slot → kslotOf t n = kslotOf s n) ∧ t.keys.gslot = s.keys.gslot
       ∧ (s.pair.state ≠ .ready → r = some (.ok, []))))

/-- While the destruction line is not driven: KEY.IDENTITY, with a sound working copy of the DRK, writes the identity item to its buffer and answers device_id. KEY.WRAP writes 48 wrapped bytes of a slot that may be exported, under a slot whose use passes, which it charges. KEY.RESTRICT of a VALID slot clears the bits named, of USAGE and the masks only, and lowers the uses, a slot with none left becoming SPENT. KEY.DESTROY, the pair not NOT_READY, leaves the slot EMPTY and zero, its commits kept, and no other slot changed. KEY.ZEROIZE with its confirmation writes its response and then leaves no key, no bank and no request in the array. -/
def Obligations.KeyCommands : Prop :=
  ∀ (s0 : State) (mb : Mb) (w : World), s0.keys.line = none →
    (let s := begun mb.val s0
    (MayRun [.officer, .operator, .observer] [] mb w s0 → keyGate s = none → rootGood s = true → s.keys.entropyHeld = false → holding s = false →
      ∀ a c t, bufWrite mCp c w.code a (identityItem s) s = (true, t) →
      exec (.keyIdentity mb a c) s0
        = .next (answer mb.val (.ok, leBytes 8 (deviceId s)) { t with keys := { t.keys with identityUsed := true } }))
    ∧ (MayRun [.officer] [.provision, .maintenance] mb .officer s0 → keyGate s = none → holding s = false →
      ∀ g k a c, g < 1024 → k < 1024 → ∀ u v x y kek o, exportCheck g .officer s = (none, u) →
        useG k useWrap .officer mCp true u = (none, v) → readG k v = (some kek, x) → readG g x = (some o, y) → holding y = false →
        ∀ t, bufWrite mCp c 0 a (ofOctets (kwWrap kek (keyOctets (lineKey (gslotOf y g).line) ++ beOct 8 (gslotOf y g).attr.toNat))) y
          = (true, t) → exec (.keyWrap mb g k a c) s0 = .next (answer mb.val (.ok, []) t))
    ∧ (MayRun [.officer, .operator] [.enrol, .provision, .service, .maintenance] mb w s0 → keyGate s = none →
      ∀ g uses clear, g < 1024 → (gslotOf s g).state = .valid → attrWorld (gslotOf s g).attr w = true →
        attrMaster (gslotOf s g).attr mMate = false →
        (clear % 2 ^ 64 < 2 ^ 32 → clear % 16 = 0 →
          (uses = 0xFFFFFFFF → (attrUseLimit (gslotOf s g).attr = true → attrUsesLeft (gslotOf s g).attr ≠ 0) →
            exec (.keyRestrict mb g uses clear) s0 = .next (answer mb.val (.ok, [])
              (putG g { gslotOf s g with attr := (gslotOf s g).attr &&& ~~~(BitVec.ofNat 64 clear) } s)))
          ∧ (uses < 2 ^ 24 → (attrUseLimit (gslotOf s g).attr = true → uses ≤ attrUsesLeft (gslotOf s g).attr) →
            ∃ t, exec (.keyRestrict mb g uses clear) s0 = .next t ∧ (mbxOf t mb.val).answer = some { status := .ok }
              ∧ (gslotOf t g).attr
                = withUses ((gslotOf s g).attr &&& ~~~(BitVec.ofNat 64 clear) ||| ((1 : W64) <<< 39)) uses
              ∧ (gslotOf t g).state = (if uses = 0 then .spent else .valid) ∧ (gslotOf t g).line = (gslotOf s g).line
              ∧ (∀ n, n ≠ g → gslotOf t n = gslotOf s n) ∧ t.keys.kslot = s.keys.kslot))
        ∧ (2 ^ 32 ≤ clear % 2 ^ 64 ∨ clear % 16 ≠ 0 → exec (.keyRestrict mb g uses clear) s0 = .next (answer mb.val (.badValue, []) s)))
    ∧ (MayRun [.officer, .operator] [] mb w s0 → keyGate s = none → s.pair.state ≠ .notReady →
      (∀ g, g < 1024 → attrMaster (gslotOf s g).attr mMate = false → destroyDenied s w (gslotOf s g) = false →
        ∃ t, exec (.keyDestroy mb 1 g) s0 = .next t ∧ gslotOf t g = { commits := (gslotOf s g).commits }
          ∧ (∀ n, n ≠ g → gslotOf t n = gslotOf s n) ∧ t.keys.kslot = s.keys.kslot ∧ (mbxOf t mb.val).answer = some { status := .ok })
      ∧ (∀ n, n < 65536 → isStandby s = false → chanSlotRefused s n = false → destroyDenied s w (kslotOf s n) = false →
        ∃ t, exec (.keyDestroy mb 0 n) s0 = .next t ∧ kslotOf t n = {} ∧ pnOf t n = 1
          ∧ (∀ k, k ≠ n → kslotOf t k = kslotOf s k) ∧ t.keys.gslot = s.keys.gslot
          ∧ (mbxOf t mb.val).answer = some { status := .ok }))
    ∧ (MayRun [.officer] [] mb .officer s0 →
      (∃ t, exec (.keyZeroize mb 0x5A45) s0 = .next t ∧ t.keys.kslot = [] ∧ t.keys.gslot = [] ∧ t.keys.internal = [] ∧ t.keys.ime = []
        ∧ t.keys.drk = none ∧ t.keys.line = some 1 ∧ t.stp.bankA = none ∧ t.stp.bankB = none
        ∧ (∀ c, (clusterOf t c).queue = [] ∧ (clusterOf t c).pipes = []) ∧ (mbxOf t mb.val).done = true)
      ∧ ∀ k, k ≠ 0x5A45 → exec (.keyZeroize mb k) s0 = .next (answer mb.val (.badValue, []) s)))

/-- On a device that is not the standby: CHAN.CREATE makes a FREE channel CONFIG and answers BAD_VALUE for any other. CHAN.ENABLE of a CONFIG channel that fits its line port and whose configuration passes the checks writes Q_p of every port; with keying other than MKA it becomes ACTIVE when its current slot is VALID and answers KEY_INVALID, nothing changed, when it is not; with MKA and no secured CA it stays in CONFIG with its enable pending. A failed check answers NO_BOUND or BAD_VALUE and changes nothing. CHAN.DISABLE starts the drain of an ACTIVE or FROZEN channel and frees a CONFIG one; a drained channel without frames is freed, and where the pair wrap key can be read: both slots zero, its record at the defaults. -/
def Obligations.ChannelLife : Prop :=
  ∀ (s0 : State) (mb : Mb) (w : World) (c : Nat), c < 32766 → isStandby s0 = false →
    (let s := begun mb.val s0
     let wrapped := (readInternal handlePairWrap s).1.isSome = true
     let may := MayRun [.officer, .operator] [.provision, .service, .maintenance] mb w s0
     let ok (t : State) : Prop := (mbxOf t mb.val).answer = some { status := .ok }
     let x := chanOf s c
     let freed (t : State) : Prop := chanOf t c = {} ∧ kslotOf t (2 * c) = {} ∧ kslotOf t (2 * c + 1) = {}
       ∧ (∀ a, a < 256 → a ≠ 0x0B → cattr t c a = attrDefault clsChan c a) ∧ (∀ k, k ≠ c → chanOf t k = chanOf s k)
       ∧ (∀ n, n / 2 ≠ c → kslotOf t n = kslotOf s n)
     (may → x.state = .free → ∃ t, exec (.chanCreate mb c) s0 = .next t ∧ ok t ∧ chanOf t c = { state := .config }
        ∧ (∀ k, k ≠ c → chanOf t k = chanOf s k) ∧ Only [.traffic, .pair, .reqs, .out, .mbx, .perf] s t)
     ∧ (may → x.state ≠ .free → exec (.chanCreate mb c) s0 = .next (answer mb.val (.badValue, []) s))
     ∧ (may → x.state = .config → x.draining = false → x.pendingEnable = false →
        (let p := setChan c { x with pendingEnable := true } s
         (secyFits s c = true → replayFits p = true → configOk p = true →
            (cattr s c 0x17 ≠ 0 → (kslotOf s (curSlot s c)).state = .valid → ∃ t, exec (.chanEnable mb c) s0 = .next t ∧ ok t
              ∧ (chanOf t c).state = .active ∧ (chanOf t c).pendingEnable = false ∧ (chanOf t c).phase = x.phase
              ∧ (∀ q, q < 96 → pattr t q 0x0A = (expressQueue p q).ceil.toNat)
              ∧ (∀ k, k ≠ c → chanOf t k = chanOf s k) ∧ Only [.traffic, .objs, .keys, .pair, .reqs, .out, .mbx, .perf] s t)
            ∧ (cattr s c 0x17 ≠ 0 → (kslotOf s (curSlot s c)).state ≠ .valid →
                exec (.chanEnable mb c) s0 = .next (answer mb.val (.keyInvalid, []) s))
            ∧ (cattr s c 0x17 = 0 → x.ca = 0xFFFF ∨ (caOf s x.ca).secured = false → ∃ t, exec (.chanEnable mb c) s0 = .next t ∧ ok t
              ∧ chanOf t c = { x with pendingEnable := true } ∧ Only [.traffic, .objs, .mbx, .perf] s t))
         ∧ (secyFits s c = false ∨ replayFits p = false → exec (.chanEnable mb c) s0 = .next (answer mb.val (.badValue, []) s))
         ∧ (secyFits s c = true → replayFits p = true → configOk p = false →
              exec (.chanEnable mb c) s0 = .next (answer mb.val (.noBound, []) s))))
     ∧ (may → x.state = .active ∨ x.state = .frozen → x.draining = false →
        exec (.chanDisable mb c) s0 = .next (answer mb.val (.ok, []) (setChan c { x with draining := true } s)))
     ∧ (may → wrapped → x.state = .config → x.draining = false → ∃ t, exec (.chanDisable mb c) s0 = .next t ∧ ok t ∧ freed t)
     ∧ (live s = true → wrapped → x.draining = true → hasFrames s c = false → ∃ t, exec (.chanDrainDone c) s0 = .next t ∧ freed t)
     ∧ (hasFrames s c = true → exec (.chanDrainDone c) s0 = .next s))

/-- CHAN.SWITCH of a channel whose next slot is VALID and newly installed is accepted with OK and made in the next tick: the channel's phase flips, a FROZEN channel is ACTIVE, the old slot is superseded and neither slot is new any more; a second one before it is made answers BUSY, a CONFIG or draining channel, or one keyed by MKA, DENIED and a next slot that is not VALID and new KEY_INVALID, with nothing changed. The superseded slot is destroyed once the channel's retire_ms have passed, and not before, and no other. -/
def Obligations.ChannelSwitch : Prop :=
  ∀ (s0 : State) (c : Nat), c < 32766 →
    (∀ (mb : Mb) (w : World), MayRun [.officer, .operator] [.provision, .service, .maintenance] mb w s0 → isStandby s0 = false →
       (let s := begun mb.val s0
        let x := chanOf s c
        let nx := kslotOf s (nextSlot s c)
        (x.state = .active ∨ x.state = .frozen → x.draining = false → cattr s c 0x17 ≠ 0 →
          (x.switching = false → nx.state = .valid → nx.fresh = true →
              exec (.chanSwitch mb c) s0 = .next (answer mb.val (.ok, []) (setChan c { x with switching := true } s)))
          ∧ (x.switching = true → exec (.chanSwitch mb c) s0 = .next (answer mb.val (.busy, []) s))
          ∧ (x.switching = false → nx.state ≠ .valid ∨ nx.fresh = false →
              exec (.chanSwitch mb c) s0 = .next (answer mb.val (.keyInvalid, []) s)))
        ∧ (x.state ≠ .free → cattr s c 0x17 = 0 ∨ x.state = .config ∨ x.draining = true →
          exec (.chanSwitch mb c) s0 = .next (answer mb.val (.denied, []) s))
        ∧ (x.state = .free → exec (.chanSwitch mb c) s0 = .next (answer mb.val (.badObject, []) s))))
    ∧ (s0.pending = [] → step s0 = .next (flipAll (runTicks 1 (settleStamps s0))))
    ∧ (let x := chanOf s0 c
       let nx := kslotOf s0 (nextSlot s0 c)
       (live s0 = true → x.switching = true → nx.state = .valid → nx.fresh = true →
          (let t := flipAll s0
           chanOf t c = { x with phase := !x.phase, superseded := true, switchedAt := s0.time.ticks, switching := false
                                 state := if x.state = .frozen then .active else x.state }
           ∧ kslotOf t (curSlot t c) = { nx with fresh := false }))
       ∧ (live s0 = true → x.superseded = true → x.switchedAt + cattr s0 c 0x19 * 10 ^ 6 ≤ s0.time.ticks →
          (readInternal handlePairWrap s0).1.isSome = true → ∃ t, exec (.slotRetire c) s0 = .next t ∧ kslotOf t (nextSlot s0 c) = {}
          ∧ chanOf t c = { x with superseded := false } ∧ (∀ n, n ≠ nextSlot s0 c → kslotOf t n = kslotOf s0 n)
          ∧ (∀ k, k ≠ c → chanOf t k = chanOf s0 k) ∧ Only [.traffic, .keys, .pair, .reqs, .out] s0 t)
       ∧ (x.superseded = false ∨ s0.time.ticks < x.switchedAt + cattr s0 c 0x19 * 10 ^ 6 → exec (.slotRetire c) s0 = .next s0))

/-- CHAN.MAP of a key in range for the channel's host port, of a channel that is not FREE, adds the entry to its bucket, to the overflow array where four entries of the bucket stand, and answers BUSY with 512 in the overflow array too; the same key for the same channel answers OK with nothing changed and for another channel BAD_VALUE, as does a key of another host port. CHAN.UNMAP removes the entry of a key and answers BAD_OBJECT where there is none. A rewrite makes the entry of its key valid. No other entry changes. -/
def Obligations.ClassificationEntries : Prop :=
  ∀ (s0 : State) (k : ClassKey),
    (∀ (mb : Mb) (w : World), MayRun [.officer, .operator] [.provision, .service, .maintenance] mb w s0 → let s := begun mb.val s0
      (∀ c, c < 32766 → (chanOf s c).state ≠ .free → keyOk s k = true → cattr s c 2 = k.hport →
        (let inBucket := (s.traffic.classes.filter (fun e => !e.overflow && Config.classBucket e.key == Config.classBucket k)).length
         let away := (s.traffic.classes.filter (fun e => e.overflow)).length
         ((∀ e ∈ s.traffic.classes, e.key ≠ k) →
            (inBucket < 4 ∨ away < 512 → exec (.chanMap mb c k) s0 = .next (answer mb.val (.ok, []) { s with traffic := { s.traffic with
                classes := s.traffic.classes ++ [{ key := k, chan := c, overflow := decide (4 ≤ inBucket) }] } }))
            ∧ (4 ≤ inBucket → 512 ≤ away → exec (.chanMap mb c k) s0 = .next (answer mb.val (.busy, []) s)))
         ∧ (∀ e, entryFor s k = some e →
            exec (.chanMap mb c k) s0 = .next (answer mb.val (if e.chan = c then .ok else .badValue, []) s))))
      ∧ (∀ c, c < 32766 → (chanOf s c).state ≠ .free → cattr s c 2 ≠ k.hport →
          exec (.chanMap mb c k) s0 = .next (answer mb.val (.badValue, []) s))
      ∧ (∀ c, (chanOf s c).state = .free → exec (.chanMap mb c k) s0 = .next (answer mb.val (.badObject, []) s))
      ∧ (keyOk s k = true →
          ((∃ e ∈ s.traffic.classes, e.key = k) → exec (.chanUnmap mb k) s0 = .next (answer mb.val (.ok, []) { s with traffic :=
              { s.traffic with classes := s.traffic.classes.filter (fun e => e.key != k) } }))
          ∧ ((∀ e ∈ s.traffic.classes, e.key ≠ k) → exec (.chanUnmap mb k) s0 = .next (answer mb.val (.badObject, []) s))))
    ∧ (live s0 = true → exec (.classEntryRewrite k) s0 = .next { s0 with traffic := { s0.traffic with
        classes := s0.traffic.classes.map (fun e => if e.key = k then { e with invalid := false } else e) } })

/-- On a port that exists of a device that is not the standby, its gates brought to the present instant first: SCHED.GATE_LOAD of a buffer of 1 to 1024 good entries that add up to the cycle puts the list in the administrative bank, and one that does not answers BAD_VALUE; SCHED.GATE_COMMIT of a loaded list starts at the base time where that is far enough ahead, else at a whole number of cycles after it, marks the commit pending and answers the start, or NO_BOUND with nothing changed; SCHED.GATE_CANCEL before the start clears it. LINK.RESTART of a sealed port that is up starts a session at epoch 0 and SEQ 0 with an announce due and, while the destruction line is not driven, the keys of that epoch, or answers the status of the link master's check. -/
def Obligations.GateListsAndLinks : Prop :=
  ∀ (s0 : State) (mb : Mb) (w : World), MayRun [.officer, .operator] [.provision, .service, .maintenance] mb w s0 →
    (∀ q, absentQ s0 q = false → isStandby s0 = false → let s := gateTurn q (begun mb.val s0)
      (∀ n cy a c, 1 ≤ n → n ≤ 1024 → 64 ≤ cy → cy ≤ 1000000000 → (gateOf s q).pending = none → holding s = false →
        ∀ b u, bufRead mCp c w.code a (8 * n) s = (some b, u) →
          (let l := gateEntries n b
           let good := (∀ e ∈ l, entryGood e = true) ∧ l.foldl (fun a e => a + entryNs e) 0 = cy
           (good → exec (.schedGateLoad mb q n cy a c) s0
              = .next (answer mb.val (.ok, []) (setGate q { gateOf u q with admin := l, adminCycle := cy, loaded := true } u)))
           ∧ (¬ good → exec (.schedGateLoad mb q n cy a c) s0 = .next (answer mb.val (.badValue, []) u))))
      ∧ (∀ sec ns, ns < 1000000000 → (gateOf s q).pending = none → (gateOf s q).loaded = true → 0 < (gateOf s q).adminCycle →
          (let g := gateOf s q
           let base := sec * 10 ^ 9 + ns
           let lead := netNs s + 1000 * attr s clsDev 0 7
           ∃ S, lead ≤ S ∧ (lead ≤ base → S = base) ∧ (base < lead → ∃ n, 0 < n ∧ S = base + n * g.adminCycle ∧ (S < lead + g.adminCycle))
             ∧ (configOk (setGate q (committed g S) s) = true → configOk (setGate q { g with pending := some S, loaded := false } s) = true →
                ∃ t, exec (.schedGateCommit mb q sec ns) s0 = .next t ∧ gateOf t q = { g with pending := some S, loaded := false }
                  ∧ (mbxOf t mb.val).answer
                    = some { status := .ok, body := leBytes 6 (S / 10 ^ 9) ++ [0, 0] ++ leBytes 4 (S % 10 ^ 9) }
                  ∧ (∀ p, p ≠ q → gateOf t p = gateOf s p) ∧ Only [.traffic, .objs, .pair, .reqs, .out, .mbx, .perf] s t)
             ∧ (configOk (setGate q (committed g S) s) = false
                  ∨ configOk (setGate q { g with pending := some S, loaded := false } s) = false →
                exec (.schedGateCommit mb q sec ns) s0 = .next (answer mb.val (.noBound, []) s))))
      ∧ (∀ S, (gateOf s q).pending = some S →
          (netNs s < S → ∃ t, exec (.schedGateCancel mb q) s0 = .next t ∧ gateOf t q = { gateOf s q with pending := none, loaded := true }
            ∧ (mbxOf t mb.val).answer = some { status := .ok } ∧ (∀ p, p ≠ q → gateOf t p = gateOf s p)
            ∧ Only [.traffic, .pair, .reqs, .out, .mbx, .perf] s t)
          ∧ (S ≤ netNs s → exec (.schedGateCancel mb q) s0 = .next (answer mb.val (.busy, []) s))))
    ∧ (∀ p, p < 48 → fusedQ s0 (48 + p) = false → let s := begun mb.val s0
        (sealedQ s (48 + p) = true → adminUp s (48 + p) = true →
          (∀ t, startSession p s = (none, t) → exec (.linkRestart mb p) s0 = .next (answer mb.val (.ok, []) t)
            ∧ (whOf t p).tx.running = true ∧ (whOf t p).tx.epoch = 0 ∧ (whOf t p).tx.seq = 0 ∧ (whOf t p).tx.announceDue = true
            ∧ (s.keys.line = none → keysOf t p false false
                = linkKeys (masterOf t p) (attr s clsLink p 2) (attr s clsLink p 3) (whOf t p).tx.nonce 0))
          ∧ (∀ st t, startSession p s = (some st, t) → exec (.linkRestart mb p) s0 = .next (answer mb.val (st, []) t)))
        ∧ (sealedQ s (48 + p) = false ∨ adminUp s (48 + p) = false → exec (.linkRestart mb p) s0 = .next (answer mb.val (.ok, []) s)))

/-- On a device that is not the standby: CA.CREATE of a CA that does not exist, for a CONFIG channel keyed by MKA without a CA, with a CAK slot number in range and the hello limit kept, answers OK and makes the CA, bound both ways; anything else of those answers BAD_VALUE. CA.REKEY of a CA that exists with an offset of at most an hour answers OK; where the CA runs under this device as key server and no rekey of its own is in progress it makes one due from the offset on. CA.DELETE answers OK for a CA whose channel is neither ACTIVE nor FROZEN: the CA is gone, the channel unbound and the CA's tied keys destroyed; for an ACTIVE or FROZEN one it answers BUSY and changes nothing. -/
def Obligations.CaCommands : Prop :=
  ∀ (s0 : State) (mb : Mb) (w : World) (ca : Nat), ca < 4096 → isStandby s0 = false →
    (let s := begun mb.val s0
     let ok (t : State) : Prop := (mbxOf t mb.val).answer = some { status := .ok }
     let work : List Mode := [.provision, .service, .maintenance]
     (MayRun [.officer, .operator] work mb w s0 → ∀ c g, c < 32766 →
        ((∀ k ∈ s.cas, k.1 ≠ ca) → cattr s c 0x17 = 0 → (chanOf s c).state = .config → (chanOf s c).ca = 0xFFFF → g < 1024 →
          helloRate s + 1000 / (attrDefault clsCa ca 6 : Rat) ≤ 16384 →
          ∃ t, exec (.caCreate mb ca c g) s0 = .next t ∧ ok t ∧ (caOf t ca).exist = true ∧ (caOf t ca).peers = []
            ∧ (caOf t ca).secured = false ∧ (caOf t ca).stopped = false ∧ attr t clsCa ca 1 = c ∧ attr t clsCa ca 2 = g
            ∧ (∀ a, 3 ≤ a → a < 9 → attr t clsCa ca a = attrDefault clsCa ca a)
            ∧ chanOf t c = { chanOf s c with ca := ca } ∧ (∀ k, k ≠ c → chanOf t k = chanOf s k) ∧ (∀ k, k ≠ ca → caOf t k = caOf s k))
        ∧ ((caOf s ca).exist = true ∨ cattr s c 0x17 ≠ 0 ∨ (chanOf s c).state ≠ .config ∨ (chanOf s c).ca ≠ 0xFFFF ∨ 1024 ≤ g →
          exec (.caCreate mb ca c g) s0 = .next (answer mb.val (.badValue, []) s)))
     ∧ (MayRun [.officer, .operator] [.service, .maintenance] mb w s0 → (caOf s ca).exist = true →
        (let x := caOf s ca
         let at_ (ms : Nat) : Nat := s.time.ticks + ms * 10 ^ 6
         (∀ ms, ms ≤ 3600000 → keyServer s ca = true → x.stopped = false → (x.active && x.ours) = false →
            exec (.caRekey mb ca ms) s0 = .next (answer mb.val (.ok, []) (setCa ca { x with
              due := true, active := false, dueFrom := if x.due then min x.dueFrom (at_ ms) else at_ ms } s)))
         ∧ (∀ ms, ms ≤ 3600000 → keyServer s ca = false ∨ x.stopped = true ∨ (x.active && x.ours) = true →
            exec (.caRekey mb ca ms) s0 = .next (answer mb.val (.ok, []) s))
         ∧ (∀ ms, 3600000 < ms → exec (.caRekey mb ca ms) s0 = .next (answer mb.val (.badValue, []) s))))
     ∧ (MayRun [.officer, .operator] work mb w s0 → (caOf s ca).exist = true →
        (let c := caChan s ca
         ((chanOf s c).ca ≠ ca ∨ (chanOf s c).state ≠ .active ∧ (chanOf s c).state ≠ .frozen →
           ∃ t, exec (.caDelete mb ca) s0 = .next t ∧ ok t ∧ caOf t ca = {}
             ∧ chanOf t c = (if (chanOf s c).ca = ca then { chanOf s c with ca := 0xFFFF } else chanOf s c)
             ∧ (∀ a, 1 ≤ a → a < 9 → attr t clsCa ca a = attrDefault clsCa ca a)
             ∧ tget {} t.keys.internal (handleIck ca) = {} ∧ tget {} t.keys.internal (handleKek ca) = {}
             ∧ (∀ k, k ≠ ca → caOf t k = caOf s k))
         ∧ ((chanOf s c).ca = ca → (chanOf s c).state = .active ∨ (chanOf s c).state = .frozen →
           exec (.caDelete mb ca) s0 = .next (answer mb.val (.busy, []) s)))))

/-- For a CA that runs: a rekey that may start, fewer than 64 others begun in the millisecond, no lower CA that may start, the key store's KEK whole and the destruction line not driven, installs a new SAK into the channel's next slot, or its current one in CONFIG, at PN 1, with the AN after the current one, and leaves the rekey active and not yet distributed. An MKPDU that is due on a port with room, within the 16,384 of the second, raises the message number by one; one that is not due is not sent. A received MKPDU of this CA that verifies and is no repetition makes or renews the live peer where it lists this device or its sender is live already, and a potential peer otherwise; one that does not verify, names another CKN or carries this device's own member identifier is discarded. Parity in the link RAM on a diverted MKPDU's granules, on a standard port, halts the device with that cause. A peer not heard for the life time is gone from the live peers, and no other. The rekey interval makes a rekey due once rekey_s have passed since the last switch. -/
def Obligations.RekeysAndPeers : Prop :=
  ∀ (s : State) (ca : Nat), caRuns s ca = true →
    (let x := caOf s ca
     let c := caChan s ca
     let n := sakSlot s c
     let port := 48 + cattr s c 3
     let now := s.time.ticks
     (startable s ca = true → rekeysNow s < 64 → (∀ k ∈ s.cas, k.1 < ca → startable s k.1 = false) → s.keys.line = none →
       lineOk (tget {} s.keys.internal (handleKek ca)) = true → ∃ t, exec (.rekeyStart ca) s = .next t
         ∧ (kslotOf t n).state = .valid ∧ (kslotOf t n).attr = chanWord (cattr s c 5) 1 ∧ (kslotOf t n).fresh = true ∧ pnOf t n = 1
         ∧ cattr t c (0x10 + n % 2) = nextAn s c
         ∧ (caOf t ca).active = true ∧ (caOf t ca).due = false ∧ (caOf t ca).distributed = false
         ∧ (∀ k, k ≠ n → kslotOf t k = kslotOf s k))
     ∧ (startable s ca = false → exec (.rekeyStart ca) s = .next s)
     ∧ (adminUp s port = true → (sealedQ s port || decide ((portOf s port).mgmt.length < 64)) = true → mkaSentNow s < 16384 →
       helloDue s ca = true → lineOk (tget {} s.keys.internal (handleIck ca)) = true →
       ∃ t, exec (.mkpduSend ca) s = .next t ∧ (caOf t ca).mn = (x.mn + 1) % 2 ^ 32
         ∧ (x.active = false → (caOf t ca).distributed = x.distributed ∧ t.keys = s.keys ∧ t.objs = s.objs))
     ∧ (helloDue s ca = false → exec (.mkpduSend ca) s = .next s)
     ∧ (diverted s ca = true → ∃ t, exec (.mkpduReceive ca true) s = .next t ∧ t.glb.haltCause = haltLinkRam ∧ t.traffic.frames = [])
     ∧ (∀ link, (link = true → diverted s ca = false) → (mkaTake ca s).1 = none → exec (.mkpduReceive ca link) s = .next s)
     ∧ (∀ src pdu u ick v link, (link = true → diverted s ca = false) → mkaTake ca s = (some (src, pdu), u) → caRuns u ca = true → readInternal (handleIck ca) u = (some ick, v) →
         (let y := caOf v ca
          let read := readMkpdu (ick.take y.kekBytes) src pdu
          (read = none → exec (.mkpduReceive ca link) s = .next v)
          ∧ (∀ m, read = some m → m.ckn ≠ cknOf v ca ∨ m.mi = y.mi → exec (.mkpduReceive ca link) s = .next v)
          ∧ (∀ m, read = some m → m.ckn = cknOf v ca → m.mi ≠ y.mi →
              (let again := ∃ p ∈ y.peers ++ y.potential, p.mi = m.mi ∧ m.mn ≤ p.mn
               let live := (∃ p ∈ y.peers, p.mi = m.mi) ∨ ∃ l ∈ m.lists, l.1 = y.mi ∧ 0 < l.2 ∧ l.2 ≤ y.mn
               (again → exec (.mkpduReceive ca link) s = .next (settle s v))
               ∧ (¬ again → live → ∃ t, exec (.mkpduReceive ca link) s = .next t ∧ (caOf t ca).mi = y.mi
                   ∧ (caOf t ca).peers.map (fun p => (p.mi, p.mn))
                     = (y.peers.filter (fun p => p.mi != m.mi)).map (fun p => (p.mi, p.mn)) ++ [(m.mi, m.mn)])
               ∧ (¬ again → ¬ live → ∃ t, exec (.mkpduReceive ca link) s = .next t ∧ (caOf t ca).peers = y.peers
                   ∧ (caOf t ca).potential.map (fun p => (p.mi, p.mn))
                     = (y.potential.filter (fun p => p.mi != m.mi)).map (fun p => (p.mi, p.mn)) ++ [(m.mi, m.mn)])))))
     ∧ (∀ mi, (let gone (p : Peer) : Bool := p.mi == mi && decide (p.heard + attr s clsCa ca 7 * 10 ^ 6 ≤ now)
          ((∃ p ∈ x.peers, gone p = true) → ∃ t, exec (.peerLifeExpire ca mi) s = .next t
            ∧ (caOf t ca).peers = x.peers.filter (fun p => !gone p) ∧ t.keys.gslot = s.keys.gslot)
          ∧ ((∀ p ∈ x.peers ++ x.potential, gone p = false) → exec (.peerLifeExpire ca mi) s = .next s)))
     ∧ (attr s clsCa ca 8 ≠ 0 → x.switchedAt + attr s clsCa ca 8 * 10 ^ 9 ≤ now → keyServer s ca = true → x.active = false →
         exec (.rekeyInterval ca) s
           = .next (setCa ca { x with due := true, active := false, dueFrom := if x.due then min x.dueFrom now else now } s))
     ∧ (attr s clsCa ca 8 = 0 ∨ keyServer s ca = false ∨ now < x.switchedAt + attr s clsCa ca 8 * 10 ^ 9 →
         exec (.rekeyInterval ca) s = .next s))

/-- PAIR.BIND with PD_MATE on, of the identity item of another device of the same part, stores the binding and leaves the pair PAIRING without pair keys, with the lease as it was; of its own, or of another part, it answers BAD_VALUE. PAIR.UNBIND erases binding, pair keys and link and keeps the lease only of a holder. PAIR.SOLO of a paired device whose mated link is down makes it the holder, alone; unpaired or with the link keyed it answers DENIED. PAIR.HANDOVER on a holder whose mated link is keyed and whose partner reports READY starts the handover, or answers BUSY while one is in progress; without them it answers PAIR_NOT_READY, and on a paired device that is not the holder DENIED. -/
def Obligations.PairCommands : Prop :=
  ∀ (s0 : State) (mb : Mb) (w : World),
    (let s := begun mb.val s0
     let ok (t : State) : Prop := (mbxOf t mb.val).answer = some { status := .ok }
     let keyless (t : State) : Prop := tget {} t.keys.internal handlePairWrap = {} ∧ tget {} t.keys.internal handlePairLink = {}
     (MayRun [.officer] [.provision, .maintenance] mb .officer s0 →
        (∀ a c, domOn s 78 = true → holding s = false → ∀ b u, bufRead mCp c 0 a 1289 (wake 78 s) = (some b, u) →
          (beAt b 1281 8 = deviceId u ∨ Config.partOf (BitVec.ofNat 64 (beAt b 1281 8)) ≠ u.nvm.part9624 → exec (.pairBind mb a c) s0 = .next (answer mb.val (.badValue, []) u))
          ∧ (beAt b 1281 8 ≠ deviceId u → Config.partOf (BitVec.ofNat 64 (beAt b 1281 8)) = u.nvm.part9624 → ∃ t, exec (.pairBind mb a c) s0 = .next t ∧ ok t ∧ keyless t
              ∧ t.nvm.binding = some { id := BitVec.ofNat 64 (beAt b 1281 8), ek := b.take 1184, point := bsub b 1184 97 }
              ∧ t.pair = { state := .pairing, lease := s.pair.lease, psel := s.pair.psel, versions := s.pair.versions }))
        ∧ (paired s = true → ∃ t, exec (.pairUnbind mb) s0 = .next t ∧ ok t ∧ keyless t ∧ t.nvm.binding = none
            ∧ t.pair = { state := .unpaired, lease := if isHolder s then .holder else .none, psel := s.pair.psel, versions := s.pair.versions } ∧ whOf t 48 = {})
        ∧ (paired s = false → exec (.pairUnbind mb) s0 = .next (answer mb.val (.ok, []) s)))
     ∧ (MayRun [.officer] [.provision, .service, .maintenance] mb .officer s0 →
        (paired s = true → s.pair.linkUp = false → isHolder s = false → ∃ t, exec (.pairSolo mb) s0 = .next t ∧ ok t
          ∧ t.pair.lease = .holder ∧ t.pair.alone = true ∧ t.pair.state = .notReady
          ∧ tget 0 t.perf.fix 45 = (tget 0 s.perf.fix 45 + 1) % 2 ^ 48)
        ∧ (paired s = true → s.pair.linkUp = false → isHolder s = true → exec (.pairSolo mb) s0 = .next (answer mb.val (.ok, []) s))
        ∧ (paired s = false ∨ s.pair.linkUp = true → exec (.pairSolo mb) s0 = .next (answer mb.val (.denied, []) s)))
     ∧ (MayRun [.officer, .operator] [.service, .maintenance] mb w s0 →
        (isHolder s = true → s.pair.linkUp = true → partnerReady s = true →
          (s.pair.handover = none → ∃ t, exec (.pairHandover mb) s0 = .next t
            ∧ t.pair = { s.pair with handover := some (some mb.val, false, s.time.ticks) }
            ∧ t.out = .mate [0x13, 1] :: s.out ∧ Only [.pair, .traffic, .reqs, .out] s t)
          ∧ (s.pair.handover.isSome = true → exec (.pairHandover mb) s0 = .next (answer mb.val (.busy, []) s)))
        ∧ (isHolder s = true → s.pair.linkUp = false ∨ partnerReady s = false →
            exec (.pairHandover mb) s0 = .next (answer mb.val (.pairNotReady, []) s))
        ∧ (paired s = true → isHolder s = false → exec (.pairHandover mb) s0 = .next (answer mb.val (.denied, []) s))))

/-- On a live paired device over a keyed mated link: while the pair has no keys, a retry 100 ms after the last attempt begins an exchange and sends its own contribution in two parts, or waits while an entropy failure is held; the parts of the partner's contribution are taken in order, with the last of them, the working copy of the DRK sound, a pair key is formed and the confirmation sent; a confirmation whose tag fits, the destruction line not driven, gives the pair its two internal keys and restarts the mated link, and any other changes nothing. (A heartbeat fault of the mated link clears as each message arrives.) -/
def Obligations.PairingExchange : Prop :=
  ∀ s : State, live s = true → paired s = true → s.pair.linkUp = true →
    (let s' := setDefect 48 2 false s
     (pairKeyed s = false → s.pair.exchAt + 10 ^ 8 ≤ s.time.ticks → s.keys.entropyHeld = false →
        ∃ t, exec .pairingRetry s = .next t ∧ t.pair.exch.theirs = [] ∧ t.pair.exch.parts = 0 ∧ t.pair.exch.pairKey = none
        ∧ (let b := t.pair.exch.ct
           let part (i : Byte) (d : Bytes) : Out := .mate ([0x1A, i, 2] ++ beBytes 2 d.length ++ d)
           t.out = part 2 (b.drop 960) :: part 1 (b.take 960) :: s.out)
        ∧ t.pair.state = .pairing ∧ t.pair.lease = s.pair.lease ∧ t.pair.exchAt = s.time.ticks
        ∧ Only [.pair, .rng, .traffic, .reqs, .out] s t)
     ∧ (pairKeyed s = false → s.pair.exchAt + 10 ^ 8 ≤ s.time.ticks → s.keys.entropyHeld = true →
          exec .pairingRetry s = .next (defer .exchange s))
     ∧ (pairKeyed s = true ∨ s.time.ticks < s.pair.exchAt + 10 ^ 8 → exec .pairingRetry s = .next s)
     ∧ (∀ d : Bytes, s.pair.exch.ct ≠ [] →
         (s.pair.exch.parts = 0 → exec (.pairPart 1 2 d) s
            = .next { s' with pair := { s'.pair with exch := { s'.pair.exch with theirs := s'.pair.exch.theirs ++ d, parts := 1 } } })
         ∧ (s.pair.exch.parts = 1 → rootGood s' = true → s.pair.exch.theirs.length + d.length = 1185 →
            ∀ k ctx, pairKeyOf { s' with pair := { s'.pair with exch := { s'.pair.exch with theirs := s'.pair.exch.theirs ++ d, parts := 2 } } }
              = some (k, ctx) → ∃ t, exec (.pairPart 2 2 d) s = .next t ∧ t.pair.exch.pairKey = some (keyOf k)
                ∧ t.pair.exch.theirs = s.pair.exch.theirs ++ d ∧ ∃ tag, t.out = .mate (0x1B :: beBytes 16 tag) :: s'.out)
         ∧ (∀ part total, total ≠ 2 ∨ part ≠ s.pair.exch.parts + 1 → exec (.pairPart part total d) s = .next s'))
     ∧ (∀ (key : Key) (k ctx : NatList), s.keys.line = none → s.pair.exch.pairKey = some key → pairKeyOf s' = some (k, ctx) → ∀ tag,
         (tag = confirmTag s' k ctx (!roleB s') → ∃ t, exec (.pairConfirm tag) s = .next t
            ∧ (∃ m, tget {} t.keys.internal handlePairLink = plainLine (keyOf (kdf k (octets (ascii "XPAIR-LINK")) ctx 256)) m)
            ∧ (∃ m, tget {} t.keys.internal handlePairWrap = plainLine (keyOf (kdf k (octets (ascii "XPAIR-WRAP")) ctx 256)) m)
            ∧ t.pair.linkUp = false
            ∧ t.pair.exch = {} ∧ t.pair.state = (if s.pair.synced then .notReady else .syncing) ∧ t.pair.lease = s.pair.lease)
         ∧ (tag ≠ confirmTag s' k ctx (!roleB s') → exec (.pairConfirm tag) s = .next s')))

/-- On a live paired device over a keyed mated link, outside RECOVERY, in which no lease message is exchanged: a holder that is not alone sends, renew_us after the last, a renewal with the next number and its last echo, and remembers it; a device that is not the holder and gets a renewal of a new number becomes the standby, or stays FENCED, with its grant at the full lease from now and answers with its readiness, and only answers a repeat; a holder that gets an acknowledgment matching a renewal of the last lease time extends its lease to that renewal's end, never shorter, and one that matches none extends nothing. -/
def Obligations.LeaseMessages : Prop :=
  ∀ s : State, live s = true → paired s = true → s.pair.linkUp = true →
    (let s' := setDefect 48 2 false s
     let len := 1000 * pairAttr s 6
     (isHolder s = true → s.pair.alone = false → (∀ a, s.pair.renewAt = some a → s.time.ticks < a + 1000 * pairAttr s 7 →
          exec .leaseRenewSend s = .next s))
     ∧ (isHolder s = true → s.pair.alone = false → (∀ a, s.pair.renewAt = some a → a + 1000 * pairAttr s 7 ≤ s.time.ticks) →
        ∃ t, exec .leaseRenewSend s = .next t
        ∧ t.pair.renewSeq = (s.pair.renewSeq + 1) % 2 ^ 32 ∧ t.pair.lastEcho = s.pair.ackState
        ∧ ((s.pair.renewSeq + 1) % 2 ^ 32, s.time.ticks) ∈ t.pair.renews
        ∧ t.out = .mate (0x10 :: (beBytes 4 ((s.pair.renewSeq + 1) % 2 ^ 32) ++ beBytes 1 s.pair.ackState)) :: s.out
        ∧ t.pair.leaseEnd = s.pair.leaseEnd ∧ Only [.pair, .traffic, .reqs, .out] s t)
     ∧ (isHolder s = false → s.glb.mode ≠ .recovery → ∀ n e, ∃ t, exec (.leaseRenew n e) s = .next t
        ∧ t.out = .mate (0x11 :: (beBytes 4 n ++ beBytes 1 (if s.pair.state = .ready then 1 else 0))) :: s'.out
        ∧ ((∀ k, s.pair.rxRenew ≠ some (n, k)) → t.pair = { s.pair with
            lease := if s.pair.lease = .fenced then .fenced else .standby, rxRenew := some (n, e), lastLeaseMsg := s.time.ticks, grantEnd := s.time.ticks + len })
        ∧ (∀ k, s.pair.rxRenew = some (n, k) → t.pair = s.pair))
     ∧ (isHolder s = true → s.glb.mode ≠ .recovery → ∀ n st, ∃ t, exec (.leaseAck n st) s = .next t ∧ t.pair.ackState = st ∧ t.pair.lastLeaseMsg = s.time.ticks
        ∧ s.pair.leaseEnd ≤ t.pair.leaseEnd
        ∧ (∀ r, s.pair.renews.find? (fun r => r.1 == n && decide (s.time.ticks ≤ r.2 + len)) = some r →
            t.pair.leaseEnd = max s.pair.leaseEnd (r.2 + len))
        ∧ ((∀ r ∈ s.pair.renews, r.1 = n → r.2 + len < s.time.ticks) → t.pair.leaseEnd = s.pair.leaseEnd)
        ∧ t.pair.lease = .holder)
     ∧ (s.glb.mode = .recovery → (∀ n e, exec (.leaseRenew n e) s = .next s') ∧ (∀ n st, exec (.leaseAck n st) s = .next s')
        ∧ (∀ o v b, exec (.mirror o v b) s = .next s') ∧ (∀ o v st, exec (.mirrorAck o v st) s = .next s')))

/-- A live paired holder that is not alone, whose lease has ended after a last echo of READY, is FENCED with no frame left and its select lines low; after an echo of anything else it stays the holder. A READY standby whose grant ended more than 20 µs ago after an echo of READY takes the lease, as does the device that prefer names of two that are READY and, keyed for a lease time, without a lease message for as long, and a READY standby that hears HALTING; the one that takes it has its lease run from now, and no installed slot of a channel below the watermark it received or its own, plus the jump; where no slot stands twice in the store, exactly there. A holder that hears HALTING keeps the lease alone. -/
def Obligations.LeaseChangesHands : Prop :=
  ∀ s : State, live s = true → paired s = true →
    (let took (t : State) : Prop := t.pair.lease = .holder ∧ t.pair.leaseEnd = s.time.ticks + 1000 * pairAttr s 6
       ∧ tget 0 t.perf.fix 45 = (tget 0 s.perf.fix 45 + 1) % 2 ^ 48
       ∧ (∀ n ∈ installedSlots s, (let base := max (tget 0 s.pair.markGot n) (watermarkOf s n)
           base + 2 ^ pairAttr s 8 ≤ pnOf t n ∧ ((installedSlots s).Nodup → pnOf t n = base + 2 ^ pairAttr s 8)))
     (isHolder s = true → s.pair.alone = false → s.pair.leaseEnd ≤ s.time.ticks →
        (s.pair.lastEcho = 1 → ∃ t, exec .leaseExpire s = .next t ∧ t.pair.lease = .fenced ∧ t.pair.psel = 0 ∧ t.pair.handover = none
          ∧ t.traffic.frames = [] ∧ t.irq.cause.getLsbD 0x0D = true)
        ∧ (s.pair.lastEcho ≠ 1 → exec .leaseExpire s = .next s))
     ∧ (s.pair.lease = .standby → s.pair.state = .ready → (∃ n, s.pair.rxRenew = some (n, 1)) → s.pair.grantEnd + 20000 < s.time.ticks →
        ∃ t, exec .leaseTakeover s = .next t ∧ took t ∧ t.irq.cause.getLsbD 0x0C = true)
     ∧ (s.time.ticks ≤ s.pair.grantEnd + 20000 → exec .leaseTakeover s = .next s)
     ∧ (s.pair.state = .ready → readyKeeps s = true → s.pair.lease = .none ∨ s.pair.lease = .standby → partnerReady s = true →
        pairAttr s 5 = (if roleB s then 1 else 0) → max s.pair.lastLeaseMsg s.pair.keyedAt + 1000 * pairAttr s 6 ≤ s.time.ticks →
        ∃ t, exec .leaseFirstTake s = .next t ∧ took t)
     ∧ (s.pair.linkUp = true → ∀ cause,
        (s.pair.lease = .standby → s.pair.state = .ready → ∃ t, exec (.halting cause) s = .next t ∧ t.pair.lease = .holder
          ∧ t.pair.alone = true ∧ t.pair.partnerHalted = true ∧ t.pair.state = .notReady)
        ∧ (isHolder s = true → ∃ t, exec (.halting cause) s = .next t ∧ t.pair.lease = .holder ∧ t.pair.alone = true
          ∧ t.pair.partnerHalted = true ∧ t.pair.partner = none)))

/-- A holder that mirrors sends the changed watermarks, at most 48 in a message, and remembers the batch; a device that is not the holder keeps the higher of each watermark it gets and answers with the batch; an acknowledgment of a batch raises the acknowledged watermarks and ends it. At the end of a handover's drain, drain_us after its start, no frame is left, and with every batch acknowledged the holder becomes the standby and sends release; a READY device that is not the holder takes the lease at release, and at prepare asks its idle clusters back. -/
def Obligations.WatermarksAndHandover : Prop :=
  ∀ s : State, live s = true → paired s = true → s.pair.linkUp = true →
    (let s' := setDefect 48 2 false s
     (mirroring s = true → ∀ l, (changedMarks s).take 48 = l → l ≠ [] → ∃ t, exec .watermarkSend s = .next t ∧ Only [.pair, .traffic, .reqs, .out] s t
        ∧ t.pair.batches = s.pair.batches ++ [(s.pair.nextBatch, l.map (fun n => (n, watermarkOf s n)))]
        ∧ t.pair.nextBatch = (s.pair.nextBatch + 1) % 2 ^ 32 ∧ t.pair.markAcked = s.pair.markAcked)
     ∧ (isHolder s = false → ∀ b m, ∃ t, exec (.watermark b m) s = .next t ∧ t.out = .mate (0x15 :: beBytes 4 b) :: s'.out
        ∧ (∀ n v, (n, v) ∈ m → v ≤ tget 0 t.pair.markGot n) ∧ (∀ n, tget 0 s.pair.markGot n ≤ tget 0 t.pair.markGot n)
        ∧ (∀ n, (∀ v, (n, v) ∉ m) → tget 0 t.pair.markGot n = tget 0 s.pair.markGot n))
     ∧ (∀ b m, s.pair.batches.find? (fun x => x.1 == b) = some (b, m) → s.pair.handover = none → ∃ t, exec (.wmAck b) s = .next t
        ∧ (∀ n v, (n, v) ∈ m → v ≤ tget 0 t.pair.markAcked n) ∧ (∀ n, tget 0 s.pair.markAcked n ≤ tget 0 t.pair.markAcked n)
        ∧ t.pair.batches = s.pair.batches.filter (fun x => x.1 != b))
     ∧ (∀ b, (∀ x ∈ s.pair.batches, x.1 ≠ b) → exec (.wmAck b) s = .next s')
     ∧ (∀ mb k, s.pair.handover = some (mb, false, k) → isHolder s = true → k + 1000 * pairAttr s 9 ≤ s.time.ticks →
        ∃ t, exec .handoverDrainEnd s = .next t ∧ t.traffic.frames = []
          ∧ (t.pair.lease = .standby ∧ t.pair.handover = none ∧ t.pair.psel = 0
             ∨ t.pair.lease = .holder ∧ ∃ n, t.pair.handover = some (mb, true, n)))
     ∧ (∀ mb k, s.pair.handover = some (mb, false, k) → s.time.ticks < k + 1000 * pairAttr s 9 → exec .handoverDrainEnd s = .next s)
     ∧ (isHolder s = false → s.pair.state = .ready → ∃ t, exec (.handover 2) s = .next t ∧ t.pair.lease = .holder
          ∧ t.pair.leaseEnd = s.time.ticks + 1000 * pairAttr s 6)
     ∧ (isHolder s = false → ∃ t, exec (.handover 1) s = .next t ∧ t.pair = s'.pair
          ∧ (∀ c ∈ byRole s .idle, (domOf s c).state = .ret → (domOf t c).state = .changing ∧ (domOf t c).toward = .on)))

/-- On a live paired device over a keyed mated link, outside RECOVERY, in which no mirror is exchanged: a device that is not the holder, once the pair has keys, applies a mirrored object of a higher version than it holds and answers with the version it then holds, and answers a version it holds already without applying it; the holder takes an acknowledgment as the highest acknowledged version; one that has not come 200 µs after its mirror, of an object that is not withheld, ends READY. A STATE is remembered as the partner's. The time is compared every millisecond by sending network time at the cell's time-stamp point; the offset is half the difference of the figure that a received time gives and the partner's for the other direction, a free value (log 36), and beyond the tolerance it is a fault that fixed counter 37 counts. -/
def Obligations.MirroredObjects : Prop :=
  ∀ s : State, live s = true → paired s = true → s.pair.linkUp = true →
    (let s' := setDefect 48 2 false s
     let quiet := s.pair.state ≠ .notReady ∨ isHolder s = false
     (isHolder s = false → s.glb.mode ≠ .recovery → pairKeyed s' = true → ∀ o v b,
        (let held := tget 0 s.pair.heldVer o
         (v ≤ held → ∃ t, exec (.mirror o v b) s = .next t ∧ t.pair.heldVer = s.pair.heldVer ∧ t.objs = s'.objs ∧ t.keys = s'.keys
            ∧ Out.mate (0x17 :: (beBytes 4 o ++ beBytes 8 held ++ [0])) ∈ t.out)
         ∧ (held < v → ∀ u, takeObject o b s' = (.ok, u) → ∃ t, exec (.mirror o v b) s = .next t
            ∧ tget 0 t.pair.heldVer o = v ∧ t.objs = u.objs ∧ t.keys = u.keys ∧ t.traffic = { u.traffic with nextFid := t.traffic.nextFid })
         ∧ (held < v → ∀ st u, takeObject o b s' = (st, u) → st ≠ .ok → ∃ t, exec (.mirror o v b) s = .next t
            ∧ t.pair.heldVer = u.pair.heldVer ∧ t.objs = u.objs ∧ t.keys = u.keys)))
     ∧ (isHolder s = true → s.glb.mode ≠ .recovery → ∀ o v st, v < verOf s o → ∃ t, exec (.mirrorAck o v st) s = .next t
        ∧ v ≤ tget 0 t.pair.acked o ∧ tget 0 s.pair.acked o ≤ tget 0 t.pair.acked o ∧ (quiet → t.keys = s'.keys) ∧ t.objs = s'.objs)
     ∧ (isHolder s = true → ∀ o, tget 0 s.pair.acked o < verOf s o → tget 0 s.pair.versions o ≠ 0 → withheld s o = false → tget 0 s.pair.sentAt o + 200000 ≤ s.time.ticks →
        s.pair.state = .ready → ∃ t, exec (.mirrorAckTimeout o) s = .next t
        ∧ t.pair.state = .notReady ∧ (∀ x ∈ t.pair.mirrorWait, x.1 ≠ o))
     ∧ (∀ o, verOf s o ≤ tget 0 s.pair.acked o ∨ s.time.ticks < tget 0 s.pair.sentAt o + 200000 → exec (.mirrorAckTimeout o) s = .next s)
     ∧ (∀ md r sp d, ∃ t, exec (.state md r sp d) s = .next t ∧ t.pair.partner = some (md, r, sp, d) ∧ (quiet → t.keys = s'.keys) ∧ t.objs = s'.objs)
     ∧ ((∀ a, s.pair.cmpAt = some a → a + 10 ^ 6 ≤ s.time.ticks) →
          (let st := txStamp s 96 s.time.now
           ∃ t, exec .timeCmpSend s = .next t ∧ Only [.pair, .traffic, .reqs, .out] s t
             ∧ t.out = .mate (0x19 :: (beBytes 6 st.sec ++ beBytes 4 st.ns ++ beBytes 2 st.frac)) :: s.out))
     ∧ (∀ a, s.pair.cmpAt = some a → s.time.ticks < a + 10 ^ 6 → exec .timeCmpSend s = .next s)
     ∧ (∀ a n f, (let st : Stamp := { sec := a, sub := n * 2 ^ 32 + f * 2 ^ 16 }
          ∃ t, exec (.timeCmp a n f) s = .next t ∧ t.time = s.time
          ∧ t.pair.offset = (((rxStamp s' 96 s.time.now).total : Int) - (st.total : Int) - (Config.free s'.rng 64).toInt) / 2
          ∧ ((pairAttr s 0x0A : Int) < t.pair.offset.natAbs → tget 0 t.perf.fix 37 = (tget 0 s'.perf.fix 37 + 1) % 2 ^ 48)
          ∧ (quiet → t.pair.offset.natAbs ≤ (pairAttr s 0x0A : Int) → t.maint = s'.maint))))

/-- A command whose session and mode pass: CAL.READ writes the stored set to the buffer; CAL.WRITE stores a set that meets the conditions of R335, with every pace entry in use as before, and answers BAD_VALUE to any other; CAL.HBM_TEST on a drained device leaves the tested Reservoir ranges without content and every other address as it was, halts the device with RESERVOIR where a failure is uncorrectable, and answers MODE on a device that is not drained; CAL.SERDES is DEFERRED while a port of the group is up and OK where none is; LOG.TAMPER and LOG.FAULTS answer the records from the first asked for; LA.RESET of the disabled, idle queue zeroes its four indices; PERF.SUMP_READ writes its table; DP.CLAIM gives the port to one session and is BUSY while one has it; DP.RELEASE by the claiming session ends the claim and disables the port. (The layout of the Sump tables is log 37, the bytes that a tested range reads as log 3.) -/
def Obligations.MaintenanceCommands : Prop :=
  ∀ (s0 : State) (mb : Mb) (w : World),
    (let s := begun mb.val s0
     let ok (t : State) : Prop := ∃ b, (mbxOf t mb.val).answer = some { status := .ok, body := b }
     let replies (r : Reply) : State → Host.Outcome State Fault Refusal := fun t => .next (answer mb.val r t)
     (MayRun [.officer, .operator, .observer] [] mb w s0 →
        (∀ a c t, holding s = false → bufWrite mCp c w.code a (calSet s) s = (true, t) → exec (.calRead mb a c) s0 = replies (.ok, []) t)
        ∧ (∀ table a c t, holding s = false → table < 2 →
            bufWrite mCp c w.code a (sumpHead s ++ (if table = 0 then portTable s else chanTable s)) s = (true, t) →
            exec (.perfSumpRead mb table a c) s0
              = replies (.ok, leBytes 4 (sumpHead s ++ (if table = 0 then portTable s else chanTable s)).length) t)
        ∧ (∀ table a c, 2 ≤ table → exec (.perfSumpRead mb table a c) s0 = replies (.badValue, []) s)
        ∧ (∀ first count, 1 ≤ count → count ≤ 15 → exec (.logTamper mb first count) s0
            = replies (.ok, logReply (((s.stp.log.filter (fun r => decide (first ≤ r.seq))).take count).map logBytes)) s)
        ∧ (∀ first count, 1 ≤ count → count ≤ 30 → exec (.logFaults mb first count) s0
            = replies (.ok, logReply (((s.maint.log.filter (fun r => decide (first ≤ r.index))).take count).map faultBytes)) s)
        ∧ (∀ first count, count < 1 ∨ 30 < count → exec (.logFaults mb first count) s0 = replies (.badValue, []) s
            ∧ exec (.logTamper mb first count) s0 = replies (.badValue, []) s))
     ∧ (MayRun [.officer] [.maintenance, .recovery] mb w s0 → holding s = false → ∀ a c b u,
        bufRead mCp c w.code a 65536 s = (some b, u) →
        (calFits u b = false → exec (.calWrite mb a c) s0 = replies (.badValue, []) u)
        ∧ (calFits u b = true → ∃ t, exec (.calWrite mb a c) s0 = .next t ∧ ok t ∧ t.nvm.cal = some b
            ∧ (∀ k e, k < 34 → 0x40 ≤ e → e < 0x70 → attr t clsPmu k e = attr s clsPmu k e) ∧ Only [.nvm, .objs, .mbx, .perf] u t))
     ∧ (MayRun [.officer] [.maintenance] mb w s0 → ∀ bad,
        (∀ fatal, drained s = false → exec (.calHbmTest mb ⟨bad, fatal⟩) s0 = replies (.mode, []) s)
        ∧ (drained s = true → ∃ t, exec (.calHbmTest mb ⟨bad, false⟩) s0 = .next t ∧ ok t ∧ Only [.mem, .rng, .mbx, .perf] s t
            ∧ (∀ a, 0x1000000000 ≤ a → a < 0x1C00000000 → a < 0x1980000000 ∨ 0x1A00000000 ≤ a → tget 0 t.mem.bytes a = 0)
            ∧ (∀ a, a < 0x1000000000 ∨ 0x1C00000000 ≤ a ∨ (0x1980000000 ≤ a ∧ a < 0x1A00000000) →
                tget 0 t.mem.bytes a = tget 0 s.mem.bytes a))
        ∧ (drained s = true → ∃ t, exec (.calHbmTest mb ⟨bad, true⟩) s0 = .next t ∧ t.glb.haltCause = 5 ∧ t.mem = s.mem))
     ∧ (MayRun [.officer, .operator] [.provision, .service, .maintenance] mb w s0 → ∀ q, q < 96 → fusedQ s q = false →
        ((∃ k ∈ sgPorts (portSg q), fusedQ s k = false ∧ adminUp s k = true) → exec (.calSerdes mb q) s0 = replies (.deferred, []) s)
        ∧ ((∀ k ∈ sgPorts (portSg q), fusedQ s k = false → adminUp s k = false) → ∀ t, reach [42 + portSg q] s = (none, t) →
            exec (.calSerdes mb q) s0 = replies (.ok, []) t))
     ∧ (MayRun [.officer, .operator] [] mb w s0 →
        (laIdle s 0 = true → ∃ t, exec (.laReset mb 0) s0 = .next t ∧ ok t ∧ Only [.la, .mbx, .perf] s t
            ∧ laOf t 0 = { laOf s 0 with descProd := 0, descCons := 0, cplProd := 0, cplCons := 0 }
            ∧ laOf t 1 = laOf s 1)
        ∧ (laIdle s 0 = false → exec (.laReset mb 0) s0 = replies (.busy, []) s)
        ∧ exec (.laReset mb 1) s0 = replies (.denied, []) s
        ∧ (s.dp.claim = none → ∃ t x, exec (.dpClaim mb) s0 = .next t ∧ (mbxOf s mb.val).session = some x
            ∧ t.dp = { s.dp with claim := some (mb.val, x.id.toNat) } ∧ ok t ∧ Only [.dp, .mbx, .perf] s t)
        ∧ (s.dp.claim ≠ none → exec (.dpClaim mb) s0 = replies (.busy, []) s)
        ∧ (claimedBy s mb.val = true → ∃ t, exec (.dpRelease mb) s0 = .next t ∧ ok t
            ∧ t.dp = { s.dp with claim := none, en := false } ∧ Only [.dp, .mbx, .perf] s t)
        ∧ (s.dp.claim ≠ none → claimedBy s mb.val = false → exec (.dpRelease mb) s0 = replies (.denied, []) s)))

/-- On a port that receives: a frame with a bad FCS, one of a length out of bounds, one that no entry classifies, an untagged one of a port without a channel for it, and one with a malformed SecTAG go to the Sump with reasons 1, 2, 3, 13 and 14, which count once in fixed counters 0 and the reason's own and in the port's table, with no frame entered; a frame for an address of the filter waits at its ring; a classified host frame within the policer that passes the port, room and load tests enters a queue with its deadline and counts as accepted; one that finds no room is QUEUE_FULL. A sealed frame, and a standard line frame whose SecTAG, SecY and SA are found, go on to the replay check, where a PN that the record already holds is LATE; a frame that waits there goes on once no earlier one holds its PN. A PTP segment waits at the port's ring with its cell's time. -/
def Obligations.FramesReceived : Prop :=
  ∀ s : State, live s = true →
    (let lostAs (q r : Nat) (t : State) : Prop := tget 0 t.perf.fix 0 = (tget 0 s.perf.fix 0 + 1) % 2 ^ 48
       ∧ tget 0 t.perf.fix r = (tget 0 s.perf.fix r + 1) % 2 ^ 48
       ∧ tget 0 t.traffic.sump (32 * q + r) = (tget 0 s.traffic.sump (32 * q + r) + 1) % 2 ^ 48
       ∧ t.traffic.frames = s.traffic.frames ∧ t.traffic.nextFid = s.traffic.nextFid
     (∀ (hp : LPort) (b : Bytes) (fcs par : Bool),
        (receives s hp.val = false → exec (.hostFrameReceive hp b fcs par) s = .next s)
        ∧ (receives s hp.val = true →
          (fcs = false → ∃ t, exec (.hostFrameReceive hp b fcs par) s = .next t ∧ lostAs hp.val 1 t)
          ∧ (fcs = true → b.length < 60 ∨ 15996 < b.length → ∃ t, exec (.hostFrameReceive hp b fcs par) s = .next t ∧ lostAs hp.val 2 t)
          ∧ (fcs = true → 60 ≤ b.length → b.length ≤ 15996 →
              (∀ i r, filterHit s hp.val b = some (i, r) → r < 8 → (ringOf s r).en = true →
                divertedGranules s + cdiv b.length 256 ≤ 12288 → ∃ t, exec (.hostFrameReceive hp b fcs par) s = .next t
                  ∧ (∃ p : Punt, (ringOf t r).waiting = (ringOf s r).waiting ++ [p] ∧ p.port = hp.val ∧ p.entry = i ∧ p.data = b)
                  ∧ t.traffic = s.traffic)
              ∧ (filterHit s hp.val b = none → entryFor s (hostTags hp.val b).1 = none → pattr s hp.val 3 = 0xFFFF →
                ∃ t, exec (.hostFrameReceive hp b fcs par) s = .next t ∧ lostAs hp.val 3 t)
              ∧ (∀ c, filterHit s hp.val b = none → par = true → inTraffic s = true → s.pair.handover = none →
                (∃ e, entryFor s (hostTags hp.val b).1 = some e ∧ e.invalid = false ∧ e.chan = c) → (chanOf s c).state ≠ .free →
                (let n := b.length + 4
                 let s' := countRx hp.val n s
                 ∀ u, police c .enc n (hostTags hp.val b).2 s' = (.green, u) →
                  (let f : Frame := {
                     chan := c, dir := .enc, tc := cattr s c 4, tint := .green, flen := n, slots := frameSlots s c n, ingress := hp.val
                     egress := egressQ s c .enc, ebytes := eBytes s (egressQ s c .enc) n, data := b, tr := s.time.ticks
                     deadline := none, tag := 0, stage := .queued, record := recordOf s c }
                   portTests f u = none →
                   (roomFor f u = none → ∃ t, exec (.hostFrameReceive hp b fcs par) s = .next t ∧ lostAs hp.val 9 t)
                   ∧ (∀ room x v, roomFor f u = some room → gateWait f.egress f.tc u = (x, v) → loadTests f x v = none →
                      ∃ t g, exec (.hostFrameReceive hp b fcs par) s = .next t ∧ t.traffic.nextFid = s.traffic.nextFid + 1
                        ∧ frameOf t s.traffic.nextFid = some g ∧ g.data = b ∧ g.chan = c ∧ g.dir = .enc
                        ∧ g.stage = (if room = .spill then .spilling else .queued)
                        ∧ g.deadline = some (s.time.ticks + boundOf v c .enc n (frameSlots s c n))
                        ∧ tget 0 t.perf.fix 46 = (tget 0 s.perf.fix 46 + 1) % 2 ^ 48
                        ∧ tget 0 t.perf.fix 48 = (tget 0 s.perf.fix 48 + n) % 2 ^ 48)))))))
     ∧ (∀ (lp : LPort) (b : Bytes) (fcs : Bool), receives s (48 + lp.val) = true →
        (fcs = false → ∃ t, exec (.lineFrameReceive lp b fcs) s = .next t ∧ lostAs (48 + lp.val) 1 t)
        ∧ (fcs = true → b.length < 60 ∨ 16036 < b.length → ∃ t, exec (.lineFrameReceive lp b fcs) s = .next t ∧ lostAs (48 + lp.val) 2 t)
        ∧ (fcs = true → 60 ≤ b.length → b.length ≤ 16036 → filterHit s (48 + lp.val) b = none →
            (let o := (clearTags (portTic s (48 + lp.val)) b).1
             (beAt b o 2 ≠ 0x88E5 → 32766 ≤ pattr s (48 + lp.val) 0x21 →
                ∃ t, exec (.lineFrameReceive lp b fcs) s = .next t ∧ lostAs (48 + lp.val) 13 t)
             ∧ (beAt b o 2 = 0x88E5 → secTag b o = none → ∃ t, exec (.lineFrameReceive lp b fcs) s = .next t ∧ lostAs (48 + lp.val) 14 t)
             ∧ (∀ x c n, beAt b o 2 = 0x88E5 → secTag b o = some x → x.sdl ≤ 15984 →
                secyFor s lp.val (portTic s (48 + lp.val)) (clearTags (portTic s (48 + lp.val)) b).2.1
                  (clearTags (portTic s (48 + lp.val)) b).2.2.1 = some c →
                x.sci.getD (cattr s c 0x0C) = cattr s c 0x0C → slotFor s c x.an = some n → s.glb.mode ≠ .provision →
                ∃ f : Frame, f.chan = c ∧ f.dir = .dec ∧ f.slot = n ∧ f.data = b ∧ f.pn = fullPn (lowPn s c n) x.pn ∧ f.flen = 16 + x.sdl
                  ∧ exec (.lineFrameReceive lp b fcs) s
                    = .next (lineFrame f (clearTags (portTic s (48 + lp.val)) b).2.2.2 (countRx (48 + lp.val) (b.length + 4) s))))))
     ∧ (∀ (lp : LPort) (c tick : Nat) (b : Bytes) rest, (whOf s lp.val).rx.closed = (c, b, tick) :: rest →
        portsRun s = true → cattr s c 3 = lp.val → (chanOf s c).state = .active →
        (let u := onRx lp.val (fun r => { r with closed := rest }) s
         ∀ n, slotFor s c (beAt b 0 8 / 2 ^ 62 % 4) = some n → s.glb.mode ≠ .provision → 84 ≤ b.length → b.length ≤ 16020 →
          ∃ f : Frame, f.chan = c ∧ f.dir = .dec ∧ f.slot = n ∧ f.data = b ∧ f.pn = beAt b 0 8 % 2 ^ 62 ∧ f.tr = tick
            ∧ exec (.sealedFrameClose lp) s = .next (lineFrame f false u)))
     ∧ (∀ fid f, frameOf s fid = some f → f.stage = .replayWait → f.doomed = none → replayRuns s f = true → pnBusy s fid f = false →
        (replayOk s f = true → f.shadow = false → ∃ t g, exec (.replayRecheck fid) s = .next t ∧ frameOf t fid = some g
          ∧ g = { f with stage := if f.spill then .spilling else .queued } ∧ Only [.traffic] s t)
        ∧ (replayOk s f = false → ∃ t, exec (.replayRecheck fid) s = .next t ∧ frameOf t fid = none
          ∧ tget 0 t.perf.fix 18 = (tget 0 s.perf.fix 18 + 1) % 2 ^ 48))
     ∧ (∀ (lp : LPort) x u, inboxTake lp.val (isType 4) s = (some x, u) → listening s lp.val = true →
        (let t' := countEv { group := 8, code := 0, inst := 48 + lp.val } 1 (setDefect lp.val 2 false u)
         ∀ r, attr t' clsLport lp.val 0x22 = r → r < 8 → exec (.ptpSegmentReceive lp) s = .next (toRing r {
           port := 48 + lp.val, entry := 0xFF, data := (x.data.drop 4).take (beAt x.data 2 2), time := x.time, ptp := true } t'))))

/-- On a live device, unpaired for the frames dispatched: a released frame whose turn it is and for which a cluster has room is dispatched there. An encrypt frame takes the current slot's next PN, which advances by one, gives up its reservation, and its output is that PN's protection of its bytes under the slot's key and salt; a decrypt frame's output and verdict are those of its slot's key, and no PN moves. Parity in the link RAM, the PN store or the slot's words and a bad line of a VALID slot halt the device with their cause; a slot that is not VALID or not enabled makes the frame NO_SA, a failed check of the key at the cluster KEY_PARITY, parity in its granules CISTERN_PARITY. A frame that must wait for an earlier one of its channel, or for which no cluster has room, stays. An express request at the head of a cluster's queue takes the place of the running request that has the most slots left, which is held with what it has left. A request completes once its last slot has entered its pipeline, and not before: one whose ICV passes is complete with its output in its output granules, and a decrypt frame's PN enters the record of its SA where that is still installed; one that fails is discarded as ICV_FAIL; parity in SA state that it reads halts the device. (Which granules are taken is open, log 6.) -/
def Obligations.RequestsInTheArray : Prop :=
  ∀ s : State, live s = true →
    (let counts (m : Nat) (t : State) : Prop := tget 0 t.perf.fix m = (tget 0 s.perf.fix m + 1) % 2 ^ 48
     let sound : Prop := ∀ n, lineOk (tget {} s.keys.ime n) = true ∨ tget {} s.keys.ime n = {}
     (∀ fid f, paired s = false → frameOf s fid = some f → f.stage = .released →
        (mustWait s f = true → ∀ e w, exec (.requestDispatch fid e w) s = .next s)
        ∧ (mustWait s f = false →
          (f.plain = true → ∀ e w, exec (.requestDispatch fid e w) s = .next (putFrame fid { f with stage := .complete, outp := f.data } s))
          ∧ (f.plain = false → placeFor s f = none → ∀ e w, exec (.requestDispatch fid e w) s = .next s)
          ∧ (f.plain = false → ∀ c, placeFor s f = some c →
              (let n := if f.dir = .enc then curSlot s f.chan else f.slot
               let x := kslotOf s n
               (∀ e w cause, dispatchHalt { f with slot := n } e w s = some cause →
                  ∃ t, exec (.requestDispatch fid e w) s = .next t ∧ t.glb.haltCause = cause ∧ t.traffic.frames = [])
               ∧ (∀ e w, dispatchHalt { f with slot := n } e w s = none → x.state ≠ .valid ∨ x.enabled = false →
                  ∃ t, exec (.requestDispatch fid e w) s = .next t ∧ frameOf t fid = none ∧ counts 16 t)
               ∧ (∀ e w, dispatchHalt { f with slot := n } e w s = none → x.state = .valid → x.enabled = true →
                  (e.bus = true → ∃ t, exec (.requestDispatch fid e w) s = .next t ∧ frameOf t fid = none ∧ counts 22 t ∧ counts 33 t)
                  ∧ (e.bus = false → e.data ≠ [] →
                      ∃ t, exec (.requestDispatch fid e w) s = .next t ∧ frameOf t fid = none ∧ counts 23 t ∧ counts 35 t)
                  ∧ (e.bus = false → e.data = [] → ∃ t g, exec (.requestDispatch fid e w) s = .next t ∧ frameOf t fid = some g
                      ∧ g.stage = .inCluster c ∧ g.slot = n ∧ lineKey g.key = lineKey x.line ∧ counts 53 t
                      ∧ g.outs.length = cdiv g.outp.length 256
                      ∧ (f.dir = .enc → g.pn = pnOf s n ∧ g.outp = protect s f n (pnOf s n) (slotOctets x) x.salt ∧ pnOf t n = pnOf s n + 1
                          ∧ (∀ m, m ≠ n → pnOf t m = pnOf s m)
                          ∧ (chanOf t f.chan).reserved = (chanOf s f.chan).reserved - 1)
                      ∧ (f.dir = .dec → (g.outp, g.pass) = unprotect s f (slotOctets x) x.salt ∧ t.traffic.pns = s.traffic.pns)))))))
     ∧ (∀ c : ClusterNo,
        (let s1 := feedAll c.val s
         (∀ fid rest k v, (clusterOf s1 c.val).queue = fid :: rest → isExpress s1 fid = true → victim s1 c.val = some k →
            (tget {} (clusterOf s1 c.val).pipes k).run = some v → ∃ t, exec (.expressSuspend c) s = .next t ∧ counts 52 t
              ∧ (tget {} (clusterOf t c.val).pipes k).run = some fid ∧ (tget {} (clusterOf t c.val).pipes k).susp = some v
              ∧ (tget {} (clusterOf t c.val).pipes k).suspLeft = pipeLeft s1 (tget {} (clusterOf s1 c.val).pipes k))
         ∧ ((clusterOf s1 c.val).queue = [] → exec (.expressSuspend c) s = .next s1)))
     ∧ (∀ fid f c, frameOf s fid = some f → f.stage = .inCluster c →
        (hasRun s c fid = false → ∀ e, exec (.requestComplete ⟨fid, e⟩) s = .next s)
        ∧ (hasRun s c fid = true →
          (∀ e, e.sa = true → f.dir = .dec → f.pass = true →
              ∃ t, exec (.requestComplete ⟨fid, e⟩) s = .next t ∧ t.glb.haltCause = haltSaState)
          ∧ (f.pass = false → ∀ e, ∃ t, exec (.requestComplete ⟨fid, e⟩) s = .next t ∧ frameOf t fid = none ∧ counts 19 t)
          ∧ (∀ e, e.sa = false ∨ f.dir = .enc → f.pass = true → f.shadow = false → f.doomed = none →
              f.dir = .enc ∨ cattr s f.chan 0x15 ≤ 4096 ∨ (e.ecc = .ok ∧ sound) →
              ∃ t g, exec (.requestComplete ⟨fid, e⟩) s = .next t ∧ frameOf t fid = some g
              ∧ g.stage = .complete ∧ g.outp = f.outp ∧ g.deadline = f.deadline ∧ g.chain = f.outs ∧ g.outs = []
              ∧ (f.dir = .enc → t.traffic.replay = s.traffic.replay)
              ∧ (f.dir = .dec → (kslotOf s f.slot).state = .valid → lineKey (kslotOf s f.slot).line = lineKey f.key →
                  (replayOf t f.slot).high = max (replayOf s f.slot).high f.pn
                  ∧ (replayOf t f.slot).seen = f.pn :: (replayOf s f.slot).seen)))))

/-- On a live device a fault flag, or a handshake that times out, leaves the cluster RETIRED with its domain OFF and no request in it, and counts in fixed counter 41. A spare that replaces a cluster becomes ACTIVE when its test passes and is RETIRED when it fails. A rotation step that is due takes the next cluster not retired: the lowest spare comes up for it, and it is tested once that is ACTIVE; without a free spare, or before the step is due, nothing happens. A test that ends makes the cluster SPARE or RETIRED, ends the step and answers the CL.TEST that began it. CL.TEST of a cluster begins such a step and waits; of a retired one it answers BAD_VALUE, of none BAD_OBJECT, and BUSY while a step is in progress or without a free spare. Rotation resumes by clearing the pause, 1 s after the retirement that stopped it has completed and not before. (That a cluster under test that is a spare itself waits for the lowest spare too is log 126, which the model deduces.) -/
def Obligations.ClustersFailAndRotate : Prop :=
  ∀ s : State, live s = true →
    (let retiredNow (c : Nat) (t : State) : Prop := (clusterOf t c).role = .retired ∧ tget 0 t.perf.fix 41 = (tget 0 s.perf.fix 41 + 1) % 2 ^ 48
     let started (c : Nat) (k : Nat) (t : State) : Prop := (c, k) ∈ t.maint.replacing ∧ t.pmu.clusters = s.pmu.clusters
     (∀ c : ClusterNo,
        ((clusterOf s c.val).role ≠ .retired →
          (∃ t, exec (.clusterFault c) s = .next t ∧ retiredNow c.val t ∧ (domOf t c.val).state = .off
            ∧ (clusterOf t c.val).fault = true ∧ ∀ p ∈ t.traffic.frames, p.2.stage ≠ .inCluster c.val)
          ∧ exec (.handshakeTimeout c) s = exec (.clusterFault c) s)
        ∧ ((clusterOf s c.val).role = .retired → exec (.clusterFault c) s = .next s ∧ exec (.handshakeTimeout c) s = .next s))
     ∧ (∀ k : ClusterNo, domOn s k.val = true → (∃ c, (c, k.val) ∈ s.maint.replacing) → (∀ m, s.maint.rotating ≠ some (k.val, m)) →
        (∃ t, exec (.spareKatDone k true) s = .next t ∧ (clusterOf t k.val).role = .active
          ∧ t.maint.replacing = s.maint.replacing.filter (fun r => r.2 != k.val))
        ∧ (∃ t, exec (.spareKatDone k false) s = .next t ∧ retiredNow k.val t))
     ∧ (s.glb.mode = .service ∨ s.glb.mode = .maintenance → attr s clsDev 0 0x0B ≠ 0 → s.maint.rotating = none → s.maint.paused = false →
        (passed s s.maint.stepAt (rotationNs s) = false → exec .rotationStep s = .next s)
        ∧ (freeSpare s = none → exec .rotationStep s = .next s)
        ∧ (passed s s.maint.stepAt (rotationNs s) = true →
            ∀ k i, freeSpare s = some k → nextCluster s = some i → ∃ t, exec .rotationStep s = .next t
              ∧ t.maint.rotating = some (i % 34, none) ∧ t.maint.nextTest = (i % 34 + 1) % 34 ∧ t.maint.stepAt = s.time.ticks
              ∧ started (i % 34) k t))
     ∧ (∀ (c : ClusterNo) (mb : Option Mb), s.maint.rotating = some (c.val, mb) → (clusterOf s c.val).role = .test →
        (∀ m, mb = some m → (mbxOf s m.val).orphan = false) →
        (∃ t, exec (.clusterTestDone c true) s = .next t ∧ (clusterOf t c.val).role = .spare ∧ t.maint.rotating = none
          ∧ (∀ m, mb = some m → (mbxOf t m.val).answer = some { status := .ok, body := [0, 0, 0, 0] }))
        ∧ (∃ t, exec (.clusterTestDone c false) s = .next t ∧ retiredNow c.val t ∧ t.maint.rotating = none
          ∧ (∀ m, mb = some m → (mbxOf t m.val).answer = some { status := .ok, body := [1, 0, 0, 0] })))
     ∧ exec .rotationResume s = .next (
         if s.maint.replacing.any (fun r => (clusterOf s r.1).role == .retired) = false ∧ passed s s.maint.retiredAt (10 ^ 9) = true then
           { s with maint := { s.maint with paused := false } } else s)
     ∧ (∀ (mb : Mb) (w : World) (c : Nat), MayRun [.officer, .operator] [.provision, .service, .maintenance] mb w s →
        (let u := begun mb.val s
         (34 ≤ c → exec (.clTest mb c) s = .next (answer mb.val (.badObject, []) u))
         ∧ (c < 34 → (clusterOf u c).role = .retired → exec (.clTest mb c) s = .next (answer mb.val (.badValue, []) u))
         ∧ (c < 34 → (clusterOf u c).role ≠ .retired → u.maint.rotating ≠ none ∨ freeSpare u = none →
             exec (.clTest mb c) s = .next (answer mb.val (.busy, []) u))
         ∧ (c < 34 → (clusterOf u c).role ≠ .retired → u.maint.rotating = none → ∀ k, freeSpare u = some k →
             ∃ t, exec (.clTest mb c) s = .next t ∧ t.maint.rotating = some (c, some mb)
               ∧ (mbxOf t mb.val).answer = (mbxOf u mb.val).answer ∧ started c k t))))

/-- On a live device, once the gates of the port stand at the present instant: the Pump releases a queued express frame of the port at once, else an eligible Assured frame or the management frame of less tag while the array and port limits allow it, each in the order of release, and discards with DEADLINE one that can no longer be in time. The frame that R209 picks on a standard port is sent with its FCS, or with an inverted one on a parity error, and on a sealed port stands last at the Wellhead with its bytes, zeros from its first granule in error; it is then no frame of the port; parity in the link RAM halts the device. A launch frame held at the head of the queue is sent at its instant with its time-stamp point at the ball from L to below L + 2 ns (the place within is a free value, log 2), and one that is late under DROP is lost as LAUNCH_LATE. A gate entry sets the port's gates to those of the entry that time stands in and its MAC hold; at S the banks of a gate list swap, and not before. A spilling frame goes to the spill area and its bytes count in fixed counter 60; the first spilled frame of a channel comes back where there is room. A granule that passes its test leaves quarantine, one that fails is held, with a DEGRADE fault at the limit. A link that comes up is up; one that goes down leaves no waiting frame of its port, and dooms those in the array. -/
def Obligations.EgressAndRelease : Prop :=
  ∀ s : State, live s = true →
    (let counts (m : Nat) (t : State) : Prop := tget 0 t.perf.fix m = (tget 0 s.perf.fix m + 1) % 2 ^ 48
     let sound : Prop := ∀ n, lineOk (tget {} s.keys.ime n) = true ∨ tget {} s.keys.ime n = {}
     let sent (fid : Nat) (t : State) : Prop := frameOf t fid = none
     (∀ q : Port, (let u := gateTurn q.val s
        let express := u.traffic.frames.find? (fun p => p.2.egress == q.val && p.2.tc == 7 && !p.2.shadow && p.2.stage == .queued)
        let assured := leastTag ((heads u q.val 1).filter (fun p => eligible u p.2))
        (∀ fid f, express = some (fid, f)
           ∨ (express = none ∧ mayRelease u q.val = true ∧ assured = some (fid, f)
              ∧ (∀ m, mgmtHead u q.val = some m → f.tag ≤ m.tag)) →
          (tooLate u f (leastPath u f) = true → ∃ t, exec (.pumpRelease q) s = .next t ∧ sent fid t ∧ (frameOf u fid ≠ none → counts 12 t))
          ∧ (tooLate u f (leastPath u f) = false → ∃ t, exec (.pumpRelease q) s = .next t ∧ t.traffic.releases = u.traffic.releases + 1
              ∧ frameOf t fid = some { f with stage := .released, released := u.traffic.releases } ∧ Only [.traffic] u t))
        ∧ (∀ m, express = none → mayRelease u q.val = true → mgmtHead u q.val = some m → (∀ p, assured = some p → m.tag < p.2.tag) →
            ∃ t, exec (.pumpRelease q) s = .next t ∧ t.traffic.releases = u.traffic.releases + 1 ∧ t.traffic.frames = u.traffic.frames
              ∧ (portOf t q.val).mgmt = markReleased u.traffic.releases (portOf u q.val).mgmt ∧ Only [.traffic] u t)
        ∧ (express = none → mayRelease u q.val = false → exec (.pumpRelease q) s = .next u)))
     ∧ (∀ (q : Port) fid f (e : Errs), frameOf s fid = some f →
        (sealedQ s q.val = false → sends s q.val = true → (let u := gateTurn q.val s
          candidate u q.val 0 (fun g => (mediumFree u q.val || mayCut u q.val g.tc)
            && gateAllows u q.val g.tc (8 * (g.ebytes - 12 : Rat) / speedGb u q.val)
            && launchAllows u q.val g.tc (airNs u q.val g.ebytes)) = some (fid, f) →
          (tooLate u f (8 * (f.ebytes - 12 : Rat) / speedGb u q.val) = true → ∃ t, exec (.transmitStart q e) s = .next t
            ∧ sent fid t ∧ counts 12 t ∧ t.out = s.out)
          ∧ (tooLate u f (8 * (f.ebytes - 12 : Rat) / speedGb u q.val) = false →
            (e.link = true → ∃ t, exec (.transmitStart q e) s = .next t ∧ t.glb.haltCause = haltLinkRam)
            ∧ (e.link = false → e.data = [] → ∃ t, exec (.transmitStart q e) s = .next t ∧ sent fid t ∧ t.out = .frame q.val f.outp false :: s.out)
            ∧ (e.link = false → e.data ≠ [] → ∃ t, exec (.transmitStart q e) s = .next t ∧ sent fid t
                ∧ t.out = .frame q.val f.outp true :: s.out ∧ counts 23 t))))
        ∧ (sealedQ s q.val = true → adminUp s q.val = true → sending s (q.val - 48) = true → lanesOn s q.val = true →
          candidate s q.val 0 (fun _ => true) = some (fid, f) →
          (tooLate s f (cellsNs s q.val f.outp.length) = true → ∃ t, exec (.transmitStart q e) s = .next t ∧ sent fid t ∧ counts 12 t)
          ∧ (tooLate s f (cellsNs s q.val f.outp.length) = false → e.link = true →
              ∃ t, exec (.transmitStart q e) s = .next t ∧ t.glb.haltCause = haltLinkRam)
          ∧ (tooLate s f (cellsNs s q.val f.outp.length) = false → e.link = false →
              ∃ t g, exec (.transmitStart q e) s = .next t ∧ sent fid t ∧ (whOf t (q.val - 48)).tx.segs = (whOf s (q.val - 48)).tx.segs ++ [g]
                ∧ g.chan = f.chan ∧ g.opened = false ∧ g.deadline = f.deadline ∧ g.released = f.released
                ∧ (e.data = [] → g.data = f.outp)
                ∧ (∀ i, e.data.min? = some i → g.data = f.outp.take (256 * i) ++ zeros (f.outp.length - 256 * i) ∧ counts 23 t))))
     ∧ (∀ (q : Port) (m : MgmtFrame) l (e : Errs), (let u := gateTurn q.val s
        (portOf u q.val).mgmt = [m] → m.launch = some l → (portOf u q.val).launchHeld = true →
        sends u q.val = true → launchNs l ≤ netNs u + 1 → m.ring = none → mediumFree u q.val = true →
        (launchIsLate u q.val m (launchNs l) 0 = false → e.link = false →
          ∃ t, exec (.launch ⟨q, e⟩) s = .next t ∧ t.out = .frame q.val m.data (!e.data.isEmpty) :: s.out ∧ (portOf t q.val).mgmt = []
            ∧ (portOf t q.val).launchHeld = false
            ∧ (e.data ≠ [] → counts 23 t)
            ∧ (∀ i, e.data = [] → m.ident = some i → (tsqOf u q.val).entries.length < 16 → netNs u ≤ launchNs l + 1 →
                ∃ d : BitVec 33, (tsqOf t q.val).entries = (tsqOf u q.val).entries
                  ++ [{ ident := i, time := txStamp u q.val (({ sec := l.1, sub := l.2 * 2 ^ 32 } : Stamp).shift
                        ((d.toNat : Int) - ((portCorr u q.val).1 * 2 ^ 32 / 10 : Nat))) }]))
        ∧ (launchIsLate u q.val m (launchNs l) 0 = true → pattr u q.val 0x0F ≠ 1 →
          ∃ t, exec (.launch ⟨q, e⟩) s = .next t ∧ (portOf t q.val).mgmt = [] ∧ counts 26 t ∧ t.out = s.out)))
     ∧ (∀ q : Port,
        (∀ w b, (∀ at_, (gateOf s q.val).pending = some at_ → netNs s < at_) →
          entryAt (gatePos (gateOf s q.val) (netNs s)) 0 (gateOf s q.val).oper = some (w, b) → ∃ t, exec (.gateEntry q) s = .next t
          ∧ (portOf t q.val).gates = BitVec.ofNat 8 (entryGates w) ∧ (gateOf t q.val).cur = some b
          ∧ Only [.traffic, .perf] s t ∧ t.traffic.frames = s.traffic.frames
          ∧ (preemptOn s q.val = true → (gateOf s q.val).cur ≠ some b → (portOf t q.val).hold
              = (if entryOp w = 1 then true else if entryOp w = 2 then false else (portOf s q.val).hold)))
        ∧ (∀ at_, (gateOf s q.val).pending = some at_ → at_ ≤ netNs s → ∃ t, exec (.gateSwap q) s = .next t
          ∧ exec (.gateEntry q) s = .next t
          ∧ (gateOf t q.val).oper = (gateOf s q.val).admin ∧ (gateOf t q.val).cycle = (gateOf s q.val).adminCycle
          ∧ (gateOf t q.val).start = at_ ∧ (gateOf t q.val).pending = none
          ∧ (gateOf t q.val).admin = (gateOf s q.val).oper ∧ (gateOf t q.val).adminCycle = (gateOf s q.val).cycle
          ∧ Only [.traffic, .perf] s t)
        ∧ (∀ at_, (gateOf s q.val).pending = some at_ → netNs s < at_ → exec (.gateSwap q) s = .next s)
        ∧ ((s.glb.mode = .provision ∨ s.glb.mode = .service ∨ s.glb.mode = .maintenance) → adminUp s q.val = true → lanesOn s q.val = true →
          fusedQ s q.val = false → exec (.linkUp q) s = .next (setPort q.val { portOf s q.val with link := true } s))
        ∧ (∃ t, exec (.linkDown q) s = .next t
          ∧ (portOf t q.val).link = false ∧ (portOf t q.val).preemptOper = false ∧ (portOf t q.val).hold = false
          ∧ (sealedQ s q.val = true → (whOf t (q.val - 48)).tx.segs = [])
          ∧ (∀ p ∈ t.traffic.frames, p.2.egress = q.val → p.2.shadow = false →
              p.2.doomed = some (if portPowered s q.val then .linkDown else .portOff) ∧ atPort q.val p.2 = false))
        ∧ (∀ ok, sealedQ s q.val = false → pattr s q.val 5 ≠ 0 → (portOf s q.val).link = true → ∃ t, exec (.preemptVerify q ok) s = .next t
          ∧ (portOf t q.val).preemptOper = ok ∧ (portOf t q.val).hold = ((portOf s q.val).hold && ok) ∧ Only [.traffic, .perf] s t))
     ∧ (∀ fid f (e : Errs), frameOf s fid = some f → f.stage = .spilling →
        (e.link = true → ∃ t, exec (.spillWrite fid e) s = .next t ∧ t.glb.haltCause = haltLinkRam)
        ∧ (e.link = false → e.data ≠ [] → ∃ t, exec (.spillWrite fid e) s = .next t ∧ sent fid t ∧ counts 23 t)
        ∧ (e.link = false → e.data = [] → sound → e.ecc = .ok ∨ (∃ k, e.ecc = .corrected k) →
            ∃ t l, exec (.spillWrite fid e) s = .next t ∧ frameOf t fid = some { f with stage := .spilled, chain := [], lines := l }
              ∧ l.length = cdiv f.data.length 64
              ∧ tget 0 t.perf.fix 60 = (tget 0 s.perf.fix 60 + f.data.length) % 2 ^ 48)
        ∧ (e.link = false → e.data = [] → sound → e.ecc = .uncorrectable → f.data ≠ [] →
            ∃ t, exec (.spillWrite fid e) s = .next t ∧ t.glb.haltCause = haltReservoir))
     ∧ (∀ c d fid f e, s.traffic.frames.find? (fun p => p.2.chan == c && p.2.dir == d && p.2.spill) = some (fid, f) →
        (f.stage = .spilled → cisternBytes s c d < 32768 → granules f ≤ sharedFree s → sound → e = .ok →
          ∃ t g, exec (.spillReturn c ⟨d, e⟩) s = .next t
          ∧ frameOf t fid = some g ∧ g.stage = .queued ∧ g.spill = false ∧ g.shared = true)
        ∧ (f.stage ≠ .spilled ∨ 32768 ≤ cisternBytes s c d ∨ sharedFree s < granules f → exec (.spillReturn c ⟨d, e⟩) s = .next s))
     ∧ (∀ g,
        (g ∈ s.mem.quarantine → exec (.quarantineTest g true) s
            = .next { s with mem := { s.mem with quarantine := s.mem.quarantine.filter (fun x => x != g) } }
          ∧ ∃ t, exec (.quarantineTest g false) s = .next t ∧ g ∉ t.mem.quarantine ∧ t.mem.heldGranules = s.mem.heldGranules ++ [g]
            ∧ (attr s clsDev 0 9 ≤ s.mem.heldGranules.length + 1 → t.maint.degrade.getLsbD 1 = true))
        ∧ (g ∉ s.mem.quarantine → ∀ ok, exec (.quarantineTest g ok) s = .next s)))

/-- An access of at most 256 bytes within a 256-byte block by a master that is not closed, not held, with the key lines of inline memory sound: a read that passes the checks gives the bytes as the key of its colour reads them and leaves memory; a write that passes leaves exactly those bytes, read under that colour, and every other byte reads under it as before; a refused one reads zeros, raises EV_MPU_FAULT and, with the event ring stopped, changes no byte and captures itself where nothing is captured; an uncorrectable error of a passing Reservoir access halts, as does parity of its IME state. During a hold accesses wait in order of arrival, and the end of the last hold serves them all. With the PCIe link up a data-port request does the same at the address of DP_ADDR, which auto-increment moves on, writes only its enabled bytes, and after a failure reads zeros and writes nothing; disabled, it reads zeros. Gydom's own hold changes regions 4 to 11 alone. -/
def Obligations.MemoryAccesses : Prop :=
  ∀ s : State, asleep s = false →
    (let sound : Prop := ∀ n, lineOk (tget {} s.keys.ime n) = true ∨ tget {} s.keys.ime n = {}
     let quiet (e : Ecc) : Prop := (ringOf s 16).en = false ∨ (e = .ok ∧ sound)
     let same (t : State) : Prop := t.mem.bytes = s.mem.bytes ∧ t.mem.lines = s.mem.lines
     let faulted (m col a : Nat) (w : Bool) (c : Nat) (t : State) : Prop := t.irq.cause.getLsbD 0x0E = true
       ∧ ((ringOf s 16).en = false → same t ∧ (s.mem.fault = none → t.mem.fault = some (a % 2 ^ 40, m, col, w, c)))
     (∀ (a : Access) (e : Ecc), (wellCut a = false ∨ closedMaster s a.master = true → exec (.masterAccess a e) s = .next s)
        ∧ (wellCut a = true → closedMaster s a.master = false → heldBack s a = true → exec (.masterAccess a e) s
            = .next { s with mem := { s.mem with waiting := s.mem.waiting ++ [(s.time.ticks, .access a e)] } }))
     ∧ (∀ a : Access, wellCut a = true → closedMaster s a.master = false → heldBack s a = false →
        (let col := accessColour a
         let c := checkCause s a.master col a.addr a.write.isSome
         (c = 0 → sound → a.write = none → ∃ t, exec (.masterAccess a .ok) s = .next t ∧ Only [.mem, .perf, .rng, .out] s t ∧ same t
            ∧ t.out = .master a.master (memRead s col a.addr a.len) :: s.out)
         ∧ (c = 0 → sound → ∀ d, a.write = some d → ∃ t, exec (.masterAccess a .ok) s = .next t ∧ Only [.mem, .perf, .rng] s t
            ∧ (∀ b, a.addr ≤ b → b < a.addr + d.length → memByte t col b = nth 0 d (b - a.addr))
            ∧ (∀ b, b < a.addr ∨ a.addr + d.length ≤ b → memByte t col b = memByte s col b))
         ∧ (c ≠ 0 → ∀ e, quiet e → ∃ t, exec (.masterAccess a e) s = .next t ∧ faulted a.master col a.addr a.write.isSome c t
            ∧ (a.write = none → ∃ o, t.out = .master a.master (zeros a.len) :: o))
         ∧ (c = 0 → sound → isRes a.addr = true → exec (.masterAccess a .uncorrectable) s = .next (halt haltReservoir s)
            ∧ exec (.masterAccess a .imeState) s = .next (halt haltSaState s))))
     ∧ (pcieUp s = true → ∀ o n : Nat, o + n ≤ 2 ^ 20 → ∀ e,
        (s.dp.en = false → exec (.dpWindowRead o ⟨n, e⟩) s = .next { s with out := .read (zeros n) :: s.out }
          ∧ ∀ d, d.length = n → exec (.dpWindowWrite o ⟨d, e⟩) s = .next s)
        ∧ (s.dp.en = true → 1 ≤ n →
          (let a := if s.dp.inc then s.dp.addr else s.dp.addr + o
           let on : Dp := { s.dp with addr := if s.dp.inc then (s.dp.addr + n) % 2 ^ 40 else s.dp.addr }
           let col := s.dp.colour
           (holding s = true → (∃ t, exec (.dpWindowRead o ⟨n, e⟩) s = .next t ∧ t.dp = on
                ∧ t.mem.waiting = s.mem.waiting ++ [(s.time.ticks, .dpRead a n col (dpWorld s) e)])
              ∧ ∀ d, d.length = n → ∃ t, exec (.dpWindowWrite o ⟨d, e⟩) s = .next t ∧ t.dp = on
                ∧ t.mem.waiting = s.mem.waiting ++ [(s.time.ticks, .dpWrite a d col (dpWorld s) e)])
           ∧ (holding s = false → a % 256 + n ≤ 256 → a < 2 ^ 40 →
           (s.dp.err = true → (∃ t, exec (.dpWindowRead o ⟨n, e⟩) s = .next t ∧ t.out = .read (zeros n) :: s.out ∧ t.dp = on ∧ t.mem = s.mem)
              ∧ ∀ d, d.length = n → ∃ t, exec (.dpWindowWrite o ⟨d, e⟩) s = .next t ∧ t.dp = on ∧ t.mem = s.mem)
           ∧ (s.dp.err = false →
              (checkCause s mDp col a false = 0 → e = .ok → sound →
                ∃ t, exec (.dpWindowRead o ⟨n, e⟩) s = .next t ∧ t.out = .read (memRead s col a n) :: s.out
                  ∧ t.dp = on ∧ Only [.dp, .mem, .perf, .rng, .out] s t ∧ same t)
              ∧ (∀ c, checkCause s mDp col a false = c → c ≠ 0 → quiet e → ∃ t p, exec (.dpWindowRead o ⟨n, e⟩) s = .next t
                ∧ t.out = .read (zeros n) :: p ∧ t.dp = { on with err := true, cause := c, errAddr := a } ∧ faulted mDp col a false c t)
              ∧ (∀ d, d.length = n → checkCause s mDp col a true = 0 → e = .ok → sound → ∃ t, exec (.dpWindowWrite o ⟨d, e⟩) s = .next t
                ∧ t.dp = on ∧ Only [.dp, .mem, .perf, .rng] s t
                ∧ (∀ b, a ≤ b → b < a + n → memByte t col b = (nth none d (b - a)).getD (memByte s col b))
                ∧ (∀ b, b < a ∨ a + n ≤ b → memByte t col b = memByte s col b))
              ∧ (∀ d c, d.length = n → checkCause s mDp col a true = c → c ≠ 0 → quiet e → ∃ t, exec (.dpWindowWrite o ⟨d, e⟩) s = .next t
                ∧ t.dp = { on with err := true, cause := c, errAddr := a } ∧ faulted mDp col a true c t))))))
     ∧ (pcieUp s = true → exec (.mpuHold (some .pf0)) s = .next { s with mem := { s.mem with
          mpuEn := false, holdAt := if s.mem.mpuEn = true ∧ s.mem.gydomHold = false then some s.time.ticks else s.mem.holdAt } })
     ∧ (halted s = false → exec (.mpuHold none) s = .next { s with mem := { s.mem with
          gydomHold := true, holdAt := if s.mem.mpuEn = true ∧ s.mem.gydomHold = false then some s.time.ticks else s.mem.holdAt } })
     ∧ exec (.mpuHold (some .pf1)) s = .next s ∧ exec (.mpuRelease (.host .pf1)) s = .next s
     ∧ (holding s = true → exec .mpuDrained s = .next { s with mem := { s.mem with held := true } })
     ∧ (∀ t0, holding s = true → s.mem.holdAt = some t0 → t0 + 200000 ≤ s.time.ticks → ∃ t, exec .mpuHoldLong s = .next t
          ∧ t.mem.holdLong = true ∧ t.mem.holdAt = none ∧ t.irq.cause.getLsbD 0x0E = true ∧ same t)
     ∧ ((∀ t0, s.mem.holdAt = some t0 → holding s = false ∨ s.time.ticks < t0 + 200000) → exec .mpuHoldLong s = .next s)
     ∧ (holding s = false → exec .mpuDrained s = .next s)
     ∧ (pcieUp s = true → s.mem.gydomHold = false → ∃ t, exec (.mpuRelease (.host .pf0)) s = .next t ∧ t.mem.mpuEn = true ∧ t.mem.held = false
        ∧ t.mem.waiting = [] ∧ t.mem.overlap = findOverlap s)
     ∧ (pcieUp s = true → s.mem.gydomHold = true → exec (.mpuRelease (.host .pf0)) s
        = .next { s with mem := { s.mem with mpuEn := true, overlap := findOverlap s } })
     ∧ (halted s = false → s.mem.gydomHold = true → ∀ l, ∃ t, exec (.mpuRelease (.gydom l)) s = .next t ∧ t.mem.gydomHold = false
        ∧ (s.mem.mpuEn = true → t.mem.waiting = [] ∧ t.mem.held = false)
        ∧ (∀ n, n < 4 ∨ 12 ≤ n ∨ s.mem.held = false → region t n = region s n)
        ∧ (∀ x : RegionSet, l = [x] → s.mem.held = true → 4 ≤ x.n → x.n < 12 →
            (let r : Region := { lo := x.lo &&& 0xFFFFF000, hi := x.hi &&& 0xFF, attr := x.attr &&& 0xEFDFFFFF }
             (inWindow r = false → region t x.n = r) ∧ (inWindow r = true → region t x.n = region s x.n)))))

/-- A request of the host for an index 8 to 63 that is not being swept sets its pending bit, and any other only the register's index; Gydom's sets the bit of any index from 1. The lowest pending index whose generations are both there starts the next sweep: toward the other generation, over the lines of its regions, with its counter zeroed. One line of a sweep that the checker passes reads under the index after it as it did before, encrypted under the other generation's key, and other lines are untouched; a refused line is passed over with EV_MPU_FAULT; an uncorrectable error halts; during a hold of the checker the line of an index other than 3 and 4 waits. With no line left the index uses the target generation, EV_SWEEP_DONE is raised, and the key of the one it left is destroyed and drawn anew, at once or after a held entropy failure. IME_CE_CLEAR zeroes the corrected-error counts. -/
def Obligations.InlineMemorySweeps : Prop :=
  ∀ s : State, asleep s = false →
    (let sound : Prop := ∀ n, lineOk (tget {} s.keys.ime n) = true ∨ tget {} s.keys.ime n = {}
     let same (t : State) : Prop := t.mem.bytes = s.mem.bytes ∧ t.mem.lines = s.mem.lines
     (∀ n : Nat,
        (let k := n % 64
         let s' : State := { s with mem := { s.mem with sweepIndex := k } }
         let pending (u : State) : State := { u with mem := { u.mem with pendingSweep := s.mem.pendingSweep ||| ((1 : W64) <<< k) } }
         exec (.imeSweepRequest (some .pf1) n) s = .next s
         ∧ (pcieUp s = true →
            (k < 8 ∨ (∃ w, s.mem.sweep = some w ∧ w.index = k) → exec (.imeSweepRequest (some .pf0) n) s = .next s')
            ∧ (8 ≤ k → (∀ w, s.mem.sweep = some w → w.index ≠ k) → exec (.imeSweepRequest (some .pf0) n) s = .next (pending s')))
         ∧ (halted s = false → 1 ≤ k → (∀ w, s.mem.sweep = some w → w.index ≠ k) →
            exec (.imeSweepRequest none n) s = .next (pending s))))
     ∧ (∀ w, s.mem.sweep = some w → exec .imeSweepStart s = .next s)
     ∧ (s.mem.sweep = none → (∀ k, 1 ≤ k → k < 64 → s.mem.pendingSweep.getLsbD k = false ∨ renewing s k = true) →
        exec .imeSweepStart s = .next s)
     ∧ (s.mem.sweep = none → ∀ k, 1 ≤ k → k < 64 → s.mem.pendingSweep.getLsbD k = true → renewing s k = false →
        (∀ j, 1 ≤ j → j < k → s.mem.pendingSweep.getLsbD j = false ∨ renewing s j = true) →
        ∃ t, exec .imeSweepStart s = .next t ∧ Only [.mem] s t
          ∧ (∃ w, t.mem.sweep = some w ∧ w.index = k ∧ w.ranges = sweepRanges s k ∧ w.target = !(imeKey s k).gen)
          ∧ t.mem.pendingSweep.getLsbD k = false ∧ (∀ j, j ≠ k → t.mem.pendingSweep.getLsbD j = s.mem.pendingSweep.getLsbD j)
          ∧ imeKey t k = { imeKey s k with wcnt := 0 } ∧ (∀ j, j ≠ k → imeKey t j = imeKey s j) ∧ same t)
     ∧ (∀ w a, s.mem.sweep = some w → nextLine w.ranges w.ptr = some a → a % 64 = 0 →
        (w.index = 3 ∨ w.index = 4 ∨ holding s = false ∧ checkCause s mSweep w.index a false = 0 → isRes a = true → sound →
          (∃ t, exec (.imeSweepLine .ok) s = .next t
            ∧ t.mem.sweep = some { w with ptr := (nextLine w.ranges (a + 64)).getD (a + 64) }
            ∧ (∀ b, b / 64 = a / 64 → memByte t w.index b = memByte s w.index b)
            ∧ (∀ b, b / 64 ≠ a / 64 → tget 0 t.mem.bytes b = tget 0 s.mem.bytes b
                ∧ tget none t.mem.lines (b / 64) = tget none s.mem.lines (b / 64))
            ∧ tget none t.mem.lines (a / 64) = some (lineVal (tget {} s.keys.ime (2 * w.index + b01 w.target)))
            ∧ t.keys = s.keys ∧ t.mem.imeK = s.mem.imeK)
          ∧ exec (.imeSweepLine .uncorrectable) s = .next (halt haltReservoir s))
        ∧ (w.index ≠ 3 → w.index ≠ 4 → holding s = true → ∀ e, exec (.imeSweepLine e) s = .next s)
        ∧ (w.index ≠ 3 → w.index ≠ 4 → holding s = false → checkCause s mSweep w.index a false ≠ 0 →
          ∀ e, (ringOf s 16).en = false ∨ (e = .ok ∧ sound) → ∃ t, exec (.imeSweepLine e) s = .next t
          ∧ t.mem.sweep = some { w with ptr := (nextLine w.ranges (a + 64)).getD (a + 64) } ∧ t.irq.cause.getLsbD 0x0E = true
          ∧ ((ringOf s 16).en = false → same t)))
     ∧ (∀ w a, s.mem.sweep = some w → nextLine w.ranges w.ptr = some a → exec .imeSweepDone s = .next s)
     ∧ (∀ w, s.mem.sweep = some w → nextLine w.ranges w.ptr = none → ∃ t, exec .imeSweepDone s = .next t ∧ t.mem.sweep = none
        ∧ (imeKey t w.index).gen = w.target ∧ t.irq.cause.getLsbD 0x0F = true
        ∧ (s.keys.entropyHeld = false → s.keys.line = none → ∃ r,
            tget {} t.keys.ime (2 * w.index + b01 (!w.target)) = mkLine (Config.drbg r 512) (Config.drbg (r + 1) 512))
        ∧ (s.keys.entropyHeld = true → tget {} t.keys.ime (2 * w.index + b01 (!w.target)) = {}
            ∧ .imeKey w.index (!w.target) ∈ t.keys.deferred)
        ∧ tget {} t.keys.ime (2 * w.index + b01 w.target) = tget {} s.keys.ime (2 * w.index + b01 w.target))
     ∧ (s.mem.sweep = none → exec .imeSweepDone s = .next s ∧ ∀ e, exec (.imeSweepLine e) s = .next s)
     ∧ (pcieUp s = true → exec (.imeCeClear .pf0) s = .next { s with mem := { s.mem with ce0 := 0, ce1 := 0 } })
     ∧ exec (.imeCeClear .pf1) s = .next s)

/-- A completed zeroization ends the destruction line, records ZEROIZED with its source in the Standpipe log, raises EV_ZEROIZE and halts with cause 8; a lockstep mismatch halts with cause 1. A mask generator whose last reseed lies 1 ms back, in a tick in which no other takes one, is seeded anew, and not otherwise; a DRBG reseed draws and notes its tick; the DRBG takes none while a failure is held. An entropy failure halts with cause 7 under the HALT setting, and otherwise is held: of an unpaired device degrade condition 3 is in force, counted and raised; its hold that has lasted entropy_hold_ms halts, and a recovery clears failure and condition and does what was put off. A line re-shared holds the same value under new shares that pass their CRC, with the rest of its slot as it was; a line that fails its CRC halts with cause 2, or makes a general slot INVALID. The DRK's bank, due after 1 s, is re-shared into the other bank, which is selected where it verifies. (That two clusters never reseed in one tick is log 104, the model's choice.) -/
def Obligations.EntropyAndMasks : Prop :=
  ∀ s : State, asleep s = false →
    (let dies (c : Nat) (t : State) : Prop := t.glb.haltCause = c ∧ t.glb.haltTick = s.time.ticks ∧ t.traffic.frames = []
       ∧ t.irq.cause.getLsbD 0 = true
     (s.keys.line = none → exec .zeroizeComplete s = .next s)
     ∧ (halted s = false →
        (∀ src, s.keys.line = some src → ∃ t r, exec .zeroizeComplete s = .next t ∧ t.keys = { s.keys with line := none } ∧ dies 8 t
          ∧ t.irq.cause.getLsbD 1 = true ∧ t.stp.log.getLast? = some r ∧ r.kind = 0x10 ∧ r.detail = src ∧ r.seq = s.stp.nextSeq)
        ∧ (∃ t, exec .lockstepMismatch s = .next t ∧ dies 1 t)
        ∧ (s.keys.entropyHeld = false → attr s clsDev 0 3 = 0 → ∃ t, exec .entropyFail s = .next t ∧ dies 7 t ∧ t.keys.entropyBad = true)
        ∧ (s.keys.entropyHeld = false → attr s clsDev 0 3 ≠ 0 → paired s = false → ∃ t, exec .entropyFail s = .next t
          ∧ t.keys.entropyHeld = true ∧ t.keys.heldSince = s.time.ticks
          ∧ t.keys.entropyBad = true ∧ t.maint.degrade = s.maint.degrade ||| 8 ∧ t.glb.haltCause = 0 ∧ t.irq.cause.getLsbD 4 = true
          ∧ tget 0 t.perf.fix 42 = (tget 0 s.perf.fix 42 + 1) % 2 ^ 48)
        ∧ (s.keys.entropyHeld = true → exec .entropyFail s = .next s
          ∧ (s.keys.heldSince + attr s clsDev 0 4 * 1000000 ≤ s.time.ticks → ∃ t, exec .entropyHoldExpire s = .next t ∧ dies 7 t)
          ∧ (s.time.ticks < s.keys.heldSince + attr s clsDev 0 4 * 1000000 → exec .entropyHoldExpire s = .next s)
          ∧ (paired s = false → s.keys.deferred = [] → ∃ t, exec .entropyRecover s = .next t
              ∧ t.keys = { s.keys with entropyBad := false, entropyHeld := false, deferred := [], reseeded := s.time.ticks }
              ∧ t.maint.degrade = s.maint.degrade &&& 7)
          ∧ (∀ k g, paired s = false → s.keys.deferred = [.imeKey k g] → s.keys.line = none → ∃ t, exec .entropyRecover s = .next t
              ∧ t.keys.entropyHeld = false
              ∧ tget {} t.keys.ime (2 * k + b01 g) = mkLine (Config.drbg s.rng 512) (Config.drbg (s.rng + 1) 512)))
        ∧ (s.keys.entropyHeld = false → exec .entropyHoldExpire s = .next s ∧ exec .entropyRecover s = .next s)
        ∧ (∀ i, i < 65536 → (kslotOf s i).line ≠ {} → lineOk (kslotOf s i).line = false → ∃ t, exec (.remaskLine .chan i) s = .next t ∧ dies 2 t)
        ∧ (∀ i, i < 1024 → (gslotOf s i).line ≠ {} → lineOk (gslotOf s i).line = false → ∃ t, exec (.remaskLine .general i) s = .next t
          ∧ (gslotOf t i).state = .invalid ∧ (gslotOf t i).line = {} ∧ t.glb = s.glb
          ∧ tget 0 t.perf.fix 34 = (tget 0 s.perf.fix 34 + 1) % 2 ^ 48))
     ∧ (∀ c : ClusterNo,
        (let taken := s.pmu.clusters.any (fun x => x.2.reseeded == s.time.ticks && decide (x.1 < 34))
         (taken = false → (clusterOf s c.val).reseeded + 1000000 ≤ s.time.ticks →
            ∃ t, exec (.maskReseed c) s = .next t ∧ t.rng = s.rng + 1 ∧ Only [.rng, .pmu] s t
              ∧ clusterOf t c.val
                  = { clusterOf s c.val with reseeded := s.time.ticks, maskSeed := Config.drbg s.rng 256, maskWords := 0 }
              ∧ (∀ k, k ≠ c.val → clusterOf t k = clusterOf s k))
         ∧ (taken = true ∨ s.time.ticks < (clusterOf s c.val).reseeded + 1000000 → exec (.maskReseed c) s = .next s)))
     ∧ (s.keys.entropyHeld = false → exec .drbgReseed s
        = .next { s with rng := s.rng + 1, keys := { s.keys with reseeded := s.time.ticks } })
     ∧ (s.keys.entropyHeld = true → exec .drbgReseed s = .next s)
     ∧ (∀ i, i < 65536 → lineOk (kslotOf s i).line = true → ∃ t, exec (.remaskLine .chan i) s = .next t
        ∧ kslotOf t i = { kslotOf s i with line := (kslotOf t i).line } ∧ (∀ n, n ≠ i → kslotOf t n = kslotOf s n)
        ∧ lineVal (kslotOf t i).line = lineVal (kslotOf s i).line
        ∧ ((kslotOf s i).line ≠ {} → lineOk (kslotOf t i).line = true ∧ (kslotOf t i).line.s1 = (kslotOf s i).line.s1 ^^^ Config.drbg s.rng 512)
        ∧ Only [.keys, .perf, .rng] s t)
     ∧ (∀ i, i < 1024 → lineOk (gslotOf s i).line = true → ∃ t, exec (.remaskLine .general i) s = .next t
        ∧ gslotOf t i = { gslotOf s i with line := (gslotOf t i).line } ∧ (∀ n, n ≠ i → gslotOf t n = gslotOf s n)
        ∧ lineVal (gslotOf t i).line = lineVal (gslotOf s i).line ∧ Only [.keys, .perf, .rng] s t)
     ∧ (∀ i, i < 128 → lineOk (tget {} s.keys.ime i) = true → ∃ t, exec (.remaskLine .ime i) s = .next t
        ∧ lineVal (tget {} t.keys.ime i) = lineVal (tget {} s.keys.ime i) ∧ Only [.keys, .perf, .rng] s t)
     ∧ (∀ i, i < spaceSize .internal → lineOk (tget {} s.keys.internal i) = true → ∃ t, exec (.remaskLine .internal i) s = .next t
        ∧ lineVal (tget {} t.keys.internal i) = lineVal (tget {} s.keys.internal i) ∧ Only [.keys, .perf, .rng] s t)
     ∧ (∀ b, activeBank s = some b → s.keys.line = none → s.keys.drkAt + 10 ^ 9 ≤ s.time.ticks → drkCheck b.drk = b.check →
        ∃ t c, exec .drkRemask s = .next t ∧ t.stp.bankSelB = !s.stp.bankSelB ∧ activeBank t = some c
        ∧ c.drk = b.drk ∧ c.check = b.check ∧ c.s0 = b.s0 ^^^ Config.drbg s.rng 256 ∧ Only [.stp, .keys, .rng] s t
        ∧ t.keys = { s.keys with drkAt := s.time.ticks })
     ∧ (activeBank s = none ∨ s.keys.line ≠ none ∨ s.time.ticks < s.keys.drkAt + 10 ^ 9 → exec .drkRemask s = .next s))

/-- With the PCIe link up a write of LA_Q0_DESC_PROD by PF0 stores its low 12 bits; Q1's has no effect. On a live device without a hold, with the key lines of inline memory sound and no error met, a queue that may fetch, and is not passed over for the other queue's turn, takes its next descriptor as its newest work and moves DESC_CONS on, done with BAD_VALUE where its form is wrong; a refused fetch stops the queue with RING_ERR. A chunk of the oldest unfinished descriptor with none in the array reads its source, goes through GCM under its slot's key and enters the cluster that R105 places it on, and its descriptor takes its result once the chunk has run there; a refused read ends it with ACCESS, a slot that is EMPTY or INVALID with KEY_INVALID, a key in error at the cluster or parity in its staging granules with INTERNAL, without output; parity in the link RAM halts. A descriptor that is done leaves the work with its record written, CPL_PROD moves on and fixed counter 54 counts; a refused record stops the queue with RING_ERR. (That a completion ring keeps one entry free, when the floor has room, and the status for a key in error are log 105.) -/
def Obligations.LookasideEngine : Prop :=
  ∀ s : State, live s = true →
    (let sound : Prop := ∀ n, lineOk (tget {} s.keys.ime n) = true ∨ tget {} s.keys.ime n = {}
     (pcieUp s = true → ∀ v : W32, exec (.laDescProdWrite .pf0 0 v) s = .next (setLa 0 { laOf s 0 with descProd := v.toNat % 4096 } s)
        ∧ exec (.laDescProdWrite .pf0 1 v) s = .next s)
     ∧ (∀ q v, exec (.laDescProdWrite .pf1 q v) s = .next s)
     ∧ (∀ q : LaNo, holding s = false → sound →
        (let x := laOf s q.val
         let v := (laWorld q.val).code
         let next := x.work.find? (fun w => !w.done && !laBusy s q.val w.index)
         let counts (m n : Nat) (t : State) : Prop := tget 0 t.perf.fix m = (tget 0 s.perf.fix m + n) % 2 ^ 48
         (laMayFetch s q.val = false ∨ (laMayFetch s (1 - q.val) = true ∧ s.laTurn = q.val) →
            ∀ e, exec (.laDescriptorFetch ⟨q, e⟩) s = .next s)
         ∧ (laMayFetch s q.val = true → laMayFetch s (1 - q.val) = false ∨ s.laTurn ≠ q.val →
            lineOk (tget {} s.keys.internal handleCtx) = true ∨ tget {} s.keys.internal handleCtx = {} →
            (∀ u, bufRead mLa x.colour v (x.descBase + 64 * x.descCons) 64 s = (none, u) → ∃ t, exec (.laDescriptorFetch ⟨q, .ok⟩) s = .next t
              ∧ (laOf t q.val).en = false ∧ (laOf t q.val).ringErr = true ∧ (laOf t q.val).work = x.work)
            ∧ (∀ d u, bufRead mLa x.colour v (x.descBase + 64 * x.descCons) 64 s = (some d, u) → ∃ t w, exec (.laDescriptorFetch ⟨q, .ok⟩) s = .next t
              ∧ laOf t q.val = { x with descCons := (x.descCons + 1) % 2 ^ x.size, work := x.work ++ [w] } ∧ t.laTurn = q.val
              ∧ w.index = x.descCons ∧ w.desc = d ∧ (w.done = false → w.chain.length = cdiv (w.textLen + 16) 256)
              ∧ (({ index := x.descCons, desc := d } : LaWork).formOk = false → w.status = .badValue ∧ w.done = true)))
         ∧ (next = none → ∀ e, exec (.laChunk ⟨q, e⟩) s = .next s)
         ∧ (∀ w, next = some w → placeChunk s (slotsOf w.next.1 w.next.2) = none → ∀ e, exec (.laChunk ⟨q, e⟩) s = .next s)
         ∧ (∀ w c at_, next = some w → placeChunk s (slotsOf w.next.1 w.next.2) = some (c, at_) → ∀ e : Errs, e.ecc = .ok →
            (let a := w.next.1
             let n := w.next.2
             let more := if w.decrypt = true ∧ w.textDone + n = w.textLen then 16 else 0
             let g := gslotOf s w.gslot
             let source := bufRead mLa w.colour v (w.src + w.aadDone + w.textDone) (a + n + more) { s with laFloorAt := at_ }
             let ends (st : Status) (t : State) : Prop :=
               (laOf t q.val).work = x.work.map (fun y => if y.index = w.index then { w with status := st, done := true, outp := [] } else y)
             (∀ u, source = (none, u) → ∃ t, exec (.laChunk ⟨q, e⟩) s = .next t ∧ ends .access t)
             ∧ (∀ b u, source = (some b, u) →
                (g.state = .empty ∨ g.state = .invalid → ∃ t, exec (.laChunk ⟨q, e⟩) s = .next t ∧ ends .keyInvalid t)
                ∧ (g.state ≠ .empty → g.state ≠ .invalid → lineOk g.line = true →
                  (e.bus = true → ∃ t, exec (.laChunk ⟨q, e⟩) s = .next t ∧ ends .internal t ∧ counts 33 1 t)
                  ∧ (e.bus = false → e.link = true → ∃ t, exec (.laChunk ⟨q, e⟩) s = .next t ∧ t.glb.haltCause = haltLinkRam)
                  ∧ (e.bus = false → e.link = false → e.data ≠ [] → ∃ t, exec (.laChunk ⟨q, e⟩) s = .next t ∧ ends .internal t ∧ counts 35 1 t)
                  ∧ (e.bus = false → e.link = false → e.data = [] → ∃ t r, exec (.laChunk ⟨q, e⟩) s = .next t
                      ∧ laOf t q.val = x ∧ t.laFloorAt = at_ ∧ t.traffic.nextFid = s.traffic.nextFid + 1
                      ∧ reqOf t s.traffic.nextFid = some r ∧ r.cluster = some c ∧ lineKey r.key = lineKey g.line
                      ∧ r.kind = .chunk q.val a n (w.run (slotOctets g) (b.take a) ((b.drop a).take n) (b.drop (a + n))
                          (Config.mask (clusterOf s c).maskSeed (clusterOf s c).maskWords 128).toNat)
                      ∧ counts 50 (slotsOf a n) t ∧ counts 53 1 t)))))
         ∧ (∀ id r c a n w, frameOf s id = none → reqOf s id = some r → r.cluster = some c → r.kind = .chunk q.val a n w →
            hasRun s c id = true → ∀ e, ∃ t, exec (.requestComplete ⟨id, e⟩) s = .next t ∧ reqOf t id = none
              ∧ (laOf t q.val).work = x.work.map (fun y => if y.index = w.index then w else y))
         ∧ (x.work.find? (fun w => w.done) = none → ∀ e, exec (.laComplete ⟨q, e⟩) s = .next s)
         ∧ (∀ w, x.work.find? (fun w => w.done) = some w → w.status ≠ .ok → w.status ≠ .tagFail → ∀ e : Errs, e.ecc = .ok →
            (let s' := setLa q.val { x with work := x.work.filter (fun y => !(y.index == w.index)) } s
             ∀ c u, masterWrite mLa x.colour v (x.cplBase + 16 * x.cplProd) (laRecord w) s' = (c, u) → ∃ t, exec (.laComplete ⟨q, e⟩) s = .next t
              ∧ (c = 0 → laOf t q.val = { laOf s' q.val with cplProd := (x.cplProd + 1) % 2 ^ x.size } ∧ counts 54 1 t
                  ∧ (q.val = 0 → w.irq = true → x.irqEn = true → t.irq.cause.getLsbD 0x14 = true))
              ∧ (c ≠ 0 → laOf t q.val = { laOf s' q.val with en := false, ringErr := true })))
         ∧ (∀ w, x.work.find? (fun w => w.done) = some w → w.status = .ok → ∀ e : Errs,
            (e.link = true → ∃ t, exec (.laComplete ⟨q, e⟩) s = .next t ∧ t.glb.haltCause = haltLinkRam)
            ∧ (e.link = false → e.data ≠ [] → e.ecc = .ok → ∃ t, exec (.laComplete ⟨q, e⟩) s = .next t ∧ counts 35 1 t
                ∧ (laOf t q.val).work = x.work.filter (fun y => !(y.index == w.index))))
         ∧ (∀ w w' u c p, x.work.find? (fun w => w.done) = some w → w.status = .ok ∨ w.status = .tagFail → laWrite q.val w s = (w', u) →
            halted u = false → masterWrite mLa x.colour v (x.cplBase + 16 * x.cplProd) (laRecord w')
              (setLa q.val { x with work := x.work.filter (fun y => !(y.index == w'.index)) } u) = (c, p) →
            ∃ t, exec (.laComplete ⟨q, {}⟩) s = .next t ∧ (laOf t q.val).work = x.work.filter (fun y => !(y.index == w.index))
              ∧ (c = 0 → (laOf t q.val).cplProd = (x.cplProd + 1) % 2 ^ x.size)
              ∧ (c ≠ 0 → (laOf t q.val).en = false ∧ (laOf t q.val).ringErr = true)))))

/-- With the PCIe link up RING_r_PROD takes its low 12 bits, but on the event ring. On a live device without a hold, with the key lines of inline memory sound and no error met, the frame at the head of a receive ring is written into the reservation that it holds or now gets, CONS advances past it and fixed counter 55 counts, while a reservation not met leaves it waiting and a refused access stops the ring; a parity error loses it as CISTERN_PARITY; RING_STARVE drops a frame whose reservation is still not met once its time has passed, counted in fixed counter 57, with EV_RING_STARVE, and not before. A transmit descriptor that breaks a rule is done with its status; one that does not has its frame read where there is room and queued at its port, for a sealed one as a control message to be sealed. A rearm arms its vector, which sends at once where a mapped cause is set; a mapping takes EN and VEC; an unmasked vector sends what is pending; enabling MSI-X arms every vector, and each with a mapped cause set sends or becomes pending. From 10 ms after the release of reset the I2C pointer and the bytes it reads are those of the map, which is refreshed 1 ms after the last refresh. -/
def Obligations.RingsInterruptsAndI2c : Prop :=
  ∀ s : State, asleep s = false →
    (let counts (m : Nat) (t : State) : Prop := tget 0 t.perf.fix m = (tget 0 s.perf.fix m + 1) % 2 ^ 48
     let sound : Prop := ∀ n, lineOk (tget {} s.keys.ime n) = true ∨ tget {} s.keys.ime n = {}
     (∀ (r : RingNo) (v : W32),
        (pcieUp s = true → r.val < 16 → ∃ t, exec (.ringProdWrite .pf0 r v) s = .next t ∧ (ringOf t r.val).prod = v.toNat % 4096)
        ∧ (pcieUp s = true → 8 ≤ r.val → r.val < 16 → exec (.ringProdWrite .pf0 r v) s
            = .next (setRing r.val { ringOf s r.val with prod := v.toNat % 4096 } s))
        ∧ exec (.ringProdWrite .pf0 16 v) s = .next s ∧ exec (.ringProdWrite .pf1 r v) s = .next s)
     ∧ (halted s = false → holding s = false → sound → ∀ r : RingNo, (ringOf s r.val).en = true →
        (r.val < 8 → ∀ p rest, (ringOf s r.val).waiting = p :: rest →
          (let x := ringOf s r.val
           (∀ e : Errs, e.link = true → ∃ t, exec (.puntDeliver r e) s = .next t ∧ t.glb.haltCause = haltLinkRam)
           ∧ (∀ e : Errs, e.link = false → e.data ≠ [] → ∃ t, exec (.puntDeliver r e) s = .next t ∧ (ringOf t r.val).waiting = rest
                ∧ counts 23 t ∧ counts 35 t)
           ∧ (∀ u l, puntReserve r.val p s = u → (ringOf u r.val).reserved = some l → ∀ y v b z,
              fillBuffers x.colour l (puntHeader p ++ p.data) u = (some y, v) →
              writeBack x.colour x.base (((y.head?).map (·.1)).getD 0) (((y.getLast?).map (·.1)).getD 0) y.reverse v = (b, z) →
              (b = true → ∃ t, exec (.puntDeliver r {}) s = .next t ∧ counts 55 t
                ∧ ringOf t r.val = { x with waiting := rest, headAt := s.time.ticks, reserved := none, cons := (x.cons + l.length) % 2 ^ x.size }
                ∧ (x.irqEn = true → t.irq.cause.getLsbD (0x18 + r.val) = true))
              ∧ (b = false → ∃ t, exec (.puntDeliver r {}) s = .next t ∧ (ringOf t r.val).en = false ∧ (ringOf t r.val).accErr = true))
           ∧ (∀ u, x.reserved = none → reserveFor r.val p s = (.short, u) → exec (.puntDeliver r {}) s = .next u ∧ ringOf u r.val = x)
           ∧ (∀ u, x.reserved = none → reserveFor r.val p s = (.refused, u) → ∃ t, exec (.puntDeliver r {}) s = .next t
              ∧ (ringOf t r.val).en = false ∧ (ringOf t r.val).accErr = true ∧ (ringOf t r.val).waiting = [])
           ∧ (s.time.ticks ≤ x.headAt + attr s clsRing r.val 1 * 1000 ∨ x.reserved ≠ none ∨ wouldFit s r.val p = true →
              exec (.ringStarve r) s = .next s)
           ∧ (x.headAt + attr s clsRing r.val 1 * 1000 < s.time.ticks → x.reserved = none → wouldFit s r.val p = false →
              ∃ t, exec (.ringStarve r) s = .next t ∧ (ringOf t r.val).waiting = rest ∧ counts 57 t
              ∧ (ringOf t r.val).drop = min 0xFFFFFFFF (x.drop + 1) ∧ t.irq.cause.getLsbD 0x10 = true)))
        ∧ (8 ≤ r.val → r.val < 16 → (ringOf s r.val).next ≠ (ringOf s r.val).prod % 2 ^ (ringOf s r.val).size →
          (let x := ringOf s r.val
           (∀ d u, masterRead mDma x.colour 3 (x.base + 32 * x.next) 32 s = ((d, 0), u) →
              (∀ st, txRule u d = some st → exec (.txDescriptor ⟨r, .ok⟩) s = .next (txDone r.val x.next st (takeTx r.val u)))
              ∧ (txRule u d = none → txRoom u (leAt d 10 1) (leAt d 8 2) = false → exec (.txDescriptor ⟨r, .ok⟩) s = .next u)
              ∧ (∀ b v, txRule u d = none → txRoom u (leAt d 10 1) (leAt d 8 2) = true →
                  bufRead mDma x.colour 3 (leAt d 0 8) (leAt d 8 2) u = (some b, v) → bit (leAt d 11 1) 1 = false →
                  ∃ t, exec (.txDescriptor ⟨r, .ok⟩) s = .next t ∧ (ringOf t r.val).next = (x.next + 1) % 2 ^ x.size
                  ∧ (sealedQ s (leAt d 10 1) = true → ∃ (q : Req) (m : CtlMsg), reqOf t s.traffic.nextFid = some q
                      ∧ q.kind = .seal (leAt d 10 1 - 48) m ∧ m.ring = some r.val ∧ m.index = x.next
                      ∧ m.data = beBytes 1 4 ++ [0] ++ beBytes 2 b.length ++ b)
                  ∧ (sealedQ s (leAt d 10 1) = false → (portOf s (leAt d 10 1)).mgmt = [] → ∃ m : MgmtFrame,
                      (portOf t (leAt d 10 1)).mgmt = [m] ∧ m.data = b ∧ m.ring = some r.val ∧ m.index = x.next ∧ m.launch = none)))
           ∧ (∀ d c u, masterRead mDma x.colour 3 (x.base + 32 * x.next) 32 s = ((d, c), u) → c ≠ 0 → ∃ t, exec (.txDescriptor ⟨r, .ok⟩) s = .next t
              ∧ (ringOf t r.val).en = false ∧ (ringOf t r.val).accErr = true)))
        ∧ (8 ≤ r.val → (ringOf s r.val).next = (ringOf s r.val).prod % 2 ^ (ringOf s r.val).size → ∀ e, exec (.txDescriptor ⟨r, e⟩) s = .next s))
     ∧ (∀ v : VecNo,
        exec (.irqRearm .pf1 v) s = .next s
        ∧ (pcieUp s = true → s.irq.msix = false ∨ vectorCause s v.val = false →
            exec (.irqRearm .pf0 v) s = .next { s with irq := { s.irq with armed := s.irq.armed ||| ((1 : W64) <<< v.val) } })
        ∧ (pcieUp s = true → s.irq.msix = true → vectorCause s v.val = true → ∃ t, exec (.irqRearm .pf0 v) s = .next t ∧ t.irq.armed.getLsbD v.val = false
            ∧ (s.irq.masked.getLsbD v.val = false → t.out = .msix v.val :: s.out)
            ∧ (s.irq.masked.getLsbD v.val = true → t.out = s.out ∧ t.irq.pba.getLsbD v.val = true) ∧ Only [.irq, .out] s t)
        ∧ (∃ t, exec (.msixUnmask v) s = .next t ∧ t.irq.masked.getLsbD v.val = false ∧ t.irq.pba.getLsbD v.val = false
            ∧ t.out = (if s.irq.pba.getLsbD v.val = true ∧ s.irq.msix = true then .msix v.val :: s.out else s.out)
            ∧ t.irq.cause = s.irq.cause ∧ Only [.irq, .out] s t))
     ∧ (∃ t, exec .msixEnable s = .next t ∧ t.irq.msix = true ∧ Only [.irq, .out] s t ∧ ∀ v : VecNo,
        (vectorCause s v.val = false → t.irq.armed.getLsbD v.val = true)
        ∧ (vectorCause s v.val = true → t.irq.armed.getLsbD v.val = false
            ∧ (s.irq.masked.getLsbD v.val = false → .msix v.val ∈ t.out) ∧ (s.irq.masked.getLsbD v.val = true → t.irq.pba.getLsbD v.val = true)))
     ∧ (∀ (e : Nat) (v : W32),
        (pcieUp s = true → e < 56 → ∃ t, exec (.irqMapWrite .pf0 e v) s = .next t ∧ irqMap t e = bits v.toNat 8 8 * 256 + v.toNat % 64
          ∧ (∀ k, k ≠ e → irqMap t k = irqMap s k) ∧ t.irq.cause = s.irq.cause ∧ Only [.irq, .out] s t)
        ∧ (56 ≤ e → exec (.irqMapWrite .pf0 e v) s = .next s) ∧ exec (.irqMapWrite .pf1 e v) s = .next s)
     ∧ (i2cUp s = true →
        (∀ b rest, exec (.i2cWrite (b :: rest)) s = .next { s with i2c := { s.i2c with ptr := b.toNat } })
        ∧ (∀ n : Nat, exec (.i2cRead n) s = .next { s with
          out := .i2c ((upFrom s.i2c.ptr n).map (fun o => i2cByte s (o % 256))) :: s.out, i2c := { s.i2c with ptr := (s.i2c.ptr + n) % 256 } }))
     ∧ (i2cUp s = false → (∀ b, exec (.i2cWrite b) s = .next s) ∧ ∀ n, exec (.i2cRead n) s = .next s)
     ∧ ((∀ t0, s.i2c.snapAt = some t0 → t0 + 10 ^ 6 ≤ s.time.ticks) →
        ∃ t, exec .i2cSnapshot s = .next t ∧ Only [.i2c] s t ∧ t.i2c.ptr = s.i2c.ptr ∧ t.i2c.snapAt = some s.time.ticks ∧ t.i2c.snap.length = 32
        ∧ leAt t.i2c.snap 0 2 = (if s.nvm.part9624 then 0x9624 else 0x9648) ∧ beAt t.i2c.snap 2 1 = 0xB0
        ∧ beAt t.i2c.snap 3 1 = s.glb.mode.code + 16 * s.glb.lifecycle.code)
     ∧ (∀ t0, s.i2c.snapAt = some t0 → s.time.ticks < t0 + 10 ^ 6 → exec .i2cSnapshot s = .next s))

/-- For every state: if memory's list is in its canonical form (addresses strictly rising, no entry of the byte that an unlisted address reads as: the model's own form) and no step of network time is armed once a step has been made (STEP_SPENT), then every next state that step answers keeps both, and its queue is the queue without its front: no command adds to the queue, which is the model's own. -/
def Obligations.EveryStepKeepsTheInvariant : Prop :=
  ∀ s t : State, StepInv s → step s = .next t → StepInv t ∧ t.pending = s.pending.tail

/-- State.reset meets StepInv: memory lists nothing, no step of network time is armed, and the queue of commands (the model's own) is empty. -/
def Obligations.ResetMeetsTheInvariant : Prop :=
  StepInv State.reset ∧ State.reset.pending = [] ∧ State.reset.mem.bytes = [] ∧ State.reset.time.armed = none
end

