-- ==== Sys2Proof/Laws/Dispatch.lean ====
section
/-! SUPPORT. One lemma per command: its arm of the dispatch is its meaning. -/

namespace Sys2Proof.Machine

open Sys2Proof

@[simp] theorem exec_sysStatus (mb : Mb) (s : State) : exec (.sysStatus mb) s = execSysStatus mb s := rfl
@[simp] theorem exec_sysMode (mb : Mb) (target : Nat) (s : State) : exec (.sysMode mb target) s = execSysMode mb target s := rfl
@[simp] theorem exec_sysLifecycle (mb : Mb) (target : Nat) (confirm : Nat) (s : State) : exec (.sysLifecycle mb target confirm) s = execSysLifecycle mb target confirm s := rfl
@[simp] theorem exec_sysReset (mb : Mb) (kind : Nat) (s : State) : exec (.sysReset mb kind) s = execSysReset mb kind s := rfl
@[simp] theorem exec_sysHalt (mb : Mb) (confirm : Nat) (s : State) : exec (.sysHalt mb confirm) s = execSysHalt mb confirm s := rfl
@[simp] theorem exec_sysTimeStep (mb : Mb) (seconds : Nat) (ns : Nat) (atPps : Nat) (s : State) : exec (.sysTimeStep mb seconds ns atPps) s = execSysTimeStep mb seconds ns atPps s := rfl
@[simp] theorem exec_sysPatchLoad (mb : Mb) (addr : Nat) (len : Nat) (colour : Nat) (s : State) : exec (.sysPatchLoad mb addr len colour) s = execSysPatchLoad mb addr len colour s := rfl
@[simp] theorem exec_sysPatchInfo (mb : Mb) (s : State) : exec (.sysPatchInfo mb) s = execSysPatchInfo mb s := rfl
@[simp] theorem exec_authOpen (mb : Mb) (world : Nat) (gslot : Nat) (s : State) : exec (.authOpen mb world gslot) s = execAuthOpen mb world gslot s := rfl
@[simp] theorem exec_authProve (mb : Mb) (proof : Nat) (s : State) : exec (.authProve mb proof) s = execAuthProve mb proof s := rfl
@[simp] theorem exec_authClose (mb : Mb) (s : State) : exec (.authClose mb) s = execAuthClose mb s := rfl
@[simp] theorem exec_objGet (mb : Mb) (ids : NatList) (s : State) : exec (.objGet mb ids) s = execObjGet mb ids s := rfl
@[simp] theorem exec_objSet (mb : Mb) (entries : Entries) (s : State) : exec (.objSet mb entries) s = execObjSet mb entries s := rfl
@[simp] theorem exec_objBulkRead (mb : Mb) (req : BulkReq) (s : State) : exec (.objBulkRead mb req) s = execObjBulkRead mb req s := rfl
@[simp] theorem exec_objBulkWrite (mb : Mb) (req : BulkReq) (s : State) : exec (.objBulkWrite mb req) s = execObjBulkWrite mb req s := rfl
@[simp] theorem exec_keyIdentity (mb : Mb) (addr : Nat) (colour : Nat) (s : State) : exec (.keyIdentity mb addr colour) s = execKeyIdentity mb addr colour s := rfl
@[simp] theorem exec_keyImport (mb : Mb) (addr : Nat) (len : Nat) (colour : Nat) (s : State) : exec (.keyImport mb addr len colour) s = execKeyImport mb addr len colour s := rfl
@[simp] theorem exec_keyGenerate (mb : Mb) (space : Nat) (slot : Nat) (attr : Nat) (s : State) : exec (.keyGenerate mb space slot attr) s = execKeyGenerate mb space slot attr s := rfl
@[simp] theorem exec_keyDerive (mb : Mb) (req : DeriveReq) (s : State) : exec (.keyDerive mb req) s = execKeyDerive mb req s := rfl
@[simp] theorem exec_keyWrap (mb : Mb) (gslot : Nat) (wrapping : Nat) (addr : Nat) (colour : Nat) (s : State) : exec (.keyWrap mb gslot wrapping addr colour) s = execKeyWrap mb gslot wrapping addr colour s := rfl
@[simp] theorem exec_keyUnwrap (mb : Mb) (target : Nat) (unwrapping : Nat) (addr : Nat) (colour : Nat) (s : State) : exec (.keyUnwrap mb target unwrapping addr colour) s = execKeyUnwrap mb target unwrapping addr colour s := rfl
@[simp] theorem exec_keyRestrict (mb : Mb) (gslot : Nat) (uses : Nat) (clear : Nat) (s : State) : exec (.keyRestrict mb gslot uses clear) s = execKeyRestrict mb gslot uses clear s := rfl
@[simp] theorem exec_keyDestroy (mb : Mb) (space : Nat) (slot : Nat) (s : State) : exec (.keyDestroy mb space slot) s = execKeyDestroy mb space slot s := rfl
@[simp] theorem exec_keyZeroize (mb : Mb) (confirm : Nat) (s : State) : exec (.keyZeroize mb confirm) s = execKeyZeroize mb confirm s := rfl
@[simp] theorem exec_chanCreate (mb : Mb) (chan : Nat) (s : State) : exec (.chanCreate mb chan) s = execChanCreate mb chan s := rfl
@[simp] theorem exec_chanSet (mb : Mb) (entries : Entries) (s : State) : exec (.chanSet mb entries) s = execChanSet mb entries s := rfl
@[simp] theorem exec_chanEnable (mb : Mb) (chan : Nat) (s : State) : exec (.chanEnable mb chan) s = execChanEnable mb chan s := rfl
@[simp] theorem exec_chanDisable (mb : Mb) (chan : Nat) (s : State) : exec (.chanDisable mb chan) s = execChanDisable mb chan s := rfl
@[simp] theorem exec_chanSwitch (mb : Mb) (chan : Nat) (s : State) : exec (.chanSwitch mb chan) s = execChanSwitch mb chan s := rfl
@[simp] theorem exec_chanMap (mb : Mb) (chan : Nat) (key : ClassKey) (s : State) : exec (.chanMap mb chan key) s = execChanMap mb chan key s := rfl
@[simp] theorem exec_chanUnmap (mb : Mb) (key : ClassKey) (s : State) : exec (.chanUnmap mb key) s = execChanUnmap mb key s := rfl
@[simp] theorem exec_caCreate (mb : Mb) (ca : Nat) (chan : Nat) (cakGslot : Nat) (s : State) : exec (.caCreate mb ca chan cakGslot) s = execCaCreate mb ca chan cakGslot s := rfl
@[simp] theorem exec_caSet (mb : Mb) (entries : Entries) (s : State) : exec (.caSet mb entries) s = execCaSet mb entries s := rfl
@[simp] theorem exec_caRekey (mb : Mb) (ca : Nat) (offsetMs : Nat) (s : State) : exec (.caRekey mb ca offsetMs) s = execCaRekey mb ca offsetMs s := rfl
@[simp] theorem exec_caDelete (mb : Mb) (ca : Nat) (s : State) : exec (.caDelete mb ca) s = execCaDelete mb ca s := rfl
@[simp] theorem exec_linkSet (mb : Mb) (entries : Entries) (s : State) : exec (.linkSet mb entries) s = execLinkSet mb entries s := rfl
@[simp] theorem exec_linkRestart (mb : Mb) (lport : Nat) (s : State) : exec (.linkRestart mb lport) s = execLinkRestart mb lport s := rfl
@[simp] theorem exec_schedPolicer (mb : Mb) (entries : Entries) (s : State) : exec (.schedPolicer mb entries) s = execSchedPolicer mb entries s := rfl
@[simp] theorem exec_schedShaper (mb : Mb) (entries : Entries) (s : State) : exec (.schedShaper mb entries) s = execSchedShaper mb entries s := rfl
@[simp] theorem exec_schedWeight (mb : Mb) (entries : Entries) (s : State) : exec (.schedWeight mb entries) s = execSchedWeight mb entries s := rfl
@[simp] theorem exec_schedGateLoad (mb : Mb) (q : Nat) (count : Nat) (cycleNs : Nat) (addr : Nat) (colour : Nat) (s : State) : exec (.schedGateLoad mb q count cycleNs addr colour) s = execSchedGateLoad mb q count cycleNs addr colour s := rfl
@[simp] theorem exec_schedGateCommit (mb : Mb) (q : Nat) (baseSec : Nat) (baseNs : Nat) (s : State) : exec (.schedGateCommit mb q baseSec baseNs) s = execSchedGateCommit mb q baseSec baseNs s := rfl
@[simp] theorem exec_schedGateCancel (mb : Mb) (q : Nat) (s : State) : exec (.schedGateCancel mb q) s = execSchedGateCancel mb q s := rfl
@[simp] theorem exec_pairBind (mb : Mb) (addr : Nat) (colour : Nat) (s : State) : exec (.pairBind mb addr colour) s = execPairBind mb addr colour s := rfl
@[simp] theorem exec_pairUnbind (mb : Mb) (s : State) : exec (.pairUnbind mb) s = execPairUnbind mb s := rfl
@[simp] theorem exec_pairSolo (mb : Mb) (s : State) : exec (.pairSolo mb) s = execPairSolo mb s := rfl
@[simp] theorem exec_pairHandover (mb : Mb) (s : State) : exec (.pairHandover mb) s = execPairHandover mb s := rfl
@[simp] theorem exec_pairSet (mb : Mb) (entries : Entries) (s : State) : exec (.pairSet mb entries) s = execPairSet mb entries s := rfl
@[simp] theorem exec_clTest (mb : Mb) (cluster : Nat) (s : State) : exec (.clTest mb cluster) s = execClTest mb cluster s := rfl
@[simp] theorem exec_pmuSet (mb : Mb) (entries : Entries) (s : State) : exec (.pmuSet mb entries) s = execPmuSet mb entries s := rfl
@[simp] theorem exec_calRead (mb : Mb) (addr : Nat) (colour : Nat) (s : State) : exec (.calRead mb addr colour) s = execCalRead mb addr colour s := rfl
@[simp] theorem exec_calWrite (mb : Mb) (addr : Nat) (colour : Nat) (s : State) : exec (.calWrite mb addr colour) s = execCalWrite mb addr colour s := rfl
@[simp] theorem exec_calHbmTest (mb : Mb) (failing : Met NatList Bool) (s : State) : exec (.calHbmTest mb failing) s = execCalHbmTest mb failing s := rfl
@[simp] theorem exec_calSerdes (mb : Mb) (q : Nat) (s : State) : exec (.calSerdes mb q) s = execCalSerdes mb q s := rfl
@[simp] theorem exec_logTamper (mb : Mb) (first : Nat) (count : Nat) (s : State) : exec (.logTamper mb first count) s = execLogTamper mb first count s := rfl
@[simp] theorem exec_logFaults (mb : Mb) (first : Nat) (count : Nat) (s : State) : exec (.logFaults mb first count) s = execLogFaults mb first count s := rfl
@[simp] theorem exec_laReset (mb : Mb) (queue : Nat) (s : State) : exec (.laReset mb queue) s = execLaReset mb queue s := rfl
@[simp] theorem exec_perfSet (mb : Mb) (entries : Entries) (s : State) : exec (.perfSet mb entries) s = execPerfSet mb entries s := rfl
@[simp] theorem exec_perfSumpRead (mb : Mb) (table : Nat) (addr : Nat) (colour : Nat) (s : State) : exec (.perfSumpRead mb table addr colour) s = execPerfSumpRead mb table addr colour s := rfl
@[simp] theorem exec_dpClaim (mb : Mb) (s : State) : exec (.dpClaim mb) s = execDpClaim mb s := rfl
@[simp] theorem exec_dpRelease (mb : Mb) (s : State) : exec (.dpRelease mb) s = execDpRelease mb s := rfl
@[simp] theorem exec_mailboxDoorbell (pf : Pf) (mb : Mb) (s : State) : exec (.mailboxDoorbell pf mb) s = execMailboxDoorbell pf mb s := rfl
@[simp] theorem exec_mailboxReqWrite (pf : Pf) (mb : Mb) (offset : Nat) (value : W32) (s : State) : exec (.mailboxReqWrite pf mb offset value) s = execMailboxReqWrite pf mb offset value s := rfl
@[simp] theorem exec_mailboxResponse (mb : Mb) (s : State) : exec (.mailboxResponse mb) s = execMailboxResponse mb s := rfl
@[simp] theorem exec_sessionIdleExpire (mb : Mb) (s : State) : exec (.sessionIdleExpire mb) s = execSessionIdleExpire mb s := rfl
@[simp] theorem exec_timeNowRead (pf : Pf) (s : State) : exec (.timeNowRead pf) s = execTimeNowRead pf s := rfl
@[simp] theorem exec_rtcRead (pf : Pf) (s : State) : exec (.rtcRead pf) s = execRtcRead pf s := rfl
@[simp] theorem exec_timeIncrWrite (pf : Pf) (adj : W32) (s : State) : exec (.timeIncrWrite pf adj) s = execTimeIncrWrite pf adj s := rfl
@[simp] theorem exec_stepGo (pf : Pf) (cancel : Bool) (s : State) : exec (.stepGo pf cancel) s = execStepGo pf cancel s := rfl
@[simp] theorem exec_stepArm (pf : Pf) (cancel : Bool) (s : State) : exec (.stepArm pf cancel) s = execStepArm pf cancel s := rfl
@[simp] theorem exec_stepCancel (pf : Pf) (atPps : Bool) (s : State) : exec (.stepCancel pf atPps) s = execStepCancel pf atPps s := rfl
@[simp] theorem exec_stepLapse (s : State) : exec .stepLapse s = execStepLapse s := rfl
@[simp] theorem exec_tsqPop (pf : Pf) (q : Port) (s : State) : exec (.tsqPop pf q) s = execTsqPop pf q s := rfl
@[simp] theorem exec_ppsInEdge (s : State) : exec .ppsInEdge s = execPpsInEdge s := rfl
@[simp] theorem exec_todReceive (message : Bytes) (gapOk : Bool) (s : State) : exec (.todReceive message gapOk) s = execTodReceive message gapOk s := rfl
@[simp] theorem exec_secondBoundary (s : State) : exec .secondBoundary s = execSecondBoundary s := rfl
@[simp] theorem exec_ppsOutFall (s : State) : exec .ppsOutFall s = execPpsOutFall s := rfl
@[simp] theorem exec_todSend (s : State) : exec .todSend s = execTodSend s := rfl
@[simp] theorem exec_pmuDomReqRet (pf : Pf) (dom : DomNo) (cmdWake : Bool) (wake : Bool) (s : State) : exec (.pmuDomReqRet pf dom cmdWake wake) s = execPmuDomReqRet pf dom cmdWake wake s := rfl
@[simp] theorem exec_pmuDomReqOff (pf : Pf) (dom : DomNo) (cmdWake : Bool) (wake : Bool) (s : State) : exec (.pmuDomReqOff pf dom cmdWake wake) s = execPmuDomReqOff pf dom cmdWake wake s := rfl
@[simp] theorem exec_pmuDomReqOn (pf : Pf) (dom : DomNo) (cmdWake : Bool) (s : State) : exec (.pmuDomReqOn pf dom cmdWake) s = execPmuDomReqOn pf dom cmdWake s := rfl
@[simp] theorem exec_domainChangeDone (dom : DomNo) (s : State) : exec (.domainChangeDone dom) s = execDomainChangeDone dom s := rfl
@[simp] theorem exec_domainWakeDone (dom : DomNo) (s : State) : exec (.domainWakeDone dom) s = execDomainWakeDone dom s := rfl
@[simp] theorem exec_offDomainAccess (pf : Pf) (offset : Nat) (write : Bool) (s : State) : exec (.offDomainAccess pf offset write) s = execOffDomainAccess pf offset write s := rfl
@[simp] theorem exec_paceLimitWrite (pf : Pf) (value : W32) (s : State) : exec (.paceLimitWrite pf value) s = execPaceLimitWrite pf value s := rfl
@[simp] theorem exec_avsTargetWrite (pf : Pf) (value : W32) (busOk : Bool) (s : State) : exec (.avsTargetWrite pf value busOk) s = execAvsTargetWrite pf value busOk s := rfl
@[simp] theorem exec_avsLowerIssue (busOk : Bool) (s : State) : exec (.avsLowerIssue busOk) s = execAvsLowerIssue busOk s := rfl
@[simp] theorem exec_avsConfirm (s : State) : exec .avsConfirm s = execAvsConfirm s := rfl
@[simp] theorem exec_avsTelemetry (vout : Nat) (iout : Nat) (temp : Nat) (busOk : Bool) (s : State) : exec (.avsTelemetry vout iout temp busOk) s = execAvsTelemetry vout iout temp busOk s := rfl
@[simp] theorem exec_meterRound (readings : Readings) (s : State) : exec (.meterRound readings) s = execMeterRound readings s := rfl
@[simp] theorem exec_paceDispFollow (s : State) : exec .paceDispFollow s = execPaceDispFollow s := rfl
@[simp] theorem exec_downshiftEval (loads : Loads) (s : State) : exec (.downshiftEval loads) s = execDownshiftEval loads s := rfl
@[simp] theorem exec_sagWarn (point : Nat) (s : State) : exec (.sagWarn point) s = execSagWarn point s := rfl
@[simp] theorem exec_sagWarnClear (s : State) : exec .sagWarnClear s = execSagWarnClear s := rfl
@[simp] theorem exec_sagReset (s : State) : exec .sagReset s = execSagReset s := rfl
@[simp] theorem exec_mainPowerLost (s : State) : exec .mainPowerLost s = execMainPowerLost s := rfl
@[simp] theorem exec_mainPowerBack (s : State) : exec .mainPowerBack s = execMainPowerBack s := rfl
@[simp] theorem exec_powerOn (s : State) : exec .powerOn s = execPowerOn s := rfl
@[simp] theorem exec_resetNRecognised (s : State) : exec .resetNRecognised s = execResetNRecognised s := rfl
@[simp] theorem exec_resetEffect (s : State) : exec .resetEffect s = execResetEffect s := rfl
@[simp] theorem exec_resetRelease (boot : BootReport) (s : State) : exec (.resetRelease boot) s = execResetRelease boot s := rfl
@[simp] theorem exec_bootEnd (s : State) : exec .bootEnd s = execBootEnd s := rfl
@[simp] theorem exec_serviceEntry (s : State) : exec .serviceEntry s = execServiceEntry s := rfl
@[simp] theorem exec_glbResetCold (pf : Pf) (key : Nat) (s : State) : exec (.glbResetCold pf key) s = execGlbResetCold pf key s := rfl
@[simp] theorem exec_glbResetWarm (pf : Pf) (key : Nat) (s : State) : exec (.glbResetWarm pf key) s = execGlbResetWarm pf key s := rfl
@[simp] theorem exec_pcieFlr (pf : Pf) (s : State) : exec (.pcieFlr pf) s = execPcieFlr pf s := rfl
@[simp] theorem exec_pcieHotReset (s : State) : exec .pcieHotReset s = execPcieHotReset s := rfl
@[simp] theorem exec_fuseProgramDone (s : State) : exec .fuseProgramDone s = execFuseProgramDone s := rfl
@[simp] theorem exec_refclkSysLost (s : State) : exec .refclkSysLost s = execRefclkSysLost s := rfl
@[simp] theorem exec_refclkSgLost (group : SgNo) (s : State) : exec (.refclkSgLost group) s = execRefclkSgLost group s := rfl
@[simp] theorem exec_hostFrameReceive (hport : LPort) (frame : Bytes) (fcsOk : Bool) (entryOk : Bool) (s : State) : exec (.hostFrameReceive hport frame fcsOk entryOk) s = execHostFrameReceive hport frame fcsOk entryOk s := rfl
@[simp] theorem exec_lineFrameReceive (lport : LPort) (frame : Bytes) (fcsOk : Bool) (s : State) : exec (.lineFrameReceive lport frame fcsOk) s = execLineFrameReceive lport frame fcsOk s := rfl
@[simp] theorem exec_replayRecheck (fid : Nat) (s : State) : exec (.replayRecheck fid) s = execReplayRecheck fid s := rfl
@[simp] theorem exec_cellReceive (wport : WPort) (octets : Bytes) (s : State) : exec (.cellReceive wport octets) s = execCellReceive wport octets s := rfl
@[simp] theorem exec_sealedFrameClose (lport : LPort) (s : State) : exec (.sealedFrameClose lport) s = execSealedFrameClose lport s := rfl
@[simp] theorem exec_announceReceive (wport : WPort) (s : State) : exec (.announceReceive wport) s = execAnnounceReceive wport s := rfl
@[simp] theorem exec_heartbeatReceive (wport : WPort) (s : State) : exec (.heartbeatReceive wport) s = execHeartbeatReceive wport s := rfl
@[simp] theorem exec_rdiReceive (wport : WPort) (s : State) : exec (.rdiReceive wport) s = execRdiReceive wport s := rfl
@[simp] theorem exec_ptpSegmentReceive (lport : LPort) (s : State) : exec (.ptpSegmentReceive lport) s = execPtpSegmentReceive lport s := rfl
@[simp] theorem exec_dlodSet (wport : WPort) (s : State) : exec (.dlodSet wport) s = execDlodSet wport s := rfl
@[simp] theorem exec_dlodClear (wport : WPort) (s : State) : exec (.dlodClear wport) s = execDlodClear wport s := rfl
@[simp] theorem exec_dlhbSet (wport : WPort) (s : State) : exec (.dlhbSet wport) s = execDlhbSet wport s := rfl
@[simp] theorem exec_drdiClear (wport : WPort) (s : State) : exec (.drdiClear wport) s = execDrdiClear wport s := rfl
@[simp] theorem exec_cellTransmit (wport : WPort) (s : State) : exec (.cellTransmit wport) s = execCellTransmit wport s := rfl
@[simp] theorem exec_epochKeyDerive (wport : WPort) (s : State) : exec (.epochKeyDerive wport) s = execEpochKeyDerive wport s := rfl
@[simp] theorem exec_epochChange (wport : WPort) (s : State) : exec (.epochChange wport) s = execEpochChange wport s := rfl
@[simp] theorem exec_epochEnd (wport : WPort) (s : State) : exec (.epochEnd wport) s = execEpochEnd wport s := rfl
@[simp] theorem exec_announceSend (wport : WPort) (s : State) : exec (.announceSend wport) s = execAnnounceSend wport s := rfl
@[simp] theorem exec_heartbeatSend (wport : WPort) (s : State) : exec (.heartbeatSend wport) s = execHeartbeatSend wport s := rfl
@[simp] theorem exec_rdiSend (wport : WPort) (s : State) : exec (.rdiSend wport) s = execRdiSend wport s := rfl
@[simp] theorem exec_pumpRelease (q : Port) (s : State) : exec (.pumpRelease q) s = execPumpRelease q s := rfl
@[simp] theorem exec_requestDispatch (fid : Nat) (errs : Errs) (word : Bool) (s : State) : exec (.requestDispatch fid errs word) s = execRequestDispatch fid errs word s := rfl
@[simp] theorem exec_expressSuspend (cluster : ClusterNo) (s : State) : exec (.expressSuspend cluster) s = execExpressSuspend cluster s := rfl
@[simp] theorem exec_requestComplete (req : Met Nat Errs) (s : State) : exec (.requestComplete req) s = execRequestComplete req s := rfl
@[simp] theorem exec_clusterFault (cluster : ClusterNo) (s : State) : exec (.clusterFault cluster) s = execClusterFault cluster s := rfl
@[simp] theorem exec_handshakeTimeout (cluster : ClusterNo) (s : State) : exec (.handshakeTimeout cluster) s = execHandshakeTimeout cluster s := rfl
@[simp] theorem exec_spareKatDone (cluster : ClusterNo) (pass : Bool) (s : State) : exec (.spareKatDone cluster pass) s = execSpareKatDone cluster pass s := rfl
@[simp] theorem exec_rotationStep (s : State) : exec .rotationStep s = execRotationStep s := rfl
@[simp] theorem exec_clusterTestDone (cluster : ClusterNo) (pass : Bool) (s : State) : exec (.clusterTestDone cluster pass) s = execClusterTestDone cluster pass s := rfl
@[simp] theorem exec_rotationResume (s : State) : exec .rotationResume s = execRotationResume s := rfl
@[simp] theorem exec_transmitStart (q : Port) (errs : Errs) (s : State) : exec (.transmitStart q errs) s = execTransmitStart q errs s := rfl
@[simp] theorem exec_gateEntry (q : Port) (s : State) : exec (.gateEntry q) s = execGateEntry q s := rfl
@[simp] theorem exec_gateSwap (q : Port) (s : State) : exec (.gateSwap q) s = execGateSwap q s := rfl
@[simp] theorem exec_launch (q : Met Port Errs) (s : State) : exec (.launch q) s = execLaunch q s := rfl
@[simp] theorem exec_spillWrite (fid : Nat) (errs : Errs) (s : State) : exec (.spillWrite fid errs) s = execSpillWrite fid errs s := rfl
@[simp] theorem exec_spillReturn (chan : Nat) (dir : Met Dir Ecc) (s : State) : exec (.spillReturn chan dir) s = execSpillReturn chan dir s := rfl
@[simp] theorem exec_linkDown (q : Port) (s : State) : exec (.linkDown q) s = execLinkDown q s := rfl
@[simp] theorem exec_quarantineTest (granule : Nat) (pass : Bool) (s : State) : exec (.quarantineTest granule pass) s = execQuarantineTest granule pass s := rfl
@[simp] theorem exec_classEntryRewrite (key : ClassKey) (s : State) : exec (.classEntryRewrite key) s = execClassEntryRewrite key s := rfl
@[simp] theorem exec_chanDrainDone (chan : Nat) (s : State) : exec (.chanDrainDone chan) s = execChanDrainDone chan s := rfl
@[simp] theorem exec_slotRetire (chan : Nat) (s : State) : exec (.slotRetire chan) s = execSlotRetire chan s := rfl
@[simp] theorem exec_mkpduReceive (ca : Nat) (link : Bool) (s : State) : exec (.mkpduReceive ca link) s = execMkpduReceive ca link s := rfl
@[simp] theorem exec_mkpduSend (ca : Nat) (s : State) : exec (.mkpduSend ca) s = execMkpduSend ca s := rfl
@[simp] theorem exec_peerLifeExpire (ca : Nat) (peer : Nat) (s : State) : exec (.peerLifeExpire ca peer) s = execPeerLifeExpire ca peer s := rfl
@[simp] theorem exec_rekeyInterval (ca : Nat) (s : State) : exec (.rekeyInterval ca) s = execRekeyInterval ca s := rfl
@[simp] theorem exec_rekeyStart (ca : Nat) (s : State) : exec (.rekeyStart ca) s = execRekeyStart ca s := rfl
@[simp] theorem exec_zeroizeComplete (s : State) : exec .zeroizeComplete s = execZeroizeComplete s := rfl
@[simp] theorem exec_lockstepMismatch (s : State) : exec .lockstepMismatch s = execLockstepMismatch s := rfl
@[simp] theorem exec_masterAccess (acc : Access) (ecc : Ecc) (s : State) : exec (.masterAccess acc ecc) s = execMasterAccess acc ecc s := rfl
@[simp] theorem exec_mpuHold (by_ : Option Pf) (s : State) : exec (.mpuHold by_) s = execMpuHold by_ s := rfl
@[simp] theorem exec_mpuDrained (s : State) : exec .mpuDrained s = execMpuDrained s := rfl
@[simp] theorem exec_mpuRelease (by_ : Releaser) (s : State) : exec (.mpuRelease by_) s = execMpuRelease by_ s := rfl
@[simp] theorem exec_mpuHoldLong (s : State) : exec .mpuHoldLong s = execMpuHoldLong s := rfl
@[simp] theorem exec_imeSweepRequest (by_ : Option Pf) (index : Nat) (s : State) : exec (.imeSweepRequest by_ index) s = execImeSweepRequest by_ index s := rfl
@[simp] theorem exec_imeSweepStart (s : State) : exec .imeSweepStart s = execImeSweepStart s := rfl
@[simp] theorem exec_imeSweepLine (ecc : Ecc) (s : State) : exec (.imeSweepLine ecc) s = execImeSweepLine ecc s := rfl
@[simp] theorem exec_imeSweepDone (s : State) : exec .imeSweepDone s = execImeSweepDone s := rfl
@[simp] theorem exec_imeCeClear (pf : Pf) (s : State) : exec (.imeCeClear pf) s = execImeCeClear pf s := rfl
@[simp] theorem exec_maskReseed (cluster : ClusterNo) (s : State) : exec (.maskReseed cluster) s = execMaskReseed cluster s := rfl
@[simp] theorem exec_drbgReseed (s : State) : exec .drbgReseed s = execDrbgReseed s := rfl
@[simp] theorem exec_entropyFail (s : State) : exec .entropyFail s = execEntropyFail s := rfl
@[simp] theorem exec_entropyHoldExpire (s : State) : exec .entropyHoldExpire s = execEntropyHoldExpire s := rfl
@[simp] theorem exec_entropyRecover (s : State) : exec .entropyRecover s = execEntropyRecover s := rfl
@[simp] theorem exec_remaskLine (space : KeySpace) (index : Nat) (s : State) : exec (.remaskLine space index) s = execRemaskLine space index s := rfl
@[simp] theorem exec_drkRemask (s : State) : exec .drkRemask s = execDrkRemask s := rfl
@[simp] theorem exec_laDescProdWrite (pf : Pf) (queue : LaNo) (value : W32) (s : State) : exec (.laDescProdWrite pf queue value) s = execLaDescProdWrite pf queue value s := rfl
@[simp] theorem exec_laDescriptorFetch (queue : Met LaNo Ecc) (s : State) : exec (.laDescriptorFetch queue) s = execLaDescriptorFetch queue s := rfl
@[simp] theorem exec_laChunk (queue : Met LaNo Errs) (s : State) : exec (.laChunk queue) s = execLaChunk queue s := rfl
@[simp] theorem exec_laComplete (queue : Met LaNo Errs) (s : State) : exec (.laComplete queue) s = execLaComplete queue s := rfl
@[simp] theorem exec_ringProdWrite (pf : Pf) (ring : RingNo) (value : W32) (s : State) : exec (.ringProdWrite pf ring value) s = execRingProdWrite pf ring value s := rfl
@[simp] theorem exec_puntDeliver (ring : RingNo) (errs : Errs) (s : State) : exec (.puntDeliver ring errs) s = execPuntDeliver ring errs s := rfl
@[simp] theorem exec_ringStarve (ring : RingNo) (s : State) : exec (.ringStarve ring) s = execRingStarve ring s := rfl
@[simp] theorem exec_txDescriptor (ring : Met RingNo Ecc) (s : State) : exec (.txDescriptor ring) s = execTxDescriptor ring s := rfl
@[simp] theorem exec_irqRearm (pf : Pf) (vector : VecNo) (s : State) : exec (.irqRearm pf vector) s = execIrqRearm pf vector s := rfl
@[simp] theorem exec_irqMapWrite (pf : Pf) (event : Nat) (value : W32) (s : State) : exec (.irqMapWrite pf event value) s = execIrqMapWrite pf event value s := rfl
@[simp] theorem exec_msixUnmask (vector : VecNo) (s : State) : exec (.msixUnmask vector) s = execMsixUnmask vector s := rfl
@[simp] theorem exec_dpWindowRead (offset : Nat) (len : Met Nat Ecc) (s : State) : exec (.dpWindowRead offset len) s = execDpWindowRead offset len s := rfl
@[simp] theorem exec_dpWindowWrite (offset : Nat) (data : Met MaskedBytes Ecc) (s : State) : exec (.dpWindowWrite offset data) s = execDpWindowWrite offset data s := rfl
@[simp] theorem exec_tmpLogSelWrite (pf : Pf) (seq : W32) (s : State) : exec (.tmpLogSelWrite pf seq) s = execTmpLogSelWrite pf seq s := rfl
@[simp] theorem exec_registerWrite (pf : Pf) (offset : Nat) (value : W32) (s : State) : exec (.registerWrite pf offset value) s = execRegisterWrite pf offset value s := rfl
@[simp] theorem exec_tamperAssert (sources : NatList) (s : State) : exec (.tamperAssert sources) s = execTamperAssert sources s := rfl
@[simp] theorem exec_tamperClear (source : SrcNo) (s : State) : exec (.tamperClear source) s = execTamperClear source s := rfl
@[simp] theorem exec_suppressedFlush (s : State) : exec .suppressedFlush s = execSuppressedFlush s := rfl
@[simp] theorem exec_timeLink (s : State) : exec .timeLink s = execTimeLink s := rfl
@[simp] theorem exec_backupCellsLost (s : State) : exec .backupCellsLost s = execBackupCellsLost s := rfl
@[simp] theorem exec_i2cWrite (bytes : Bytes) (s : State) : exec (.i2cWrite bytes) s = execI2cWrite bytes s := rfl
@[simp] theorem exec_i2cRead (count : Nat) (s : State) : exec (.i2cRead count) s = execI2cRead count s := rfl
@[simp] theorem exec_i2cSnapshot (s : State) : exec .i2cSnapshot s = execI2cSnapshot s := rfl
@[simp] theorem exec_leaseRenewSend (s : State) : exec .leaseRenewSend s = execLeaseRenewSend s := rfl
@[simp] theorem exec_leaseRenew (seq : Nat) (echo : Nat) (s : State) : exec (.leaseRenew seq echo) s = execLeaseRenew seq echo s := rfl
@[simp] theorem exec_leaseAck (seq : Nat) (st : Nat) (s : State) : exec (.leaseAck seq st) s = execLeaseAck seq st s := rfl
@[simp] theorem exec_leaseExpire (s : State) : exec .leaseExpire s = execLeaseExpire s := rfl
@[simp] theorem exec_leaseTakeover (s : State) : exec .leaseTakeover s = execLeaseTakeover s := rfl
@[simp] theorem exec_leaseFirstTake (s : State) : exec .leaseFirstTake s = execLeaseFirstTake s := rfl
@[simp] theorem exec_halting (cause : Nat) (s : State) : exec (.halting cause) s = execHalting cause s := rfl
@[simp] theorem exec_handover (step : Nat) (s : State) : exec (.handover step) s = execHandover step s := rfl
@[simp] theorem exec_handoverDrainEnd (s : State) : exec .handoverDrainEnd s = execHandoverDrainEnd s := rfl
@[simp] theorem exec_watermarkSend (s : State) : exec .watermarkSend s = execWatermarkSend s := rfl
@[simp] theorem exec_watermark (batch : Nat) (entries : Marks) (s : State) : exec (.watermark batch entries) s = execWatermark batch entries s := rfl
@[simp] theorem exec_wmAck (batch : Nat) (s : State) : exec (.wmAck batch) s = execWmAck batch s := rfl
@[simp] theorem exec_mirror (object : Nat) (version : Nat) (body : Bytes) (s : State) : exec (.mirror object version body) s = execMirror object version body s := rfl
@[simp] theorem exec_mirrorAck (object : Nat) (version : Nat) (status : Nat) (s : State) : exec (.mirrorAck object version status) s = execMirrorAck object version status s := rfl
@[simp] theorem exec_mirrorAckTimeout (object : Nat) (s : State) : exec (.mirrorAckTimeout object) s = execMirrorAckTimeout object s := rfl
@[simp] theorem exec_state (mode : Nat) (ready : Nat) (spares : Nat) (degrade : Nat) (s : State) : exec (.state mode ready spares degrade) s = execState mode ready spares degrade s := rfl
@[simp] theorem exec_timeCmpSend (s : State) : exec .timeCmpSend s = execTimeCmpSend s := rfl
@[simp] theorem exec_timeCmp (seconds : Nat) (ns : Nat) (fraction : Nat) (s : State) : exec (.timeCmp seconds ns fraction) s = execTimeCmp seconds ns fraction s := rfl
@[simp] theorem exec_pairPart (part : Nat) (total : Nat) (data : Bytes) (s : State) : exec (.pairPart part total data) s = execPairPart part total data s := rfl
@[simp] theorem exec_pairConfirm (tag : Nat) (s : State) : exec (.pairConfirm tag) s = execPairConfirm tag s := rfl
@[simp] theorem exec_pairingRetry (s : State) : exec .pairingRetry s = execPairingRetry s := rfl
@[simp] theorem exec_linkUp (q : Port) (s : State) : exec (.linkUp q) s = execLinkUp q s := rfl
@[simp] theorem exec_preemptVerify (q : Port) (ok : Bool) (s : State) : exec (.preemptVerify q ok) s = execPreemptVerify q ok s := rfl
@[simp] theorem exec_refclkSgRestored (group : SgNo) (s : State) : exec (.refclkSgRestored group) s = execRefclkSgRestored group s := rfl
@[simp] theorem exec_serviceEntryTimeout (s : State) : exec .serviceEntryTimeout s = execServiceEntryTimeout s := rfl
@[simp] theorem exec_msixEnable (s : State) : exec .msixEnable s = execMsixEnable s := rfl
@[simp] theorem exec_fillDrbgReseed (wport : WPort) (s : State) : exec (.fillDrbgReseed wport) s = execFillDrbgReseed wport s := rfl
@[simp] theorem exec_boundaryScan (instruction : TapInstr) (s : State) : exec (.boundaryScan instruction) s = execBoundaryScan instruction s := rfl

end Sys2Proof.Machine
end

