-- ==== Sys2Proof/Laws/State.lean ====
section
/-! SUPPORT. One lemma per field and update of State: what each part-wise update changes and what it keeps. -/

namespace Sys2Proof.Machine

@[simp] theorem onGlb_glb (f : Glb → Glb) (s : State) : (onGlb f s).glb = f s.glb := rfl
@[simp] theorem onGlb_nvm (f : Glb → Glb) (s : State) : (onGlb f s).nvm = s.nvm := rfl
@[simp] theorem onGlb_time (f : Glb → Glb) (s : State) : (onGlb f s).time = s.time := rfl
@[simp] theorem onGlb_pmu (f : Glb → Glb) (s : State) : (onGlb f s).pmu = s.pmu := rfl
@[simp] theorem onGlb_stp (f : Glb → Glb) (s : State) : (onGlb f s).stp = s.stp := rfl
@[simp] theorem onGlb_keys (f : Glb → Glb) (s : State) : (onGlb f s).keys = s.keys := rfl
@[simp] theorem onGlb_mem (f : Glb → Glb) (s : State) : (onGlb f s).mem = s.mem := rfl
@[simp] theorem onGlb_traffic (f : Glb → Glb) (s : State) : (onGlb f s).traffic = s.traffic := rfl
@[simp] theorem onGlb_wh (f : Glb → Glb) (s : State) : (onGlb f s).wh = s.wh := rfl
@[simp] theorem onGlb_objs (f : Glb → Glb) (s : State) : (onGlb f s).objs = s.objs := rfl
@[simp] theorem onGlb_la (f : Glb → Glb) (s : State) : (onGlb f s).la = s.la := rfl
@[simp] theorem onGlb_laTurn (f : Glb → Glb) (s : State) : (onGlb f s).laTurn = s.laTurn := rfl
@[simp] theorem onGlb_laFloorAt (f : Glb → Glb) (s : State) : (onGlb f s).laFloorAt = s.laFloorAt := rfl
@[simp] theorem onGlb_reqs (f : Glb → Glb) (s : State) : (onGlb f s).reqs = s.reqs := rfl
@[simp] theorem onGlb_rings (f : Glb → Glb) (s : State) : (onGlb f s).rings = s.rings := rfl
@[simp] theorem onGlb_irq (f : Glb → Glb) (s : State) : (onGlb f s).irq = s.irq := rfl
@[simp] theorem onGlb_dp (f : Glb → Glb) (s : State) : (onGlb f s).dp = s.dp := rfl
@[simp] theorem onGlb_perf (f : Glb → Glb) (s : State) : (onGlb f s).perf = s.perf := rfl
@[simp] theorem onGlb_mbx (f : Glb → Glb) (s : State) : (onGlb f s).mbx = s.mbx := rfl
@[simp] theorem onGlb_cas (f : Glb → Glb) (s : State) : (onGlb f s).cas = s.cas := rfl
@[simp] theorem onGlb_pair (f : Glb → Glb) (s : State) : (onGlb f s).pair = s.pair := rfl
@[simp] theorem onGlb_maint (f : Glb → Glb) (s : State) : (onGlb f s).maint = s.maint := rfl
@[simp] theorem onGlb_i2c (f : Glb → Glb) (s : State) : (onGlb f s).i2c = s.i2c := rfl
@[simp] theorem onGlb_tap (f : Glb → Glb) (s : State) : (onGlb f s).tap = s.tap := rfl
@[simp] theorem onGlb_rng (f : Glb → Glb) (s : State) : (onGlb f s).rng = s.rng := rfl
@[simp] theorem onGlb_out (f : Glb → Glb) (s : State) : (onGlb f s).out = s.out := rfl
@[simp] theorem onGlb_pending (f : Glb → Glb) (s : State) : (onGlb f s).pending = s.pending := rfl

@[simp] theorem onNvm_glb (f : Nvm → Nvm) (s : State) : (onNvm f s).glb = s.glb := rfl
@[simp] theorem onNvm_nvm (f : Nvm → Nvm) (s : State) : (onNvm f s).nvm = f s.nvm := rfl
@[simp] theorem onNvm_time (f : Nvm → Nvm) (s : State) : (onNvm f s).time = s.time := rfl
@[simp] theorem onNvm_pmu (f : Nvm → Nvm) (s : State) : (onNvm f s).pmu = s.pmu := rfl
@[simp] theorem onNvm_stp (f : Nvm → Nvm) (s : State) : (onNvm f s).stp = s.stp := rfl
@[simp] theorem onNvm_keys (f : Nvm → Nvm) (s : State) : (onNvm f s).keys = s.keys := rfl
@[simp] theorem onNvm_mem (f : Nvm → Nvm) (s : State) : (onNvm f s).mem = s.mem := rfl
@[simp] theorem onNvm_traffic (f : Nvm → Nvm) (s : State) : (onNvm f s).traffic = s.traffic := rfl
@[simp] theorem onNvm_wh (f : Nvm → Nvm) (s : State) : (onNvm f s).wh = s.wh := rfl
@[simp] theorem onNvm_objs (f : Nvm → Nvm) (s : State) : (onNvm f s).objs = s.objs := rfl
@[simp] theorem onNvm_la (f : Nvm → Nvm) (s : State) : (onNvm f s).la = s.la := rfl
@[simp] theorem onNvm_laTurn (f : Nvm → Nvm) (s : State) : (onNvm f s).laTurn = s.laTurn := rfl
@[simp] theorem onNvm_laFloorAt (f : Nvm → Nvm) (s : State) : (onNvm f s).laFloorAt = s.laFloorAt := rfl
@[simp] theorem onNvm_reqs (f : Nvm → Nvm) (s : State) : (onNvm f s).reqs = s.reqs := rfl
@[simp] theorem onNvm_rings (f : Nvm → Nvm) (s : State) : (onNvm f s).rings = s.rings := rfl
@[simp] theorem onNvm_irq (f : Nvm → Nvm) (s : State) : (onNvm f s).irq = s.irq := rfl
@[simp] theorem onNvm_dp (f : Nvm → Nvm) (s : State) : (onNvm f s).dp = s.dp := rfl
@[simp] theorem onNvm_perf (f : Nvm → Nvm) (s : State) : (onNvm f s).perf = s.perf := rfl
@[simp] theorem onNvm_mbx (f : Nvm → Nvm) (s : State) : (onNvm f s).mbx = s.mbx := rfl
@[simp] theorem onNvm_cas (f : Nvm → Nvm) (s : State) : (onNvm f s).cas = s.cas := rfl
@[simp] theorem onNvm_pair (f : Nvm → Nvm) (s : State) : (onNvm f s).pair = s.pair := rfl
@[simp] theorem onNvm_maint (f : Nvm → Nvm) (s : State) : (onNvm f s).maint = s.maint := rfl
@[simp] theorem onNvm_i2c (f : Nvm → Nvm) (s : State) : (onNvm f s).i2c = s.i2c := rfl
@[simp] theorem onNvm_tap (f : Nvm → Nvm) (s : State) : (onNvm f s).tap = s.tap := rfl
@[simp] theorem onNvm_rng (f : Nvm → Nvm) (s : State) : (onNvm f s).rng = s.rng := rfl
@[simp] theorem onNvm_out (f : Nvm → Nvm) (s : State) : (onNvm f s).out = s.out := rfl
@[simp] theorem onNvm_pending (f : Nvm → Nvm) (s : State) : (onNvm f s).pending = s.pending := rfl

@[simp] theorem onTime_glb (f : TimeBlk → TimeBlk) (s : State) : (onTime f s).glb = s.glb := rfl
@[simp] theorem onTime_nvm (f : TimeBlk → TimeBlk) (s : State) : (onTime f s).nvm = s.nvm := rfl
@[simp] theorem onTime_time (f : TimeBlk → TimeBlk) (s : State) : (onTime f s).time = f s.time := rfl
@[simp] theorem onTime_pmu (f : TimeBlk → TimeBlk) (s : State) : (onTime f s).pmu = s.pmu := rfl
@[simp] theorem onTime_stp (f : TimeBlk → TimeBlk) (s : State) : (onTime f s).stp = s.stp := rfl
@[simp] theorem onTime_keys (f : TimeBlk → TimeBlk) (s : State) : (onTime f s).keys = s.keys := rfl
@[simp] theorem onTime_mem (f : TimeBlk → TimeBlk) (s : State) : (onTime f s).mem = s.mem := rfl
@[simp] theorem onTime_traffic (f : TimeBlk → TimeBlk) (s : State) : (onTime f s).traffic = s.traffic := rfl
@[simp] theorem onTime_wh (f : TimeBlk → TimeBlk) (s : State) : (onTime f s).wh = s.wh := rfl
@[simp] theorem onTime_objs (f : TimeBlk → TimeBlk) (s : State) : (onTime f s).objs = s.objs := rfl
@[simp] theorem onTime_la (f : TimeBlk → TimeBlk) (s : State) : (onTime f s).la = s.la := rfl
@[simp] theorem onTime_laTurn (f : TimeBlk → TimeBlk) (s : State) : (onTime f s).laTurn = s.laTurn := rfl
@[simp] theorem onTime_laFloorAt (f : TimeBlk → TimeBlk) (s : State) : (onTime f s).laFloorAt = s.laFloorAt := rfl
@[simp] theorem onTime_reqs (f : TimeBlk → TimeBlk) (s : State) : (onTime f s).reqs = s.reqs := rfl
@[simp] theorem onTime_rings (f : TimeBlk → TimeBlk) (s : State) : (onTime f s).rings = s.rings := rfl
@[simp] theorem onTime_irq (f : TimeBlk → TimeBlk) (s : State) : (onTime f s).irq = s.irq := rfl
@[simp] theorem onTime_dp (f : TimeBlk → TimeBlk) (s : State) : (onTime f s).dp = s.dp := rfl
@[simp] theorem onTime_perf (f : TimeBlk → TimeBlk) (s : State) : (onTime f s).perf = s.perf := rfl
@[simp] theorem onTime_mbx (f : TimeBlk → TimeBlk) (s : State) : (onTime f s).mbx = s.mbx := rfl
@[simp] theorem onTime_cas (f : TimeBlk → TimeBlk) (s : State) : (onTime f s).cas = s.cas := rfl
@[simp] theorem onTime_pair (f : TimeBlk → TimeBlk) (s : State) : (onTime f s).pair = s.pair := rfl
@[simp] theorem onTime_maint (f : TimeBlk → TimeBlk) (s : State) : (onTime f s).maint = s.maint := rfl
@[simp] theorem onTime_i2c (f : TimeBlk → TimeBlk) (s : State) : (onTime f s).i2c = s.i2c := rfl
@[simp] theorem onTime_tap (f : TimeBlk → TimeBlk) (s : State) : (onTime f s).tap = s.tap := rfl
@[simp] theorem onTime_rng (f : TimeBlk → TimeBlk) (s : State) : (onTime f s).rng = s.rng := rfl
@[simp] theorem onTime_out (f : TimeBlk → TimeBlk) (s : State) : (onTime f s).out = s.out := rfl
@[simp] theorem onTime_pending (f : TimeBlk → TimeBlk) (s : State) : (onTime f s).pending = s.pending := rfl

@[simp] theorem onPmu_glb (f : Pmu → Pmu) (s : State) : (onPmu f s).glb = s.glb := rfl
@[simp] theorem onPmu_nvm (f : Pmu → Pmu) (s : State) : (onPmu f s).nvm = s.nvm := rfl
@[simp] theorem onPmu_time (f : Pmu → Pmu) (s : State) : (onPmu f s).time = s.time := rfl
@[simp] theorem onPmu_pmu (f : Pmu → Pmu) (s : State) : (onPmu f s).pmu = f s.pmu := rfl
@[simp] theorem onPmu_stp (f : Pmu → Pmu) (s : State) : (onPmu f s).stp = s.stp := rfl
@[simp] theorem onPmu_keys (f : Pmu → Pmu) (s : State) : (onPmu f s).keys = s.keys := rfl
@[simp] theorem onPmu_mem (f : Pmu → Pmu) (s : State) : (onPmu f s).mem = s.mem := rfl
@[simp] theorem onPmu_traffic (f : Pmu → Pmu) (s : State) : (onPmu f s).traffic = s.traffic := rfl
@[simp] theorem onPmu_wh (f : Pmu → Pmu) (s : State) : (onPmu f s).wh = s.wh := rfl
@[simp] theorem onPmu_objs (f : Pmu → Pmu) (s : State) : (onPmu f s).objs = s.objs := rfl
@[simp] theorem onPmu_la (f : Pmu → Pmu) (s : State) : (onPmu f s).la = s.la := rfl
@[simp] theorem onPmu_laTurn (f : Pmu → Pmu) (s : State) : (onPmu f s).laTurn = s.laTurn := rfl
@[simp] theorem onPmu_laFloorAt (f : Pmu → Pmu) (s : State) : (onPmu f s).laFloorAt = s.laFloorAt := rfl
@[simp] theorem onPmu_reqs (f : Pmu → Pmu) (s : State) : (onPmu f s).reqs = s.reqs := rfl
@[simp] theorem onPmu_rings (f : Pmu → Pmu) (s : State) : (onPmu f s).rings = s.rings := rfl
@[simp] theorem onPmu_irq (f : Pmu → Pmu) (s : State) : (onPmu f s).irq = s.irq := rfl
@[simp] theorem onPmu_dp (f : Pmu → Pmu) (s : State) : (onPmu f s).dp = s.dp := rfl
@[simp] theorem onPmu_perf (f : Pmu → Pmu) (s : State) : (onPmu f s).perf = s.perf := rfl
@[simp] theorem onPmu_mbx (f : Pmu → Pmu) (s : State) : (onPmu f s).mbx = s.mbx := rfl
@[simp] theorem onPmu_cas (f : Pmu → Pmu) (s : State) : (onPmu f s).cas = s.cas := rfl
@[simp] theorem onPmu_pair (f : Pmu → Pmu) (s : State) : (onPmu f s).pair = s.pair := rfl
@[simp] theorem onPmu_maint (f : Pmu → Pmu) (s : State) : (onPmu f s).maint = s.maint := rfl
@[simp] theorem onPmu_i2c (f : Pmu → Pmu) (s : State) : (onPmu f s).i2c = s.i2c := rfl
@[simp] theorem onPmu_tap (f : Pmu → Pmu) (s : State) : (onPmu f s).tap = s.tap := rfl
@[simp] theorem onPmu_rng (f : Pmu → Pmu) (s : State) : (onPmu f s).rng = s.rng := rfl
@[simp] theorem onPmu_out (f : Pmu → Pmu) (s : State) : (onPmu f s).out = s.out := rfl
@[simp] theorem onPmu_pending (f : Pmu → Pmu) (s : State) : (onPmu f s).pending = s.pending := rfl

@[simp] theorem onStp_glb (f : Stp → Stp) (s : State) : (onStp f s).glb = s.glb := rfl
@[simp] theorem onStp_nvm (f : Stp → Stp) (s : State) : (onStp f s).nvm = s.nvm := rfl
@[simp] theorem onStp_time (f : Stp → Stp) (s : State) : (onStp f s).time = s.time := rfl
@[simp] theorem onStp_pmu (f : Stp → Stp) (s : State) : (onStp f s).pmu = s.pmu := rfl
@[simp] theorem onStp_stp (f : Stp → Stp) (s : State) : (onStp f s).stp = f s.stp := rfl
@[simp] theorem onStp_keys (f : Stp → Stp) (s : State) : (onStp f s).keys = s.keys := rfl
@[simp] theorem onStp_mem (f : Stp → Stp) (s : State) : (onStp f s).mem = s.mem := rfl
@[simp] theorem onStp_traffic (f : Stp → Stp) (s : State) : (onStp f s).traffic = s.traffic := rfl
@[simp] theorem onStp_wh (f : Stp → Stp) (s : State) : (onStp f s).wh = s.wh := rfl
@[simp] theorem onStp_objs (f : Stp → Stp) (s : State) : (onStp f s).objs = s.objs := rfl
@[simp] theorem onStp_la (f : Stp → Stp) (s : State) : (onStp f s).la = s.la := rfl
@[simp] theorem onStp_laTurn (f : Stp → Stp) (s : State) : (onStp f s).laTurn = s.laTurn := rfl
@[simp] theorem onStp_laFloorAt (f : Stp → Stp) (s : State) : (onStp f s).laFloorAt = s.laFloorAt := rfl
@[simp] theorem onStp_reqs (f : Stp → Stp) (s : State) : (onStp f s).reqs = s.reqs := rfl
@[simp] theorem onStp_rings (f : Stp → Stp) (s : State) : (onStp f s).rings = s.rings := rfl
@[simp] theorem onStp_irq (f : Stp → Stp) (s : State) : (onStp f s).irq = s.irq := rfl
@[simp] theorem onStp_dp (f : Stp → Stp) (s : State) : (onStp f s).dp = s.dp := rfl
@[simp] theorem onStp_perf (f : Stp → Stp) (s : State) : (onStp f s).perf = s.perf := rfl
@[simp] theorem onStp_mbx (f : Stp → Stp) (s : State) : (onStp f s).mbx = s.mbx := rfl
@[simp] theorem onStp_cas (f : Stp → Stp) (s : State) : (onStp f s).cas = s.cas := rfl
@[simp] theorem onStp_pair (f : Stp → Stp) (s : State) : (onStp f s).pair = s.pair := rfl
@[simp] theorem onStp_maint (f : Stp → Stp) (s : State) : (onStp f s).maint = s.maint := rfl
@[simp] theorem onStp_i2c (f : Stp → Stp) (s : State) : (onStp f s).i2c = s.i2c := rfl
@[simp] theorem onStp_tap (f : Stp → Stp) (s : State) : (onStp f s).tap = s.tap := rfl
@[simp] theorem onStp_rng (f : Stp → Stp) (s : State) : (onStp f s).rng = s.rng := rfl
@[simp] theorem onStp_out (f : Stp → Stp) (s : State) : (onStp f s).out = s.out := rfl
@[simp] theorem onStp_pending (f : Stp → Stp) (s : State) : (onStp f s).pending = s.pending := rfl

@[simp] theorem onKeys_glb (f : Keys → Keys) (s : State) : (onKeys f s).glb = s.glb := rfl
@[simp] theorem onKeys_nvm (f : Keys → Keys) (s : State) : (onKeys f s).nvm = s.nvm := rfl
@[simp] theorem onKeys_time (f : Keys → Keys) (s : State) : (onKeys f s).time = s.time := rfl
@[simp] theorem onKeys_pmu (f : Keys → Keys) (s : State) : (onKeys f s).pmu = s.pmu := rfl
@[simp] theorem onKeys_stp (f : Keys → Keys) (s : State) : (onKeys f s).stp = s.stp := rfl
@[simp] theorem onKeys_keys (f : Keys → Keys) (s : State) : (onKeys f s).keys = f s.keys := rfl
@[simp] theorem onKeys_mem (f : Keys → Keys) (s : State) : (onKeys f s).mem = s.mem := rfl
@[simp] theorem onKeys_traffic (f : Keys → Keys) (s : State) : (onKeys f s).traffic = s.traffic := rfl
@[simp] theorem onKeys_wh (f : Keys → Keys) (s : State) : (onKeys f s).wh = s.wh := rfl
@[simp] theorem onKeys_objs (f : Keys → Keys) (s : State) : (onKeys f s).objs = s.objs := rfl
@[simp] theorem onKeys_la (f : Keys → Keys) (s : State) : (onKeys f s).la = s.la := rfl
@[simp] theorem onKeys_laTurn (f : Keys → Keys) (s : State) : (onKeys f s).laTurn = s.laTurn := rfl
@[simp] theorem onKeys_laFloorAt (f : Keys → Keys) (s : State) : (onKeys f s).laFloorAt = s.laFloorAt := rfl
@[simp] theorem onKeys_reqs (f : Keys → Keys) (s : State) : (onKeys f s).reqs = s.reqs := rfl
@[simp] theorem onKeys_rings (f : Keys → Keys) (s : State) : (onKeys f s).rings = s.rings := rfl
@[simp] theorem onKeys_irq (f : Keys → Keys) (s : State) : (onKeys f s).irq = s.irq := rfl
@[simp] theorem onKeys_dp (f : Keys → Keys) (s : State) : (onKeys f s).dp = s.dp := rfl
@[simp] theorem onKeys_perf (f : Keys → Keys) (s : State) : (onKeys f s).perf = s.perf := rfl
@[simp] theorem onKeys_mbx (f : Keys → Keys) (s : State) : (onKeys f s).mbx = s.mbx := rfl
@[simp] theorem onKeys_cas (f : Keys → Keys) (s : State) : (onKeys f s).cas = s.cas := rfl
@[simp] theorem onKeys_pair (f : Keys → Keys) (s : State) : (onKeys f s).pair = s.pair := rfl
@[simp] theorem onKeys_maint (f : Keys → Keys) (s : State) : (onKeys f s).maint = s.maint := rfl
@[simp] theorem onKeys_i2c (f : Keys → Keys) (s : State) : (onKeys f s).i2c = s.i2c := rfl
@[simp] theorem onKeys_tap (f : Keys → Keys) (s : State) : (onKeys f s).tap = s.tap := rfl
@[simp] theorem onKeys_rng (f : Keys → Keys) (s : State) : (onKeys f s).rng = s.rng := rfl
@[simp] theorem onKeys_out (f : Keys → Keys) (s : State) : (onKeys f s).out = s.out := rfl
@[simp] theorem onKeys_pending (f : Keys → Keys) (s : State) : (onKeys f s).pending = s.pending := rfl

@[simp] theorem onMem_glb (f : Mem → Mem) (s : State) : (onMem f s).glb = s.glb := rfl
@[simp] theorem onMem_nvm (f : Mem → Mem) (s : State) : (onMem f s).nvm = s.nvm := rfl
@[simp] theorem onMem_time (f : Mem → Mem) (s : State) : (onMem f s).time = s.time := rfl
@[simp] theorem onMem_pmu (f : Mem → Mem) (s : State) : (onMem f s).pmu = s.pmu := rfl
@[simp] theorem onMem_stp (f : Mem → Mem) (s : State) : (onMem f s).stp = s.stp := rfl
@[simp] theorem onMem_keys (f : Mem → Mem) (s : State) : (onMem f s).keys = s.keys := rfl
@[simp] theorem onMem_mem (f : Mem → Mem) (s : State) : (onMem f s).mem = f s.mem := rfl
@[simp] theorem onMem_traffic (f : Mem → Mem) (s : State) : (onMem f s).traffic = s.traffic := rfl
@[simp] theorem onMem_wh (f : Mem → Mem) (s : State) : (onMem f s).wh = s.wh := rfl
@[simp] theorem onMem_objs (f : Mem → Mem) (s : State) : (onMem f s).objs = s.objs := rfl
@[simp] theorem onMem_la (f : Mem → Mem) (s : State) : (onMem f s).la = s.la := rfl
@[simp] theorem onMem_laTurn (f : Mem → Mem) (s : State) : (onMem f s).laTurn = s.laTurn := rfl
@[simp] theorem onMem_laFloorAt (f : Mem → Mem) (s : State) : (onMem f s).laFloorAt = s.laFloorAt := rfl
@[simp] theorem onMem_reqs (f : Mem → Mem) (s : State) : (onMem f s).reqs = s.reqs := rfl
@[simp] theorem onMem_rings (f : Mem → Mem) (s : State) : (onMem f s).rings = s.rings := rfl
@[simp] theorem onMem_irq (f : Mem → Mem) (s : State) : (onMem f s).irq = s.irq := rfl
@[simp] theorem onMem_dp (f : Mem → Mem) (s : State) : (onMem f s).dp = s.dp := rfl
@[simp] theorem onMem_perf (f : Mem → Mem) (s : State) : (onMem f s).perf = s.perf := rfl
@[simp] theorem onMem_mbx (f : Mem → Mem) (s : State) : (onMem f s).mbx = s.mbx := rfl
@[simp] theorem onMem_cas (f : Mem → Mem) (s : State) : (onMem f s).cas = s.cas := rfl
@[simp] theorem onMem_pair (f : Mem → Mem) (s : State) : (onMem f s).pair = s.pair := rfl
@[simp] theorem onMem_maint (f : Mem → Mem) (s : State) : (onMem f s).maint = s.maint := rfl
@[simp] theorem onMem_i2c (f : Mem → Mem) (s : State) : (onMem f s).i2c = s.i2c := rfl
@[simp] theorem onMem_tap (f : Mem → Mem) (s : State) : (onMem f s).tap = s.tap := rfl
@[simp] theorem onMem_rng (f : Mem → Mem) (s : State) : (onMem f s).rng = s.rng := rfl
@[simp] theorem onMem_out (f : Mem → Mem) (s : State) : (onMem f s).out = s.out := rfl
@[simp] theorem onMem_pending (f : Mem → Mem) (s : State) : (onMem f s).pending = s.pending := rfl

@[simp] theorem onTraffic_glb (f : Traffic → Traffic) (s : State) : (onTraffic f s).glb = s.glb := rfl
@[simp] theorem onTraffic_nvm (f : Traffic → Traffic) (s : State) : (onTraffic f s).nvm = s.nvm := rfl
@[simp] theorem onTraffic_time (f : Traffic → Traffic) (s : State) : (onTraffic f s).time = s.time := rfl
@[simp] theorem onTraffic_pmu (f : Traffic → Traffic) (s : State) : (onTraffic f s).pmu = s.pmu := rfl
@[simp] theorem onTraffic_stp (f : Traffic → Traffic) (s : State) : (onTraffic f s).stp = s.stp := rfl
@[simp] theorem onTraffic_keys (f : Traffic → Traffic) (s : State) : (onTraffic f s).keys = s.keys := rfl
@[simp] theorem onTraffic_mem (f : Traffic → Traffic) (s : State) : (onTraffic f s).mem = s.mem := rfl
@[simp] theorem onTraffic_traffic (f : Traffic → Traffic) (s : State) : (onTraffic f s).traffic = f s.traffic := rfl
@[simp] theorem onTraffic_wh (f : Traffic → Traffic) (s : State) : (onTraffic f s).wh = s.wh := rfl
@[simp] theorem onTraffic_objs (f : Traffic → Traffic) (s : State) : (onTraffic f s).objs = s.objs := rfl
@[simp] theorem onTraffic_la (f : Traffic → Traffic) (s : State) : (onTraffic f s).la = s.la := rfl
@[simp] theorem onTraffic_laTurn (f : Traffic → Traffic) (s : State) : (onTraffic f s).laTurn = s.laTurn := rfl
@[simp] theorem onTraffic_laFloorAt (f : Traffic → Traffic) (s : State) : (onTraffic f s).laFloorAt = s.laFloorAt := rfl
@[simp] theorem onTraffic_reqs (f : Traffic → Traffic) (s : State) : (onTraffic f s).reqs = s.reqs := rfl
@[simp] theorem onTraffic_rings (f : Traffic → Traffic) (s : State) : (onTraffic f s).rings = s.rings := rfl
@[simp] theorem onTraffic_irq (f : Traffic → Traffic) (s : State) : (onTraffic f s).irq = s.irq := rfl
@[simp] theorem onTraffic_dp (f : Traffic → Traffic) (s : State) : (onTraffic f s).dp = s.dp := rfl
@[simp] theorem onTraffic_perf (f : Traffic → Traffic) (s : State) : (onTraffic f s).perf = s.perf := rfl
@[simp] theorem onTraffic_mbx (f : Traffic → Traffic) (s : State) : (onTraffic f s).mbx = s.mbx := rfl
@[simp] theorem onTraffic_cas (f : Traffic → Traffic) (s : State) : (onTraffic f s).cas = s.cas := rfl
@[simp] theorem onTraffic_pair (f : Traffic → Traffic) (s : State) : (onTraffic f s).pair = s.pair := rfl
@[simp] theorem onTraffic_maint (f : Traffic → Traffic) (s : State) : (onTraffic f s).maint = s.maint := rfl
@[simp] theorem onTraffic_i2c (f : Traffic → Traffic) (s : State) : (onTraffic f s).i2c = s.i2c := rfl
@[simp] theorem onTraffic_tap (f : Traffic → Traffic) (s : State) : (onTraffic f s).tap = s.tap := rfl
@[simp] theorem onTraffic_rng (f : Traffic → Traffic) (s : State) : (onTraffic f s).rng = s.rng := rfl
@[simp] theorem onTraffic_out (f : Traffic → Traffic) (s : State) : (onTraffic f s).out = s.out := rfl
@[simp] theorem onTraffic_pending (f : Traffic → Traffic) (s : State) : (onTraffic f s).pending = s.pending := rfl

@[simp] theorem onIrq_glb (f : Irq → Irq) (s : State) : (onIrq f s).glb = s.glb := rfl
@[simp] theorem onIrq_nvm (f : Irq → Irq) (s : State) : (onIrq f s).nvm = s.nvm := rfl
@[simp] theorem onIrq_time (f : Irq → Irq) (s : State) : (onIrq f s).time = s.time := rfl
@[simp] theorem onIrq_pmu (f : Irq → Irq) (s : State) : (onIrq f s).pmu = s.pmu := rfl
@[simp] theorem onIrq_stp (f : Irq → Irq) (s : State) : (onIrq f s).stp = s.stp := rfl
@[simp] theorem onIrq_keys (f : Irq → Irq) (s : State) : (onIrq f s).keys = s.keys := rfl
@[simp] theorem onIrq_mem (f : Irq → Irq) (s : State) : (onIrq f s).mem = s.mem := rfl
@[simp] theorem onIrq_traffic (f : Irq → Irq) (s : State) : (onIrq f s).traffic = s.traffic := rfl
@[simp] theorem onIrq_wh (f : Irq → Irq) (s : State) : (onIrq f s).wh = s.wh := rfl
@[simp] theorem onIrq_objs (f : Irq → Irq) (s : State) : (onIrq f s).objs = s.objs := rfl
@[simp] theorem onIrq_la (f : Irq → Irq) (s : State) : (onIrq f s).la = s.la := rfl
@[simp] theorem onIrq_laTurn (f : Irq → Irq) (s : State) : (onIrq f s).laTurn = s.laTurn := rfl
@[simp] theorem onIrq_laFloorAt (f : Irq → Irq) (s : State) : (onIrq f s).laFloorAt = s.laFloorAt := rfl
@[simp] theorem onIrq_reqs (f : Irq → Irq) (s : State) : (onIrq f s).reqs = s.reqs := rfl
@[simp] theorem onIrq_rings (f : Irq → Irq) (s : State) : (onIrq f s).rings = s.rings := rfl
@[simp] theorem onIrq_irq (f : Irq → Irq) (s : State) : (onIrq f s).irq = f s.irq := rfl
@[simp] theorem onIrq_dp (f : Irq → Irq) (s : State) : (onIrq f s).dp = s.dp := rfl
@[simp] theorem onIrq_perf (f : Irq → Irq) (s : State) : (onIrq f s).perf = s.perf := rfl
@[simp] theorem onIrq_mbx (f : Irq → Irq) (s : State) : (onIrq f s).mbx = s.mbx := rfl
@[simp] theorem onIrq_cas (f : Irq → Irq) (s : State) : (onIrq f s).cas = s.cas := rfl
@[simp] theorem onIrq_pair (f : Irq → Irq) (s : State) : (onIrq f s).pair = s.pair := rfl
@[simp] theorem onIrq_maint (f : Irq → Irq) (s : State) : (onIrq f s).maint = s.maint := rfl
@[simp] theorem onIrq_i2c (f : Irq → Irq) (s : State) : (onIrq f s).i2c = s.i2c := rfl
@[simp] theorem onIrq_tap (f : Irq → Irq) (s : State) : (onIrq f s).tap = s.tap := rfl
@[simp] theorem onIrq_rng (f : Irq → Irq) (s : State) : (onIrq f s).rng = s.rng := rfl
@[simp] theorem onIrq_out (f : Irq → Irq) (s : State) : (onIrq f s).out = s.out := rfl
@[simp] theorem onIrq_pending (f : Irq → Irq) (s : State) : (onIrq f s).pending = s.pending := rfl

@[simp] theorem onDp_glb (f : Dp → Dp) (s : State) : (onDp f s).glb = s.glb := rfl
@[simp] theorem onDp_nvm (f : Dp → Dp) (s : State) : (onDp f s).nvm = s.nvm := rfl
@[simp] theorem onDp_time (f : Dp → Dp) (s : State) : (onDp f s).time = s.time := rfl
@[simp] theorem onDp_pmu (f : Dp → Dp) (s : State) : (onDp f s).pmu = s.pmu := rfl
@[simp] theorem onDp_stp (f : Dp → Dp) (s : State) : (onDp f s).stp = s.stp := rfl
@[simp] theorem onDp_keys (f : Dp → Dp) (s : State) : (onDp f s).keys = s.keys := rfl
@[simp] theorem onDp_mem (f : Dp → Dp) (s : State) : (onDp f s).mem = s.mem := rfl
@[simp] theorem onDp_traffic (f : Dp → Dp) (s : State) : (onDp f s).traffic = s.traffic := rfl
@[simp] theorem onDp_wh (f : Dp → Dp) (s : State) : (onDp f s).wh = s.wh := rfl
@[simp] theorem onDp_objs (f : Dp → Dp) (s : State) : (onDp f s).objs = s.objs := rfl
@[simp] theorem onDp_la (f : Dp → Dp) (s : State) : (onDp f s).la = s.la := rfl
@[simp] theorem onDp_laTurn (f : Dp → Dp) (s : State) : (onDp f s).laTurn = s.laTurn := rfl
@[simp] theorem onDp_laFloorAt (f : Dp → Dp) (s : State) : (onDp f s).laFloorAt = s.laFloorAt := rfl
@[simp] theorem onDp_reqs (f : Dp → Dp) (s : State) : (onDp f s).reqs = s.reqs := rfl
@[simp] theorem onDp_rings (f : Dp → Dp) (s : State) : (onDp f s).rings = s.rings := rfl
@[simp] theorem onDp_irq (f : Dp → Dp) (s : State) : (onDp f s).irq = s.irq := rfl
@[simp] theorem onDp_dp (f : Dp → Dp) (s : State) : (onDp f s).dp = f s.dp := rfl
@[simp] theorem onDp_perf (f : Dp → Dp) (s : State) : (onDp f s).perf = s.perf := rfl
@[simp] theorem onDp_mbx (f : Dp → Dp) (s : State) : (onDp f s).mbx = s.mbx := rfl
@[simp] theorem onDp_cas (f : Dp → Dp) (s : State) : (onDp f s).cas = s.cas := rfl
@[simp] theorem onDp_pair (f : Dp → Dp) (s : State) : (onDp f s).pair = s.pair := rfl
@[simp] theorem onDp_maint (f : Dp → Dp) (s : State) : (onDp f s).maint = s.maint := rfl
@[simp] theorem onDp_i2c (f : Dp → Dp) (s : State) : (onDp f s).i2c = s.i2c := rfl
@[simp] theorem onDp_tap (f : Dp → Dp) (s : State) : (onDp f s).tap = s.tap := rfl
@[simp] theorem onDp_rng (f : Dp → Dp) (s : State) : (onDp f s).rng = s.rng := rfl
@[simp] theorem onDp_out (f : Dp → Dp) (s : State) : (onDp f s).out = s.out := rfl
@[simp] theorem onDp_pending (f : Dp → Dp) (s : State) : (onDp f s).pending = s.pending := rfl

@[simp] theorem onPerf_glb (f : Perf → Perf) (s : State) : (onPerf f s).glb = s.glb := rfl
@[simp] theorem onPerf_nvm (f : Perf → Perf) (s : State) : (onPerf f s).nvm = s.nvm := rfl
@[simp] theorem onPerf_time (f : Perf → Perf) (s : State) : (onPerf f s).time = s.time := rfl
@[simp] theorem onPerf_pmu (f : Perf → Perf) (s : State) : (onPerf f s).pmu = s.pmu := rfl
@[simp] theorem onPerf_stp (f : Perf → Perf) (s : State) : (onPerf f s).stp = s.stp := rfl
@[simp] theorem onPerf_keys (f : Perf → Perf) (s : State) : (onPerf f s).keys = s.keys := rfl
@[simp] theorem onPerf_mem (f : Perf → Perf) (s : State) : (onPerf f s).mem = s.mem := rfl
@[simp] theorem onPerf_traffic (f : Perf → Perf) (s : State) : (onPerf f s).traffic = s.traffic := rfl
@[simp] theorem onPerf_wh (f : Perf → Perf) (s : State) : (onPerf f s).wh = s.wh := rfl
@[simp] theorem onPerf_objs (f : Perf → Perf) (s : State) : (onPerf f s).objs = s.objs := rfl
@[simp] theorem onPerf_la (f : Perf → Perf) (s : State) : (onPerf f s).la = s.la := rfl
@[simp] theorem onPerf_laTurn (f : Perf → Perf) (s : State) : (onPerf f s).laTurn = s.laTurn := rfl
@[simp] theorem onPerf_laFloorAt (f : Perf → Perf) (s : State) : (onPerf f s).laFloorAt = s.laFloorAt := rfl
@[simp] theorem onPerf_reqs (f : Perf → Perf) (s : State) : (onPerf f s).reqs = s.reqs := rfl
@[simp] theorem onPerf_rings (f : Perf → Perf) (s : State) : (onPerf f s).rings = s.rings := rfl
@[simp] theorem onPerf_irq (f : Perf → Perf) (s : State) : (onPerf f s).irq = s.irq := rfl
@[simp] theorem onPerf_dp (f : Perf → Perf) (s : State) : (onPerf f s).dp = s.dp := rfl
@[simp] theorem onPerf_perf (f : Perf → Perf) (s : State) : (onPerf f s).perf = f s.perf := rfl
@[simp] theorem onPerf_mbx (f : Perf → Perf) (s : State) : (onPerf f s).mbx = s.mbx := rfl
@[simp] theorem onPerf_cas (f : Perf → Perf) (s : State) : (onPerf f s).cas = s.cas := rfl
@[simp] theorem onPerf_pair (f : Perf → Perf) (s : State) : (onPerf f s).pair = s.pair := rfl
@[simp] theorem onPerf_maint (f : Perf → Perf) (s : State) : (onPerf f s).maint = s.maint := rfl
@[simp] theorem onPerf_i2c (f : Perf → Perf) (s : State) : (onPerf f s).i2c = s.i2c := rfl
@[simp] theorem onPerf_tap (f : Perf → Perf) (s : State) : (onPerf f s).tap = s.tap := rfl
@[simp] theorem onPerf_rng (f : Perf → Perf) (s : State) : (onPerf f s).rng = s.rng := rfl
@[simp] theorem onPerf_out (f : Perf → Perf) (s : State) : (onPerf f s).out = s.out := rfl
@[simp] theorem onPerf_pending (f : Perf → Perf) (s : State) : (onPerf f s).pending = s.pending := rfl

@[simp] theorem onPair_glb (f : Pair → Pair) (s : State) : (onPair f s).glb = s.glb := rfl
@[simp] theorem onPair_nvm (f : Pair → Pair) (s : State) : (onPair f s).nvm = s.nvm := rfl
@[simp] theorem onPair_time (f : Pair → Pair) (s : State) : (onPair f s).time = s.time := rfl
@[simp] theorem onPair_pmu (f : Pair → Pair) (s : State) : (onPair f s).pmu = s.pmu := rfl
@[simp] theorem onPair_stp (f : Pair → Pair) (s : State) : (onPair f s).stp = s.stp := rfl
@[simp] theorem onPair_keys (f : Pair → Pair) (s : State) : (onPair f s).keys = s.keys := rfl
@[simp] theorem onPair_mem (f : Pair → Pair) (s : State) : (onPair f s).mem = s.mem := rfl
@[simp] theorem onPair_traffic (f : Pair → Pair) (s : State) : (onPair f s).traffic = s.traffic := rfl
@[simp] theorem onPair_wh (f : Pair → Pair) (s : State) : (onPair f s).wh = s.wh := rfl
@[simp] theorem onPair_objs (f : Pair → Pair) (s : State) : (onPair f s).objs = s.objs := rfl
@[simp] theorem onPair_la (f : Pair → Pair) (s : State) : (onPair f s).la = s.la := rfl
@[simp] theorem onPair_laTurn (f : Pair → Pair) (s : State) : (onPair f s).laTurn = s.laTurn := rfl
@[simp] theorem onPair_laFloorAt (f : Pair → Pair) (s : State) : (onPair f s).laFloorAt = s.laFloorAt := rfl
@[simp] theorem onPair_reqs (f : Pair → Pair) (s : State) : (onPair f s).reqs = s.reqs := rfl
@[simp] theorem onPair_rings (f : Pair → Pair) (s : State) : (onPair f s).rings = s.rings := rfl
@[simp] theorem onPair_irq (f : Pair → Pair) (s : State) : (onPair f s).irq = s.irq := rfl
@[simp] theorem onPair_dp (f : Pair → Pair) (s : State) : (onPair f s).dp = s.dp := rfl
@[simp] theorem onPair_perf (f : Pair → Pair) (s : State) : (onPair f s).perf = s.perf := rfl
@[simp] theorem onPair_mbx (f : Pair → Pair) (s : State) : (onPair f s).mbx = s.mbx := rfl
@[simp] theorem onPair_cas (f : Pair → Pair) (s : State) : (onPair f s).cas = s.cas := rfl
@[simp] theorem onPair_pair (f : Pair → Pair) (s : State) : (onPair f s).pair = f s.pair := rfl
@[simp] theorem onPair_maint (f : Pair → Pair) (s : State) : (onPair f s).maint = s.maint := rfl
@[simp] theorem onPair_i2c (f : Pair → Pair) (s : State) : (onPair f s).i2c = s.i2c := rfl
@[simp] theorem onPair_tap (f : Pair → Pair) (s : State) : (onPair f s).tap = s.tap := rfl
@[simp] theorem onPair_rng (f : Pair → Pair) (s : State) : (onPair f s).rng = s.rng := rfl
@[simp] theorem onPair_out (f : Pair → Pair) (s : State) : (onPair f s).out = s.out := rfl
@[simp] theorem onPair_pending (f : Pair → Pair) (s : State) : (onPair f s).pending = s.pending := rfl

@[simp] theorem onMaint_glb (f : Maint → Maint) (s : State) : (onMaint f s).glb = s.glb := rfl
@[simp] theorem onMaint_nvm (f : Maint → Maint) (s : State) : (onMaint f s).nvm = s.nvm := rfl
@[simp] theorem onMaint_time (f : Maint → Maint) (s : State) : (onMaint f s).time = s.time := rfl
@[simp] theorem onMaint_pmu (f : Maint → Maint) (s : State) : (onMaint f s).pmu = s.pmu := rfl
@[simp] theorem onMaint_stp (f : Maint → Maint) (s : State) : (onMaint f s).stp = s.stp := rfl
@[simp] theorem onMaint_keys (f : Maint → Maint) (s : State) : (onMaint f s).keys = s.keys := rfl
@[simp] theorem onMaint_mem (f : Maint → Maint) (s : State) : (onMaint f s).mem = s.mem := rfl
@[simp] theorem onMaint_traffic (f : Maint → Maint) (s : State) : (onMaint f s).traffic = s.traffic := rfl
@[simp] theorem onMaint_wh (f : Maint → Maint) (s : State) : (onMaint f s).wh = s.wh := rfl
@[simp] theorem onMaint_objs (f : Maint → Maint) (s : State) : (onMaint f s).objs = s.objs := rfl
@[simp] theorem onMaint_la (f : Maint → Maint) (s : State) : (onMaint f s).la = s.la := rfl
@[simp] theorem onMaint_laTurn (f : Maint → Maint) (s : State) : (onMaint f s).laTurn = s.laTurn := rfl
@[simp] theorem onMaint_laFloorAt (f : Maint → Maint) (s : State) : (onMaint f s).laFloorAt = s.laFloorAt := rfl
@[simp] theorem onMaint_reqs (f : Maint → Maint) (s : State) : (onMaint f s).reqs = s.reqs := rfl
@[simp] theorem onMaint_rings (f : Maint → Maint) (s : State) : (onMaint f s).rings = s.rings := rfl
@[simp] theorem onMaint_irq (f : Maint → Maint) (s : State) : (onMaint f s).irq = s.irq := rfl
@[simp] theorem onMaint_dp (f : Maint → Maint) (s : State) : (onMaint f s).dp = s.dp := rfl
@[simp] theorem onMaint_perf (f : Maint → Maint) (s : State) : (onMaint f s).perf = s.perf := rfl
@[simp] theorem onMaint_mbx (f : Maint → Maint) (s : State) : (onMaint f s).mbx = s.mbx := rfl
@[simp] theorem onMaint_cas (f : Maint → Maint) (s : State) : (onMaint f s).cas = s.cas := rfl
@[simp] theorem onMaint_pair (f : Maint → Maint) (s : State) : (onMaint f s).pair = s.pair := rfl
@[simp] theorem onMaint_maint (f : Maint → Maint) (s : State) : (onMaint f s).maint = f s.maint := rfl
@[simp] theorem onMaint_i2c (f : Maint → Maint) (s : State) : (onMaint f s).i2c = s.i2c := rfl
@[simp] theorem onMaint_tap (f : Maint → Maint) (s : State) : (onMaint f s).tap = s.tap := rfl
@[simp] theorem onMaint_rng (f : Maint → Maint) (s : State) : (onMaint f s).rng = s.rng := rfl
@[simp] theorem onMaint_out (f : Maint → Maint) (s : State) : (onMaint f s).out = s.out := rfl
@[simp] theorem onMaint_pending (f : Maint → Maint) (s : State) : (onMaint f s).pending = s.pending := rfl

@[simp] theorem onI2c_glb (f : I2c → I2c) (s : State) : (onI2c f s).glb = s.glb := rfl
@[simp] theorem onI2c_nvm (f : I2c → I2c) (s : State) : (onI2c f s).nvm = s.nvm := rfl
@[simp] theorem onI2c_time (f : I2c → I2c) (s : State) : (onI2c f s).time = s.time := rfl
@[simp] theorem onI2c_pmu (f : I2c → I2c) (s : State) : (onI2c f s).pmu = s.pmu := rfl
@[simp] theorem onI2c_stp (f : I2c → I2c) (s : State) : (onI2c f s).stp = s.stp := rfl
@[simp] theorem onI2c_keys (f : I2c → I2c) (s : State) : (onI2c f s).keys = s.keys := rfl
@[simp] theorem onI2c_mem (f : I2c → I2c) (s : State) : (onI2c f s).mem = s.mem := rfl
@[simp] theorem onI2c_traffic (f : I2c → I2c) (s : State) : (onI2c f s).traffic = s.traffic := rfl
@[simp] theorem onI2c_wh (f : I2c → I2c) (s : State) : (onI2c f s).wh = s.wh := rfl
@[simp] theorem onI2c_objs (f : I2c → I2c) (s : State) : (onI2c f s).objs = s.objs := rfl
@[simp] theorem onI2c_la (f : I2c → I2c) (s : State) : (onI2c f s).la = s.la := rfl
@[simp] theorem onI2c_laTurn (f : I2c → I2c) (s : State) : (onI2c f s).laTurn = s.laTurn := rfl
@[simp] theorem onI2c_laFloorAt (f : I2c → I2c) (s : State) : (onI2c f s).laFloorAt = s.laFloorAt := rfl
@[simp] theorem onI2c_reqs (f : I2c → I2c) (s : State) : (onI2c f s).reqs = s.reqs := rfl
@[simp] theorem onI2c_rings (f : I2c → I2c) (s : State) : (onI2c f s).rings = s.rings := rfl
@[simp] theorem onI2c_irq (f : I2c → I2c) (s : State) : (onI2c f s).irq = s.irq := rfl
@[simp] theorem onI2c_dp (f : I2c → I2c) (s : State) : (onI2c f s).dp = s.dp := rfl
@[simp] theorem onI2c_perf (f : I2c → I2c) (s : State) : (onI2c f s).perf = s.perf := rfl
@[simp] theorem onI2c_mbx (f : I2c → I2c) (s : State) : (onI2c f s).mbx = s.mbx := rfl
@[simp] theorem onI2c_cas (f : I2c → I2c) (s : State) : (onI2c f s).cas = s.cas := rfl
@[simp] theorem onI2c_pair (f : I2c → I2c) (s : State) : (onI2c f s).pair = s.pair := rfl
@[simp] theorem onI2c_maint (f : I2c → I2c) (s : State) : (onI2c f s).maint = s.maint := rfl
@[simp] theorem onI2c_i2c (f : I2c → I2c) (s : State) : (onI2c f s).i2c = f s.i2c := rfl
@[simp] theorem onI2c_tap (f : I2c → I2c) (s : State) : (onI2c f s).tap = s.tap := rfl
@[simp] theorem onI2c_rng (f : I2c → I2c) (s : State) : (onI2c f s).rng = s.rng := rfl
@[simp] theorem onI2c_out (f : I2c → I2c) (s : State) : (onI2c f s).out = s.out := rfl
@[simp] theorem onI2c_pending (f : I2c → I2c) (s : State) : (onI2c f s).pending = s.pending := rfl

@[simp] theorem emit_glb (o : Out) (s : State) : (emit o s).glb = s.glb := rfl
@[simp] theorem emit_nvm (o : Out) (s : State) : (emit o s).nvm = s.nvm := rfl
@[simp] theorem emit_time (o : Out) (s : State) : (emit o s).time = s.time := rfl
@[simp] theorem emit_pmu (o : Out) (s : State) : (emit o s).pmu = s.pmu := rfl
@[simp] theorem emit_stp (o : Out) (s : State) : (emit o s).stp = s.stp := rfl
@[simp] theorem emit_keys (o : Out) (s : State) : (emit o s).keys = s.keys := rfl
@[simp] theorem emit_mem (o : Out) (s : State) : (emit o s).mem = s.mem := rfl
@[simp] theorem emit_traffic (o : Out) (s : State) : (emit o s).traffic = s.traffic := rfl
@[simp] theorem emit_wh (o : Out) (s : State) : (emit o s).wh = s.wh := rfl
@[simp] theorem emit_objs (o : Out) (s : State) : (emit o s).objs = s.objs := rfl
@[simp] theorem emit_la (o : Out) (s : State) : (emit o s).la = s.la := rfl
@[simp] theorem emit_laTurn (o : Out) (s : State) : (emit o s).laTurn = s.laTurn := rfl
@[simp] theorem emit_laFloorAt (o : Out) (s : State) : (emit o s).laFloorAt = s.laFloorAt := rfl
@[simp] theorem emit_reqs (o : Out) (s : State) : (emit o s).reqs = s.reqs := rfl
@[simp] theorem emit_rings (o : Out) (s : State) : (emit o s).rings = s.rings := rfl
@[simp] theorem emit_irq (o : Out) (s : State) : (emit o s).irq = s.irq := rfl
@[simp] theorem emit_dp (o : Out) (s : State) : (emit o s).dp = s.dp := rfl
@[simp] theorem emit_perf (o : Out) (s : State) : (emit o s).perf = s.perf := rfl
@[simp] theorem emit_mbx (o : Out) (s : State) : (emit o s).mbx = s.mbx := rfl
@[simp] theorem emit_cas (o : Out) (s : State) : (emit o s).cas = s.cas := rfl
@[simp] theorem emit_pair (o : Out) (s : State) : (emit o s).pair = s.pair := rfl
@[simp] theorem emit_maint (o : Out) (s : State) : (emit o s).maint = s.maint := rfl
@[simp] theorem emit_i2c (o : Out) (s : State) : (emit o s).i2c = s.i2c := rfl
@[simp] theorem emit_tap (o : Out) (s : State) : (emit o s).tap = s.tap := rfl
@[simp] theorem emit_rng (o : Out) (s : State) : (emit o s).rng = s.rng := rfl
@[simp] theorem emit_out (o : Out) (s : State) : (emit o s).out = o :: s.out := rfl
@[simp] theorem emit_pending (o : Out) (s : State) : (emit o s).pending = s.pending := rfl

end Sys2Proof.Machine
end

