-- ==== Sys2Proof/Laws/Frames.lean ====
section
/-! SUPPORT. Tables read after a write, and frames: for each shared operation the parts of the state that it may change. -/

namespace Sys2Proof.Machine

open Sys2Proof Sys2Proof.Safety

/-! Tables -/

theorem tget_tins_same {α : Type} (d v : α) (t : Tab α) (k : Nat) : tget d (tins t k v) k = v := by
  induction t with
  | nil => simp [tins, tget]
  | cons x r ih =>
    obtain ⟨a, b⟩ := x
    unfold tins
    split
    · simp [tget]
    · split
      · simp [tget]
      · next h => simp [tget, ih, Ne.symm h]

theorem tget_tins_other {α : Type} (d v : α) (t : Tab α) {k j : Nat} (h : j ≠ k) : tget d (tins t k v) j = tget d t j := by
  induction t with
  | nil => simp [tins, tget, Ne.symm h]
  | cons x r ih =>
    obtain ⟨a, b⟩ := x
    unfold tins
    split
    · simp [tget, Ne.symm h]
    · split
      · next e => subst e; simp [tget, Ne.symm h]
      · simp [tget, ih]

theorem tget_filter_same {α : Type} (d : α) (t : Tab α) (k : Nat) : tget d (t.filter (fun p => !decide (p.1 = k))) k = d := by
  induction t with
  | nil => rfl
  | cons x r ih =>
    obtain ⟨a, b⟩ := x
    by_cases e : a = k
    · simp [List.filter, e, ih]
    · simp [List.filter, e, ih, tget]

theorem tget_filter_other {α : Type} (d : α) (t : Tab α) {k j : Nat} (h : j ≠ k) :
    tget d (t.filter (fun p => !decide (p.1 = k))) j = tget d t j := by
  induction t with
  | nil => rfl
  | cons x r ih =>
    obtain ⟨a, b⟩ := x
    by_cases e : a = k
    · subst e; simp [List.filter, ih, tget, Ne.symm h]
    · simp [List.filter, e, ih, tget]

/-- A table reads at k what was last written there. -/
@[simp] theorem tget_tset_same {α : Type} [DecidableEq α] (d v : α) (t : Tab α) (k : Nat) : tget d (tset d t k v) k = v := by
  unfold tset
  dsimp only
  split
  · next h => rw [tget_filter_same, h]
  · exact tget_tins_same d v _ k

/-- A write at k leaves every other entry of a table. -/
theorem tget_tset_other {α : Type} [DecidableEq α] (d v : α) (t : Tab α) {k j : Nat} (h : j ≠ k) :
    tget d (tset d t k v) j = tget d t j := by
  unfold tset
  dsimp only
  split
  · exact tget_filter_other d t h
  · exact (tget_tins_other d v _ h).trans (tget_filter_other d t h)

theorem tget_tset {α : Type} [DecidableEq α] (d v : α) (t : Tab α) (k j : Nat) :
    tget d (tset d t k v) j = if j = k then v else tget d t j := by
  split
  · next h => subst h; exact tget_tset_same d v t j
  · next h => exact tget_tset_other d v t h

theorem filter_tins {α : Type} (v : α) (t : Tab α) (k : Nat) :
    (tins t k v).filter (fun p => !decide (p.1 = k)) = t.filter (fun p => !decide (p.1 = k)) := by
  induction t with
  | nil => simp [tins]
  | cons x r ih =>
    obtain ⟨a, b⟩ := x
    unfold tins
    split
    · simp
    · split
      · next h => subst h; simp
      · next h => simp [List.filter_cons, ih]

/-- Of two writes at k the last one stands. -/
@[simp] theorem tset_tset {α : Type} [DecidableEq α] (d v w : α) (t : Tab α) (k : Nat) : tset d (tset d t k v) k w = tset d t k w := by
  have h : (tset d t k v).filter (fun p => !decide (p.1 = k)) = t.filter (fun p => !decide (p.1 = k)) := by
    unfold tset
    dsimp only
    split
    · simp
    · rw [filter_tins]; simp
  unfold tset at h ⊢
  dsimp only at h ⊢
  rw [h]

/-! Frames -/

theorem only_refl (l : List Part) (s : State) : Only l s s := ⟨rfl, fun p _ => by cases p <;> rfl⟩

theorem keeps_trans {p : Part} {s t u : State} (h : Keeps p s t) (g : Keeps p t u) : Keeps p s u := by
  cases p <;> exact Eq.trans g h

theorem only_trans {l m : List Part} {s t u : State} (h : Only l s t) (g : Only m t u) : Only (l ++ m) s u :=
  ⟨g.1.trans h.1, fun p hp => keeps_trans (h.2 p (fun x => hp (List.mem_append_left _ x))) (g.2 p (fun x => hp (List.mem_append_right _ x)))⟩

theorem only_mono {l m : List Part} {s t : State} (h : Only l s t) (hm : ∀ p ∈ l, p ∈ m) : Only m s t :=
  ⟨h.1, fun p hp => h.2 p (fun x => hp (hm p x))⟩

/-- One frame after another, both within l. -/
theorem only_seq {l : List Part} {s t u : State} (h : Only l s t) (g : Only l t u) : Only l s u :=
  only_mono (only_trans h g) (fun p hp => by rcases List.mem_append.1 hp with x | x <;> exact x)

theorem only_ite {l : List Part} {s a b : State} {c : Prop} [Decidable c] (ha : Only l s a) (hb : Only l s b) :
    Only l s (if c then a else b) := by split <;> assumption

theorem only_foldl {β : Type} {l : List Part} {f : State → β → State} {x : List β} {s : State} (h : ∀ s b, Only l s (f s b)) :
    Only l s (x.foldl f s) := by
  induction x generalizing s with
  | nil => exact only_refl l s
  | cons b r ih => exact only_seq (h s b) ih

theorem only_glb (s : State) (x) : Only [.glb] s { s with glb := x } :=
  ⟨rfl, fun p hp => by cases p <;> first | rfl | exact absurd (by decide) hp⟩

theorem only_nvm (s : State) (x) : Only [.nvm] s { s with nvm := x } :=
  ⟨rfl, fun p hp => by cases p <;> first | rfl | exact absurd (by decide) hp⟩

theorem only_time (s : State) (x) : Only [.time] s { s with time := x } :=
  ⟨rfl, fun p hp => by cases p <;> first | rfl | exact absurd (by decide) hp⟩

theorem only_pmu (s : State) (x) : Only [.pmu] s { s with pmu := x } :=
  ⟨rfl, fun p hp => by cases p <;> first | rfl | exact absurd (by decide) hp⟩

theorem only_stp (s : State) (x) : Only [.stp] s { s with stp := x } :=
  ⟨rfl, fun p hp => by cases p <;> first | rfl | exact absurd (by decide) hp⟩

theorem only_keys (s : State) (x) : Only [.keys] s { s with keys := x } :=
  ⟨rfl, fun p hp => by cases p <;> first | rfl | exact absurd (by decide) hp⟩

theorem only_mem (s : State) (x) : Only [.mem] s { s with mem := x } :=
  ⟨rfl, fun p hp => by cases p <;> first | rfl | exact absurd (by decide) hp⟩

theorem only_traffic (s : State) (x) : Only [.traffic] s { s with traffic := x } :=
  ⟨rfl, fun p hp => by cases p <;> first | rfl | exact absurd (by decide) hp⟩

theorem only_wh (s : State) (x) : Only [.wh] s { s with wh := x } :=
  ⟨rfl, fun p hp => by cases p <;> first | rfl | exact absurd (by decide) hp⟩

theorem only_objs (s : State) (x) : Only [.objs] s { s with objs := x } :=
  ⟨rfl, fun p hp => by cases p <;> first | rfl | exact absurd (by decide) hp⟩

theorem only_la (s : State) (x) : Only [.la] s { s with la := x } :=
  ⟨rfl, fun p hp => by cases p <;> first | rfl | exact absurd (by decide) hp⟩

theorem only_laTurn (s : State) (x) : Only [.laTurn] s { s with laTurn := x } :=
  ⟨rfl, fun p hp => by cases p <;> first | rfl | exact absurd (by decide) hp⟩

theorem only_laFloorAt (s : State) (x) : Only [.laFloorAt] s { s with laFloorAt := x } :=
  ⟨rfl, fun p hp => by cases p <;> first | rfl | exact absurd (by decide) hp⟩

theorem only_reqs (s : State) (x) : Only [.reqs] s { s with reqs := x } :=
  ⟨rfl, fun p hp => by cases p <;> first | rfl | exact absurd (by decide) hp⟩

theorem only_rings (s : State) (x) : Only [.rings] s { s with rings := x } :=
  ⟨rfl, fun p hp => by cases p <;> first | rfl | exact absurd (by decide) hp⟩

theorem only_irq (s : State) (x) : Only [.irq] s { s with irq := x } :=
  ⟨rfl, fun p hp => by cases p <;> first | rfl | exact absurd (by decide) hp⟩

theorem only_dp (s : State) (x) : Only [.dp] s { s with dp := x } :=
  ⟨rfl, fun p hp => by cases p <;> first | rfl | exact absurd (by decide) hp⟩

theorem only_perf (s : State) (x) : Only [.perf] s { s with perf := x } :=
  ⟨rfl, fun p hp => by cases p <;> first | rfl | exact absurd (by decide) hp⟩

theorem only_mbx (s : State) (x) : Only [.mbx] s { s with mbx := x } :=
  ⟨rfl, fun p hp => by cases p <;> first | rfl | exact absurd (by decide) hp⟩

theorem only_cas (s : State) (x) : Only [.cas] s { s with cas := x } :=
  ⟨rfl, fun p hp => by cases p <;> first | rfl | exact absurd (by decide) hp⟩

theorem only_pair (s : State) (x) : Only [.pair] s { s with pair := x } :=
  ⟨rfl, fun p hp => by cases p <;> first | rfl | exact absurd (by decide) hp⟩

theorem only_maint (s : State) (x) : Only [.maint] s { s with maint := x } :=
  ⟨rfl, fun p hp => by cases p <;> first | rfl | exact absurd (by decide) hp⟩

theorem only_i2c (s : State) (x) : Only [.i2c] s { s with i2c := x } :=
  ⟨rfl, fun p hp => by cases p <;> first | rfl | exact absurd (by decide) hp⟩

theorem only_tap (s : State) (x) : Only [.tap] s { s with tap := x } :=
  ⟨rfl, fun p hp => by cases p <;> first | rfl | exact absurd (by decide) hp⟩

theorem only_rng (s : State) (x) : Only [.rng] s { s with rng := x } :=
  ⟨rfl, fun p hp => by cases p <;> first | rfl | exact absurd (by decide) hp⟩

theorem only_out (s : State) (x) : Only [.out] s { s with out := x } :=
  ⟨rfl, fun p hp => by cases p <;> first | rfl | exact absurd (by decide) hp⟩

/-- A part outside the list is as before. -/
theorem only_keeps {l : List Part} {s t : State} (h : Only l s t) (p : Part) (hp : p ∉ l) : Keeps p s t := h.2 p hp

theorem countEv_only (e : Ev) (n : Nat) (s : State) : Only [.perf] s (countEv e n s) := only_ite (only_refl _ s) (only_perf s _)

theorem countFix_only (m n : Nat) (s : State) : Only [.perf] s (countFix m n s) := only_ite (only_refl _ s) (only_perf s _)

theorem countFault_only (m : Nat) (s : State) : Only [.perf] s (countFault m s) := only_ite (only_refl _ s) (only_perf s _)

theorem freeVal_only (w : Nat) (s : State) : Only [.rng] s (freeVal w s).2 := only_rng s _

theorem sampleAt_only (t : Stamp) (m : Smp) (s : State) : Only [.perf] s (sampleAt t m s) := by
  unfold sampleAt
  repeat' first | exact only_refl _ s | exact only_perf s _ | apply only_ite

theorem sample_only (m : Smp) (s : State) : Only [.perf] s (sample m s) := sampleAt_only _ m s

theorem sampleMem_only (m : Smp) (s : State) : Only [.perf, .rng] s (sampleMem m s) :=
  only_seq (only_mono (freeVal_only 32 s) (by decide)) (only_mono (sample_only _ _) (by decide))

theorem pendSweep_only (k : Nat) (s : State) : Only [.mem] s (pendSweep k s) := only_ite (only_refl _ s) (only_mem s _)

theorem imeCount_only (k a : Nat) (s : State) : Only [.mem] s (imeCount k a s) := by
  unfold imeCount
  dsimp only
  exact only_ite (only_refl _ s) (only_ite (only_seq (only_mem s _) (pendSweep_only _ _)) (only_mem s _))

theorem writeLine_only (k a : Nat) (d : Bytes) (s : State) : Only [.mem, .perf] s (writeLine k a d s) := by
  have hm {s t : State} (h : Only [.mem] s t) : Only [.mem, .perf] s t := only_mono h (by decide)
  have hp {s t : State} (h : Only [.perf] s t) : Only [.mem, .perf] s t := only_mono h (by decide)
  unfold writeLine
  dsimp only
  refine only_seq ?_ (hm (imeCount_only _ _ _))
  refine only_seq (only_seq (hm (only_mem s _)) (hm (only_mem _ _)))
    (only_seq (only_ite ?_ (only_refl _ _)) (only_seq (hp (countFix_only _ _ _)) (hp (countEv_only _ _ _))))
  exact only_seq (hp (countFix_only _ _ _)) (hp (countEv_only _ _ _))

theorem memWrite_only (k a : Nat) (d : Bytes) (s : State) : Only [.mem, .perf] s (memWrite k a d s) :=
  only_ite (only_foldl (fun s p => writeLine_only _ _ _ s)) (only_mono (only_mem s _) (by decide))

theorem useLine_only (k a : Nat) (s : State) : Only [.mem] s (useLine k a s) := only_mem s _

theorem countRead_only (k a n : Nat) (s : State) : Only [.mem, .perf] s (countRead k a n s) := by
  have hp {s t : State} (h : Only [.perf] s t) : Only [.mem, .perf] s t := only_mono h (by decide)
  unfold countRead
  refine only_ite ?_ (only_refl _ s)
  exact only_seq (only_foldl (fun s ln => only_mono (useLine_only k _ s) (by decide))) (only_seq (hp (countFix_only _ _ _)) (hp (countEv_only _ _ _)))

theorem sendMsix_only (v : Nat) (s : State) : Only [.irq, .out] s (sendMsix v s) := by
  unfold sendMsix
  exact only_ite (only_mono (only_irq s _) (by decide)) ⟨rfl, fun p hp => by cases p <;> first | rfl | exact absurd (by decide) hp⟩

theorem sendIfDue_only (v : Nat) (s : State) : Only [.irq, .out] s (sendIfDue v s) := only_ite (sendMsix_only v s) (only_refl _ s)

theorem setCause_only (e : Nat) (s : State) : Only [.irq, .out] s (setCause e s) := by
  have h1 (x) : Only [.irq, .out] s { s with irq := x } := only_mono (only_irq s x) (by decide)
  unfold setCause
  dsimp only
  split
  · exact h1 _
  · exact only_ite (only_seq (h1 _) (sendMsix_only _ _)) (h1 _)

theorem setRing_only (r : Nat) (x : Ring) (s : State) : Only [.rings] s (setRing r x s) := only_rings s _

theorem ringDrop_only (r : Nat) (s : State) : Only [.rings] s (ringDrop r s) := only_rings s _

theorem ringFail_only (r : Nat) (s : State) : Only [.rings] s (ringFail r s) := only_rings s _

theorem captureFault_only (m c w a : Nat) (b : Bool) (k : Nat) (s : State) : Only [.mem, .perf] s (captureFault m c w a b k s) := by
  unfold captureFault
  dsimp only
  exact only_seq (only_mono (only_mem s _) (by decide)) (only_seq (only_mono (countFix_only _ _ _) (by decide)) (only_mono (countEv_only _ _ _) (by decide)))

/-- A frame within [.mem, .perf] or another list inside `raised` is one of `raised`. -/
theorem only_raised {l : List Part} {s t : State} (h : Only l s t) (hm : ∀ p ∈ l, p ∈ raised := by decide) : Only raised s t :=
  only_mono h hm

theorem ringWrite_only (b : Bytes) (s : State) : Only raised s (ringWrite b s).2 := by
  unfold ringWrite
  dsimp only
  split
  · exact only_raised (ringDrop_only 16 s)
  · have h (x : Ev) (m : Smp) : Only raised s (sampleMem m (countEv x 1 s)) :=
      only_seq (only_raised (countEv_only _ _ s)) (only_raised (sampleMem_only _ _))
    split
    · exact only_seq (h _ _) (only_seq (only_raised (memWrite_only _ _ _ _)) (only_raised (setRing_only _ _ _)))
    · refine only_seq ?_ (only_raised (ringDrop_only _ _))
      refine only_seq ?_ (only_raised (setCause_only _ _))
      refine only_seq ?_ (only_raised (captureFault_only ..))
      exact only_seq (h _ _) (only_raised (ringFail_only _ _))

theorem countRecord_only (s : State) : Only [.irq] s (countRecord s) := only_irq s _

theorem keepWaiting_only (w : Waiter) (s : State) : Only [.mem] s (keepWaiting w s) := only_mem s _

theorem ringRecord_only (b : Bytes) (s : State) : Only raised s (ringRecord b s) := by
  have h := ringWrite_only b s
  unfold ringRecord
  split
  · next e => rw [e] at h; exact h
  · next e =>
    rw [e] at h
    refine only_seq h (only_ite (only_refl _ _) ?_)
    exact only_seq (only_raised (countRecord_only _)) (only_seq (ringWrite_only _ _) (only_raised (setCause_only _ _)))

theorem raise_only (e : Nat) (d : Bytes) (s : State) : Only raised s (raise e d s) := by
  unfold raise
  dsimp only
  refine only_ite (only_refl _ s) (only_ite (only_raised (setCause_only _ _)) ?_)
  refine only_seq ?_ (only_raised (setCause_only _ _))
  refine only_seq (only_raised (countRecord_only s)) ?_
  exact only_ite (only_raised (keepWaiting_only _ _)) (ringRecord_only _ _)

theorem mpuFault_only (m c w a : Nat) (b : Bool) (k : Nat) (s : State) : Only raised s (mpuFault m c w a b k s) :=
  only_seq (only_raised (captureFault_only ..)) (raise_only _ _ _)

theorem masterRead_only (m c w a n : Nat) (s : State) : Only raised s (masterRead m c w a n s).2 := by
  unfold masterRead
  dsimp only
  split
  · exact only_seq (only_raised (countRead_only _ _ _ s)) (only_seq (only_raised (countEv_only _ _ _)) (only_raised (sampleMem_only _ _)))
  · exact only_seq (only_raised (countEv_only _ _ s)) (only_seq (mpuFault_only ..) (only_raised (sampleMem_only _ _)))

theorem masterWrite_only (m c w a : Nat) (d : Bytes) (s : State) : Only raised s (masterWrite m c w a d s).2 := by
  unfold masterWrite
  dsimp only
  split
  · exact only_seq (only_raised (memWrite_only _ _ _ s)) (only_seq (only_raised (countEv_only _ _ _)) (only_raised (sampleMem_only _ _)))
  · exact only_seq (only_raised (countEv_only _ _ s)) (only_seq (mpuFault_only ..) (only_raised (sampleMem_only _ _)))

theorem readCuts_only (m c w : Nat) (l : List (Nat × Nat)) (acc : Bytes) (s : State) : Only raised s (readCuts m c w l acc s).2 := by
  induction l generalizing acc s with
  | nil => exact only_refl _ s
  | cons x r ih =>
    unfold readCuts
    have h := masterRead_only m c w x.1 x.2 s
    simp only
    split
    · exact only_seq h (ih _ _)
    · exact h

theorem bufRead_only (m c w a n : Nat) (s : State) : Only raised s (bufRead m c w a n s).2 := readCuts_only ..

theorem writeCuts_only (m c w : Nat) (l : List (Nat × Bytes)) (s : State) : Only raised s (writeCuts m c w l s).2 := by
  induction l generalizing s with
  | nil => exact only_refl _ s
  | cons x r ih =>
    unfold writeCuts
    have h := masterWrite_only m c w x.1 x.2 s
    simp only
    split
    · exact only_seq h (ih _)
    · exact h

theorem bufWrite_only (m c w a : Nat) (d : Bytes) (s : State) : Only raised s (bufWrite m c w a d s).2 := writeCuts_only ..

theorem logFault_only (c r d : Nat) (s : State) : Only [.maint] s (logFault c r d s) := only_ite (only_refl _ s) (only_maint s _)

theorem degrade_only (r d : Nat) (c : BitVec 4) (s : State) : Only (.maint :: raised) s (degrade r d c s) := by
  have hm : ∀ p ∈ [Part.maint], p ∈ Part.maint :: raised := by decide
  unfold degrade
  dsimp only
  refine only_seq ?_ (only_mono (raise_only _ _ _) (by decide))
  refine only_seq ?_ (only_mono (logFault_only _ _ _ _) hm)
  exact only_seq (only_mono (only_maint s _) hm) (only_mono (countFault_only _ _) (by decide))

theorem sump_only (r : Reason) (l : Lost) (s : State) : Only [.perf, .traffic, .rng] s (sump r l s) := by
  have hp {s t : State} (h : Only [.perf] s t) : Only [.perf, .traffic, .rng] s t := only_mono h (by decide)
  have ht {s : State} (f) : Only [.perf, .traffic, .rng] s (onTraffic f s) := only_mono (only_traffic s _) (by decide)
  unfold sump
  dsimp only
  refine only_ite (only_refl _ s) (only_seq ?_ (hp (sample_only _ _)))
  refine only_seq ?_ (only_mono (only_rng _ _) (by decide))
  refine only_seq ?_ (hp (countEv_only _ _ _))
  have h0 := only_seq (only_seq (hp (countFix_only 0 1 s)) (hp (countFix_only r.code 1 _))) (ht (fun t => { t with sump := tmod 0 t.sump (32 * l.q + r.code) (fun n => (n + 1) % 2 ^ 48) }))
  split
  · exact h0
  · exact only_seq h0 (ht _)

end Sys2Proof.Machine
end

