-- ==== Sys2Proof/Laws/Memory.lean ====
section
/-! SUPPORT. Memory's canonical form (addresses strictly rising, no entry zero), through the operations on the list. -/

namespace Sys2Proof.Machine

open Sys2Proof

/-- Every entry of a table lies above a. -/
def Memory.above (a : Nat) (m : Tab Byte) : Prop := ∀ p ∈ m, a < p.1

theorem Memory.wf_cons (a : Nat) (b : Byte) (m : Tab Byte) :
    Memory.wf ((a, b) :: m) = true ↔ b ≠ 0 ∧ Memory.above a m ∧ Memory.wf m = true := by
  induction m generalizing a b with
  | nil => simp [Memory.wf, Memory.above]
  | cons p r ih =>
    obtain ⟨c, d⟩ := p
    have h := ih c d
    rw [Memory.wf, Bool.and_eq_true, Bool.and_eq_true, h]
    simp only [bne_iff_ne, ne_eq, decide_eq_true_eq, Memory.above, List.forall_mem_cons]
    constructor
    · rintro ⟨⟨h1, h2⟩, h3, h4, h5⟩
      exact ⟨h1, ⟨h2, fun p hp => Nat.lt_trans h2 (h4 p hp)⟩, h3, h4, h5⟩
    · rintro ⟨h1, ⟨h2, -⟩, h3, h4, h5⟩
      exact ⟨⟨h1, h2⟩, h3, h4, h5⟩

theorem Memory.above_filter {a : Nat} {m : Tab Byte} (p : Nat × Byte → Bool) (h : Memory.above a m) : Memory.above a (m.filter p) :=
  fun x hx => h x (List.mem_filter.1 hx).1

theorem Memory.wf_filter {m : Tab Byte} (p : Nat × Byte → Bool) (h : Memory.wf m = true) : Memory.wf (m.filter p) = true := by
  induction m with
  | nil => rfl
  | cons x r ih =>
    obtain ⟨a, b⟩ := x
    obtain ⟨h1, h2, h3⟩ := (Memory.wf_cons a b r).1 h
    by_cases hp : p (a, b) = true
    · rw [List.filter_cons_of_pos hp]
      exact (Memory.wf_cons _ _ _).2 ⟨h1, Memory.above_filter p h2, ih h3⟩
    · rw [List.filter_cons_of_neg hp]
      exact ih h3

theorem Memory.above_tins {a k : Nat} {v : Byte} {m : Tab Byte} (hk : a < k) (h : Memory.above a m) : Memory.above a (tins m k v) := by
  induction m with
  | nil => simpa [tins, Memory.above] using hk
  | cons x r ih =>
    obtain ⟨c, d⟩ := x
    have hc : a < c := h (c, d) (List.mem_cons_self ..)
    have hr : Memory.above a r := fun p hp => h p (List.mem_cons_of_mem _ hp)
    have e : ∀ (l : Tab Byte) y w, Memory.above a ((y, w) :: l) ↔ a < y ∧ Memory.above a l := by
      intro l y w; simp [Memory.above]
    unfold tins
    split
    · exact (e _ _ _).2 ⟨hk, h⟩
    · split
      · exact (e _ _ _).2 ⟨hk, hr⟩
      · exact (e _ _ _).2 ⟨hc, ih hr⟩

theorem Memory.wf_tins {k : Nat} {v : Byte} {m : Tab Byte} (hv : v ≠ 0) (h : Memory.wf m = true) : Memory.wf (tins m k v) = true := by
  induction m with
  | nil => simpa [tins, Memory.wf] using hv
  | cons x r ih =>
    obtain ⟨c, d⟩ := x
    obtain ⟨h1, h2, h3⟩ := (Memory.wf_cons c d r).1 h
    unfold tins
    split
    · next hlt =>
      refine (Memory.wf_cons _ _ _).2 ⟨hv, ?_, h⟩
      intro p hp
      rcases List.mem_cons.1 hp with rfl | hp
      · exact hlt
      · exact Nat.lt_trans hlt (h2 p hp)
    · split
      · next heq => exact (Memory.wf_cons _ _ _).2 ⟨hv, heq ▸ h2, h3⟩
      · next hn hne =>
        exact (Memory.wf_cons _ _ _).2 ⟨h1, Memory.above_tins (by omega) h2, ih h3⟩

/-- Writing a byte keeps the canonical form. -/
theorem Memory.wf_tset {k : Nat} {v : Byte} {m : Tab Byte} (h : Memory.wf m = true) : Memory.wf (tset 0 m k v) = true := by
  unfold tset
  dsimp only
  split
  · exact Memory.wf_filter _ h
  · next hv => exact Memory.wf_tins hv (Memory.wf_filter _ h)

/-- Writing bytes keeps the canonical form. -/
theorem Memory.wf_putBytes {m : Tab Byte} (a : Nat) (d : Bytes) (h : Memory.wf m = true) : Memory.wf (putBytes m a d) = true := by
  induction d generalizing m a with
  | nil => exact h
  | cons b r ih => exact ih (a + 1) (Memory.wf_tset h)

end Sys2Proof.Machine
end

