-- ==== Sys2Proof/Laws/Invariant.lean ====
section
/-! SUPPORT. What every step keeps: `Kept qu s` says that the queue is qu and that `StepInv` holds, and the files Laws/Invariant*
show, operation by operation, that it is kept (`f_kept` for the operation f). -/

namespace Sys2Proof.Machine

open Sys2Proof Sys2Proof.Safety

/-- The queue is qu, and `StepInv` holds. -/
def Kept (qu : List Instr) (s : State) : Prop := s.pending = qu ∧ StepInv s

/-- The same of an outcome's next state. -/
def KeptR (qu : List Instr) : Result → Prop
  | .next t => Kept qu t
  | _ => True

variable {qu : List Instr} {s t : State} {α β : Type}

theorem kept_of_eq (h : Kept qu s) (hp : t.pending = s.pending) (hm : t.mem.bytes = s.mem.bytes)
    (ht : (t.time.spent, t.time.armed) = (s.time.spent, s.time.armed)) : Kept qu t := by
  obtain ⟨h1, h2, h3⟩ := h
  obtain ⟨e1, e2⟩ := Prod.mk.inj ht
  exact ⟨hp.trans h1, by rw [hm]; exact h2, by rw [e1, e2]; exact h3⟩

theorem kept_snd {p : α × State} {a : α} (e : p = (a, t)) (h : Kept qu p.2) : Kept qu t := by subst e; exact h

theorem kept_foldl {f : State → β → State} {l : List β} (h : Kept qu s) (hf : ∀ s x, Kept qu s → Kept qu (f s x)) :
    Kept qu (l.foldl f s) := by
  induction l generalizing s with
  | nil => exact h
  | cons x r ih => exact ih (hf s x h)

theorem onGlb_kept {f : Glb → Glb} (h : Kept qu s) : Kept qu (onGlb f s) := h
theorem onNvm_kept {f : Nvm → Nvm} (h : Kept qu s) : Kept qu (onNvm f s) := h
theorem onPmu_kept {f : Pmu → Pmu} (h : Kept qu s) : Kept qu (onPmu f s) := h
theorem onStp_kept {f : Stp → Stp} (h : Kept qu s) : Kept qu (onStp f s) := h
theorem onKeys_kept {f : Keys → Keys} (h : Kept qu s) : Kept qu (onKeys f s) := h
theorem onTraffic_kept {f : Traffic → Traffic} (h : Kept qu s) : Kept qu (onTraffic f s) := h
theorem onIrq_kept {f : Irq → Irq} (h : Kept qu s) : Kept qu (onIrq f s) := h
theorem onDp_kept {f : Dp → Dp} (h : Kept qu s) : Kept qu (onDp f s) := h
theorem onPerf_kept {f : Perf → Perf} (h : Kept qu s) : Kept qu (onPerf f s) := h
theorem onPair_kept {f : Pair → Pair} (h : Kept qu s) : Kept qu (onPair f s) := h
theorem onMaint_kept {f : Maint → Maint} (h : Kept qu s) : Kept qu (onMaint f s) := h
theorem onI2c_kept {f : I2c → I2c} (h : Kept qu s) : Kept qu (onI2c f s) := h
theorem emit_kept {o : Out} (h : Kept qu s) : Kept qu (emit o s) := h
theorem onMem_kept {f : Mem → Mem} (h : Kept qu s) (e : (f s.mem).bytes = s.mem.bytes) : Kept qu (onMem f s) :=
  kept_of_eq h rfl e rfl
theorem onTime_kept {f : TimeBlk → TimeBlk} (h : Kept qu s)
    (e : ((f s.time).spent, (f s.time).armed) = (s.time.spent, s.time.armed)) : Kept qu (onTime f s) :=
  kept_of_eq h rfl rfl e
theorem kept_mk {glb nvm time pmu stp keys mem traffic wh objs la laTurn laFloorAt reqs rings irq dp perf mbx cas pair maint i2c tap rng out pending}
    (h : Kept qu s) (hp : pending = s.pending) (hm : mem.bytes = s.mem.bytes)
    (ht : (time.spent, time.armed) = (s.time.spent, s.time.armed)) :
    Kept qu ⟨glb, nvm, time, pmu, stp, keys, mem, traffic, wh, objs, la, laTurn, laFloorAt, reqs, rings, irq, dp, perf, mbx, cas, pair, maint, i2c, tap,
      rng, out, pending⟩ := kept_of_eq h hp hm ht

theorem keptR_next (h : Kept qu t) : KeptR qu (.next t) := h

theorem kept_ite {c : Prop} [Decidable c] {a b : State} (ha : Kept qu a) (hb : Kept qu b) : Kept qu (if c then a else b) := by
  split <;> assumption

theorem kept2_ite {c : Prop} [Decidable c] {a b : α × State} (ha : Kept qu a.2) (hb : Kept qu b.2) : Kept qu (if c then a else b).2 := by
  split <;> assumption

end Sys2Proof.Machine
end

