-- ==== Sys2Proof/Laws/InvariantOps.lean ====
section
/-! SUPPORT. Operations that keep `StepInv` and the queue: the shared operations, the halt, the key store, the channels, the mailbox, the Standpipe and time. -/

namespace Sys2Proof.Machine

open Sys2Proof Sys2Proof.Safety

variable {qu : List Instr}

theorem setAttr_kept {s : State} {cls : Nat} {inst : Nat} {a : Nat} {v : Nat} (hg : Kept qu s) : Kept qu (setAttr s cls inst a v) := by
  unfold setAttr
  repeat' first
    | with_reducible assumption | with_reducible (refine kept_ite ?_ ?_) | refine kept_mk ?_ rfl rfl rfl

theorem draw_kept {w : Nat} {s : State} (hg : Kept qu s) : Kept qu (draw w s).2 := by
  unfold draw
  repeat' first
    | with_reducible assumption | refine kept_mk ?_ rfl rfl rfl

theorem freeVal_kept {w : Nat} {s : State} (hg : Kept qu s) : Kept qu (freeVal w s).2 := by
  unfold freeVal
  repeat' first
    | with_reducible assumption | refine kept_mk ?_ rfl rfl rfl

theorem setDom_kept {s : State} {n : Nat} {d : Dom} (hg : Kept qu s) : Kept qu (setDom s n d) := by
  unfold setDom
  repeat' first
    | with_reducible assumption | refine kept_mk ?_ rfl rfl rfl

theorem countEv_kept {e : Ev} {size : Nat} {s : State} (hg : Kept qu s) : Kept qu (countEv e size s) := by
  unfold countEv
  repeat' first
    | with_reducible assumption | with_reducible (refine kept_ite ?_ ?_) | refine kept_mk ?_ rfl rfl rfl

theorem bumpFix_kept {m : Nat} {n : Nat} {s : State} (hg : Kept qu s) : Kept qu (bumpFix m n s) := by
  unfold bumpFix
  repeat' first
    | with_reducible assumption | extract_lets | split | with_reducible (refine kept_snd (by with_reducible assumption) ?_)
    | with_reducible (refine kept_mk ?_ rfl rfl rfl)

theorem countFix_kept {m : Nat} {n : Nat} {s : State} (hg : Kept qu s) : Kept qu (countFix m n s) := by
  unfold countFix
  repeat' first
    | with_reducible assumption | with_reducible (refine kept_ite ?_ ?_) | refine kept_mk ?_ rfl rfl rfl

theorem sampleAt_kept {t : Stamp} {m : Smp} {s : State} (hg : Kept qu s) : Kept qu (sampleAt t m s) := by
  unfold sampleAt
  repeat' first
    | with_reducible assumption | with_reducible (refine kept_ite ?_ ?_) | refine kept_mk ?_ rfl rfl rfl

theorem sample_kept {m : Smp} {s : State} (hg : Kept qu s) : Kept qu (sample m s) := by
  unfold sample
  with_reducible repeat' first | assumption | apply sampleAt_kept

theorem sampleMem_kept {m : Smp} {s : State} (hg : Kept qu s) : Kept qu (sampleMem m s) := by
  unfold sampleMem
  repeat' first
    | with_reducible assumption | extract_lets | with_reducible apply sample_kept | with_reducible apply freeVal_kept | split
    | with_reducible (refine kept_snd (by with_reducible assumption) ?_) | with_reducible (refine kept_mk ?_ rfl rfl rfl)

theorem pendSweep_kept {k : Nat} {s : State} (hg : Kept qu s) : Kept qu (pendSweep k s) := by
  unfold pendSweep
  repeat' first
    | with_reducible assumption | with_reducible (refine kept_ite ?_ ?_) | refine kept_mk ?_ rfl rfl rfl

theorem imeCount_kept {k : Nat} {a : Nat} {s : State} (hg : Kept qu s) : Kept qu (imeCount k a s) := by
  unfold imeCount
  repeat' first
    | with_reducible assumption | with_reducible apply pendSweep_kept | with_reducible (refine kept_ite ?_ ?_)
    | refine kept_mk ?_ rfl rfl rfl

theorem useLine_kept {k : Nat} {a : Nat} {s : State} (hg : Kept qu s) : Kept qu (useLine k a s) := by
  unfold useLine
  repeat' first
    | with_reducible assumption | extract_lets | with_reducible (refine onMem_kept ?_ rfl) | split
    | with_reducible (refine kept_snd (by with_reducible assumption) ?_) | with_reducible (refine kept_mk ?_ rfl rfl rfl)

theorem putLine_kept {key : BitVec 512} {ln : Nat} {b : Bytes} {s : State} (hg : Kept qu s) : Kept qu (putLine key ln b s) :=
  ⟨hg.1, Memory.wf_putBytes _ _ hg.2.1, hg.2.2⟩

theorem writeLine_kept {k a : Nat} {d : Bytes} {s : State} (hg : Kept qu s) : Kept qu (writeLine k a d s) := by
  unfold writeLine
  refine imeCount_kept (countEv_kept (countFix_kept ?_))
  split
  · exact countEv_kept (countFix_kept (putLine_kept (useLine_kept hg)))
  · exact putLine_kept (useLine_kept hg)

theorem memWrite_kept {k a : Nat} {d : Bytes} {s : State} (h : Kept qu s) : Kept qu (memWrite k a d s) := by
  unfold memWrite
  split
  · exact kept_foldl h (fun _ _ h => writeLine_kept h)
  · exact ⟨h.1, Memory.wf_putBytes a d h.2.1, h.2.2⟩

theorem countRead_kept {k : Nat} {a : Nat} {n : Nat} {s : State} (hg : Kept qu s) : Kept qu (countRead k a n s) := by
  unfold countRead
  repeat' first
    | with_reducible assumption | extract_lets | with_reducible apply countFix_kept | with_reducible apply countEv_kept
    | with_reducible apply useLine_kept | with_reducible (refine kept_foldl ?_ (fun _ _ _ => ?_)) | split
    | with_reducible (refine kept_snd (by with_reducible assumption) ?_) | with_reducible (refine kept_mk ?_ rfl rfl rfl)

theorem sendMsix_kept {v : Nat} {s : State} (hg : Kept qu s) : Kept qu (sendMsix v s) := by
  unfold sendMsix
  repeat' first
    | with_reducible assumption | with_reducible (refine kept_ite ?_ ?_) | refine kept_mk ?_ rfl rfl rfl

theorem sendIfDue_kept {v : Nat} {s : State} (hg : Kept qu s) : Kept qu (sendIfDue v s) := by
  unfold sendIfDue
  with_reducible repeat' first | assumption | apply sendMsix_kept | refine kept_ite ?_ ?_

theorem setCause_kept {e : Nat} {s : State} (hg : Kept qu s) : Kept qu (setCause e s) := by
  unfold setCause
  repeat' first
    | with_reducible assumption | with_reducible apply sendMsix_kept | split | refine kept_mk ?_ rfl rfl rfl

theorem setRing_kept {r : Nat} {x : Ring} {s : State} (hg : Kept qu s) : Kept qu (setRing r x s) := by
  unfold setRing
  repeat' first
    | with_reducible assumption | refine kept_mk ?_ rfl rfl rfl

theorem ringDrop_kept {r : Nat} {s : State} (hg : Kept qu s) : Kept qu (ringDrop r s) := by
  unfold ringDrop
  with_reducible repeat' first | assumption | apply setRing_kept

theorem ringFail_kept {r : Nat} {s : State} (hg : Kept qu s) : Kept qu (ringFail r s) := by
  unfold ringFail
  with_reducible repeat' first | assumption | apply setRing_kept

theorem captureFault_kept {master : Nat} {colour : Nat} {world : Nat} {a : Nat} {write : Bool} {cause : Nat} {s : State} (hg : Kept qu s) :
    Kept qu (captureFault master colour world a write cause s) := by
  unfold captureFault
  with_reducible repeat' first | assumption | refine onMem_kept ?_ rfl | apply countEv_kept | apply countFix_kept

theorem ringWrite_kept {rcd : Bytes} {s : State} (hg : Kept qu s) : Kept qu (ringWrite rcd s).2 := by
  unfold ringWrite
  dsimp only
  split
  · exact ringDrop_kept hg
  · have h1 {e : Ev} {m : Smp} : Kept qu (sampleMem m (countEv e 1 s)) := sampleMem_kept (countEv_kept hg)
    split
    · exact setRing_kept (memWrite_kept h1)
    · exact ringDrop_kept (setCause_kept (captureFault_kept (ringFail_kept h1)))

theorem countRecord_kept {s : State} (hg : Kept qu s) : Kept qu (countRecord s) := by
  unfold countRecord
  repeat' first
    | with_reducible assumption | extract_lets | split | with_reducible (refine kept_snd (by with_reducible assumption) ?_)
    | with_reducible (refine kept_mk ?_ rfl rfl rfl)

theorem ringRecord_kept {rcd : Bytes} {s : State} (hg : Kept qu s) : Kept qu (ringRecord rcd s) := by
  have h := ringWrite_kept (rcd := rcd) hg
  unfold ringRecord
  split
  · next e => rw [e] at h; exact h
  · next e =>
    rw [e] at h
    exact kept_ite h (setCause_kept (ringWrite_kept (countRecord_kept h)))

theorem keepWaiting_kept {w : Waiter} {s : State} (hg : Kept qu s) : Kept qu (keepWaiting w s) := by
  unfold keepWaiting
  repeat' first
    | with_reducible assumption | extract_lets | split | with_reducible (refine kept_snd (by with_reducible assumption) ?_)
    | with_reducible (refine kept_mk ?_ rfl rfl rfl)

theorem raise_kept {code : Nat} {data : Bytes} {s : State} (hg : Kept qu s) : Kept qu (raise code data s) := by
  unfold raise
  repeat' first
    | with_reducible assumption | with_reducible apply setCause_kept | with_reducible apply ringRecord_kept
    | with_reducible (refine kept_ite ?_ ?_) | refine kept_mk ?_ rfl rfl rfl

theorem mpuFault_kept {master : Nat} {colour : Nat} {world : Nat} {a : Nat} {write : Bool} {cause : Nat} {s : State} (hg : Kept qu s) :
    Kept qu (mpuFault master colour world a write cause s) := by
  unfold mpuFault
  with_reducible repeat' first | assumption | apply raise_kept | apply captureFault_kept

theorem masterRead_kept {master : Nat} {colour : Nat} {world : Nat} {a : Nat} {n : Nat} {s : State} (hg : Kept qu s) :
    Kept qu (masterRead master colour world a n s).2 := by
  unfold masterRead
  repeat' first
    | with_reducible assumption | extract_lets | with_reducible apply mpuFault_kept | with_reducible apply countRead_kept
    | with_reducible apply countEv_kept | with_reducible apply sampleMem_kept | split
    | with_reducible (refine kept_snd (by with_reducible assumption) ?_) | with_reducible (refine kept_mk ?_ rfl rfl rfl)

theorem masterWrite_kept {master : Nat} {colour : Nat} {world : Nat} {a : Nat} {d : Bytes} {s : State} (hg : Kept qu s) :
    Kept qu (masterWrite master colour world a d s).2 := by
  unfold masterWrite
  repeat' first
    | with_reducible assumption | extract_lets | with_reducible apply mpuFault_kept | with_reducible apply memWrite_kept
    | with_reducible apply countEv_kept | with_reducible apply sampleMem_kept | split
    | with_reducible (refine kept_snd (by with_reducible assumption) ?_) | with_reducible (refine kept_mk ?_ rfl rfl rfl)

theorem readCuts_kept {master colour world : Nat} {l : List (Nat × Nat)} {acc : Bytes} {s : State} (h : Kept qu s) :
    Kept qu (readCuts master colour world l acc s).2 := by
  induction l generalizing acc s with
  | nil => exact h
  | cons p r ih =>
    have h2 := masterRead_kept (master := master) (colour := colour) (world := world) (a := p.1) (n := p.2) h
    rcases e : masterRead master colour world p.1 p.2 s with ⟨⟨d, c⟩, t⟩
    rw [e] at h2
    simp only [readCuts, e]
    split
    · exact ih h2
    · exact h2

theorem bufRead_kept {master colour world a n : Nat} {s : State} (h : Kept qu s) : Kept qu (bufRead master colour world a n s).2 :=
  readCuts_kept h

theorem writeCuts_kept {master colour world : Nat} {l : List (Nat × Bytes)} {s : State} (h : Kept qu s) :
    Kept qu (writeCuts master colour world l s).2 := by
  induction l generalizing s with
  | nil => exact h
  | cons p r ih =>
    have h2 := masterWrite_kept (master := master) (colour := colour) (world := world) (a := p.1) (d := p.2) h
    rcases e : masterWrite master colour world p.1 p.2 s with ⟨c, t⟩
    rw [e] at h2
    simp only [writeCuts, e]
    split
    · exact ih h2
    · exact h2

theorem bufWrite_kept {master colour world a : Nat} {d : Bytes} {s : State} (h : Kept qu s) :
    Kept qu (bufWrite master colour world a d s).2 := writeCuts_kept h

theorem countFault_kept {m : Nat} {s : State} (hg : Kept qu s) : Kept qu (countFault m s) := by
  unfold countFault
  repeat' first
    | with_reducible assumption | extract_lets | with_reducible apply bumpFix_kept | split
    | with_reducible (refine kept_snd (by with_reducible assumption) ?_) | with_reducible (refine kept_mk ?_ rfl rfl rfl)

theorem logFault_kept {cls : Nat} {row : Nat} {detail : Nat} {s : State} (hg : Kept qu s) : Kept qu (logFault cls row detail s) := by
  unfold logFault
  repeat' first
    | with_reducible assumption | with_reducible (refine kept_ite ?_ ?_) | refine kept_mk ?_ rfl rfl rfl

theorem degrade_kept {row : Nat} {detail : Nat} {conditions : BitVec 4} {s : State} (hg : Kept qu s) :
    Kept qu (degrade row detail conditions s) := by
  unfold degrade
  repeat' first
    | with_reducible assumption | extract_lets | with_reducible apply countFault_kept | with_reducible apply logFault_kept
    | with_reducible apply raise_kept | split | with_reducible (refine kept_snd (by with_reducible assumption) ?_)
    | with_reducible (refine kept_mk ?_ rfl rfl rfl)

theorem pick_kept {n count : Nat} {used : List Nat} {s : State} (hg : Kept qu s) : Kept qu (pick n count used s).2 := by
  induction count generalizing used s with
  | zero => exact hg
  | succ c ih => exact ih (freeVal_kept (w := 32) hg)

theorem takeGranules_kept {n : Nat} {s : State} (hg : Kept qu s) : Kept qu (takeGranules n s).2 := pick_kept hg

theorem sump_kept {r : Reason} {l : Lost} {s : State} (hg : Kept qu s) : Kept qu (sump r l s) := by
  unfold sump
  repeat' first
    | with_reducible assumption | with_reducible apply countFix_kept | with_reducible apply countEv_kept | with_reducible apply sample_kept
    | split | refine kept_mk ?_ rfl rfl rfl

theorem forgetRing_kept {r : Nat} {s : State} (hg : Kept qu s) : Kept qu (forgetRing r s) := by
  unfold forgetRing
  repeat' first
    | with_reducible assumption | refine kept_mk ?_ rfl rfl rfl

theorem ringStopped_kept {r : Nat} {s : State} (hg : Kept qu s) : Kept qu (ringStopped r s) := by
  unfold ringStopped
  with_reducible repeat' first
    | assumption | refine kept_foldl ?_ (fun _ _ _ => ?_) | apply ringDrop_kept | apply forgetRing_kept | apply setRing_kept

theorem ringRefused_kept {r : Nat} {s : State} (hg : Kept qu s) : Kept qu (ringRefused r s) := by
  unfold ringRefused
  with_reducible repeat' first | assumption | apply ringStopped_kept | apply ringFail_kept

theorem ringAdvance_kept {r : Nat} {n : Nat} {s : State} (hg : Kept qu s) : Kept qu (ringAdvance r n s) := by
  unfold ringAdvance
  with_reducible repeat' first | assumption | apply setRing_kept | apply raise_kept | refine kept_ite ?_ ?_

theorem txFlush_kept {r n : Nat} {s : State} (h : Kept qu s) : Kept qu (txFlush r n s) := by
  induction n generalizing s with
  | zero => exact h
  | succ n ih =>
    simp only [txFlush]
    split
    · exact h
    · split
      · exact h
      · next i st _ =>
        have h1 := setRing_kept (r := r) (x := { ringOf s r with finished := (ringOf s r).finished.filter (fun d => !(d.1 == i)) }) h
        have h2 := masterWrite_kept (master := mDma) (colour := (ringOf s r).colour) (world := 3)
          (a := (ringOf s r).base + 32 * i + 28) (d := leBytes 2 st) h1
        split
        · exact ih (ringAdvance_kept h2)
        · exact ringRefused_kept h2

theorem txDone_kept {r : Nat} {index : Nat} {status : Nat} {s : State} (hg : Kept qu s) : Kept qu (txDone r index status s) := by
  unfold txDone
  repeat' first
    | with_reducible assumption | extract_lets | with_reducible apply txFlush_kept | with_reducible apply keepWaiting_kept
    | with_reducible apply setRing_kept | split | with_reducible (refine kept_snd (by with_reducible assumption) ?_)
    | with_reducible (refine kept_mk ?_ rfl rfl rfl)

theorem setChan_kept {c : Nat} {x : Chan} {s : State} (hg : Kept qu s) : Kept qu (setChan c x s) := by
  unfold setChan
  with_reducible repeat' first | assumption | apply onTraffic_kept

theorem setCluster_kept {c : Nat} {x : Cluster} {s : State} (hg : Kept qu s) : Kept qu (setCluster c x s) := by
  unfold setCluster
  with_reducible repeat' first | assumption | apply onPmu_kept

theorem putFrame_kept {fid : Nat} {f : Frame} {s : State} (hg : Kept qu s) : Kept qu (putFrame fid f s) := by
  unfold putFrame
  with_reducible repeat' first | assumption | apply onTraffic_kept

theorem putReq_kept {id : Nat} {r : Req} {s : State} (hg : Kept qu s) : Kept qu (putReq id r s) := by
  unfold putReq
  repeat' first
    | with_reducible assumption | extract_lets | split | with_reducible (refine kept_snd (by with_reducible assumption) ?_)
    | with_reducible (refine kept_mk ?_ rfl rfl rfl)

theorem addReq_kept {r : Req} {s : State} (hg : Kept qu s) : Kept qu (addReq r s) := by
  unfold addReq
  repeat' first
    | with_reducible assumption | extract_lets | with_reducible apply onTraffic_kept | with_reducible apply putReq_kept | split
    | with_reducible (refine kept_snd (by with_reducible assumption) ?_) | with_reducible (refine kept_mk ?_ rfl rfl rfl)

theorem recount_kept {s : State} (hg : Kept qu s) : Kept qu (recount s) := by
  unfold recount
  repeat' first
    | with_reducible assumption | extract_lets | with_reducible apply onPmu_kept | split
    | with_reducible (refine kept_snd (by with_reducible assumption) ?_) | with_reducible (refine kept_mk ?_ rfl rfl rfl)

theorem setRole_kept {c : Nat} {r : Role} {s : State} (hg : Kept qu s) : Kept qu (setRole c r s) := by
  unfold setRole
  repeat' first
    | with_reducible assumption | extract_lets | with_reducible apply recount_kept | with_reducible apply setDom_kept
    | with_reducible apply setCluster_kept | split | with_reducible (refine kept_snd (by with_reducible assumption) ?_)
    | with_reducible (refine kept_mk ?_ rfl rfl rfl)

theorem tryTest_kept {s : State} (hg : Kept qu s) : Kept qu (tryTest s) := by
  unfold tryTest
  repeat' first
    | with_reducible assumption | extract_lets | with_reducible apply setRole_kept | split

theorem emptied_kept {c : Nat} {s : State} (hg : Kept qu s) : Kept qu (emptied c s) := by
  unfold emptied
  repeat' first
    | with_reducible assumption | extract_lets | with_reducible apply tryTest_kept | with_reducible apply setDom_kept | split
    | with_reducible (refine kept_snd (by with_reducible assumption) ?_) | with_reducible (refine kept_mk ?_ rfl rfl rfl)

theorem vacate_kept {c : Nat} {id : Nat} {s : State} (hg : Kept qu s) : Kept qu (vacate c id s) := by
  unfold vacate
  repeat' first
    | with_reducible assumption | extract_lets | with_reducible apply setCluster_kept | with_reducible apply emptied_kept | split
    | with_reducible (refine kept_snd (by with_reducible assumption) ?_) | with_reducible (refine kept_mk ?_ rfl rfl rfl)

theorem dropReq_kept {id : Nat} {s : State} (hg : Kept qu s) : Kept qu (dropReq id s) := by
  unfold dropReq
  repeat' first
    | with_reducible assumption | extract_lets | with_reducible apply vacate_kept | split
    | with_reducible (refine kept_snd (by with_reducible assumption) ?_) | with_reducible (refine kept_mk ?_ rfl rfl rfl)

theorem putWork_kept {n : Nat} {w : LaWork} {s : State} (hg : Kept qu s) : Kept qu (putWork n w s) := by
  unfold putWork
  repeat' first
    | with_reducible assumption | extract_lets | split | with_reducible (refine kept_snd (by with_reducible assumption) ?_)
    | with_reducible (refine kept_mk ?_ rfl rfl rfl)

theorem loseReq_kept {r : Reason} {id : Nat} {s : State} (hg : Kept qu s) : Kept qu (loseReq r id s) := by
  unfold loseReq
  repeat' first
    | with_reducible assumption | extract_lets | with_reducible apply putWork_kept | with_reducible apply txDone_kept
    | with_reducible apply dropReq_kept | split | with_reducible (refine kept_snd (by with_reducible assumption) ?_)
    | with_reducible (refine kept_mk ?_ rfl rfl rfl)

theorem loseReqs_kept {r : Reason} {p : Req → Bool} {s : State} (hg : Kept qu s) : Kept qu (loseReqs r p s) := by
  unfold loseReqs
  repeat' first
    | with_reducible assumption | extract_lets | with_reducible apply loseReq_kept
    | with_reducible (refine kept_foldl ?_ (fun _ _ _ => ?_)) | split
    | with_reducible (refine kept_snd (by with_reducible assumption) ?_) | with_reducible (refine kept_mk ?_ rfl rfl rfl)

theorem removeFrame_kept {fid : Nat} {s : State} (hg : Kept qu s) : Kept qu (removeFrame fid s) := by
  unfold removeFrame
  repeat' first
    | with_reducible assumption | extract_lets | with_reducible apply setChan_kept | with_reducible apply vacate_kept
    | with_reducible (refine onMem_kept ?_ rfl) | with_reducible apply onTraffic_kept | split
    | with_reducible (refine kept_snd (by with_reducible assumption) ?_) | with_reducible (refine kept_mk ?_ rfl rfl rfl)

theorem discard_kept {r : Reason} {fid : Nat} {s : State} (hg : Kept qu s) : Kept qu (discard r fid s) := by
  unfold discard
  repeat' first
    | with_reducible assumption | extract_lets | with_reducible apply removeFrame_kept | with_reducible apply sump_kept | split
    | with_reducible (refine kept_snd (by with_reducible assumption) ?_) | with_reducible (refine kept_mk ?_ rfl rfl rfl)

theorem discardAll_kept {r : Reason} {p : Frame → Bool} {s : State} (hg : Kept qu s) : Kept qu (discardAll r p s) := by
  unfold discardAll
  with_reducible repeat' first | assumption | refine kept_foldl ?_ (fun _ _ _ => ?_) | apply discard_kept

theorem clearFrames_kept {s : State} (hg : Kept qu s) : Kept qu (clearFrames s) := by
  unfold clearFrames
  repeat' first
    | with_reducible assumption | refine kept_mk ?_ rfl rfl rfl

theorem stpRecord_kept {source : Nat} {kind : Nat} {detail : Nat} {s : State} (hg : Kept qu s) :
    Kept qu (stpRecord source kind detail s) := by
  unfold stpRecord
  with_reducible repeat' first | assumption | apply onStp_kept

theorem mate_kept {type : Nat} {body : Bytes} {s : State} (hg : Kept qu s) : Kept qu (mate type body s) := by
  unfold mate
  repeat' first
    | with_reducible assumption | with_reducible (refine kept_ite ?_ ?_) | refine kept_mk ?_ rfl rfl rfl

theorem mateHalting_kept {cause : Nat} {s : State} (hg : Kept qu s) : Kept qu (mateHalting cause s) := by
  unfold mateHalting
  with_reducible repeat' first | assumption | apply mate_kept

theorem cutFrames_kept {s : State} (hg : Kept qu s) : Kept qu (cutFrames s) := by
  unfold cutFrames
  with_reducible repeat' first | assumption | refine kept_foldl ?_ (fun _ _ _ => ?_) | apply emit_kept

theorem halt_kept {cause : Nat} {s : State} (hg : Kept qu s) : Kept qu (halt cause s) := by
  unfold halt
  repeat' first
    | with_reducible assumption | with_reducible (refine kept_foldl ?_ (fun _ _ _ => ?_)) | with_reducible apply setCause_kept
    | with_reducible apply mateHalting_kept | with_reducible apply emit_kept | with_reducible (refine kept_ite ?_ ?_)
    | refine kept_mk ?_ rfl rfl rfl

theorem destroy_kept {source : Nat} {s : State} (hg : Kept qu s) : Kept qu (destroy source s) := by
  unfold destroy
  repeat' first
    | with_reducible assumption | extract_lets | with_reducible apply onKeys_kept | with_reducible apply onPair_kept
    | with_reducible apply onStp_kept | with_reducible apply onPmu_kept | with_reducible apply discardAll_kept
    | with_reducible apply loseReqs_kept | split | with_reducible (refine kept_snd (by with_reducible assumption) ?_)
    | with_reducible (refine kept_mk ?_ rfl rfl rfl)

theorem correctable_kept {stack : Nat} {s : State} (hg : Kept qu s) : Kept qu (correctable stack s) := by
  unfold correctable
  repeat' first
    | with_reducible assumption | extract_lets | with_reducible (refine onMem_kept ?_ rfl) | with_reducible apply countFault_kept
    | with_reducible apply logFault_kept | split | with_reducible (refine kept_snd (by with_reducible assumption) ?_)
    | with_reducible (refine kept_mk ?_ rfl rfl rfl)

theorem withEcc_kept {e : Ecc} {step : State → State} {s : State} (hg : Kept qu s) (hs : ∀ s, Kept qu s → Kept qu (step s)) :
    Kept qu (withEcc e step s) := by
  unfold withEcc
  repeat' first
    | with_reducible assumption | extract_lets | with_reducible apply halt_kept | with_reducible apply correctable_kept
    | with_reducible apply hs | split

theorem parityFault_kept {bad : List Nat} {s : State} (hg : Kept qu s) : Kept qu (parityFault bad s) := by
  unfold parityFault
  repeat' first
    | with_reducible assumption | extract_lets | with_reducible apply countFault_kept | with_reducible apply logFault_kept | split
    | with_reducible (refine kept_snd (by with_reducible assumption) ?_) | with_reducible (refine kept_mk ?_ rfl rfl rfl)

theorem granuleError_kept {fid : Nat} {bad : List Nat} {s : State} (hg : Kept qu s) : Kept qu (granuleError fid bad s) := by
  unfold granuleError
  repeat' first
    | with_reducible assumption | extract_lets | with_reducible apply putFrame_kept | with_reducible apply parityFault_kept | split
    | with_reducible (refine kept_snd (by with_reducible assumption) ?_) | with_reducible (refine kept_mk ?_ rfl rfl rfl)

theorem looseError_kept {bad : List Nat} {s : State} (hg : Kept qu s) : Kept qu (looseError bad s) := by
  unfold looseError
  repeat' first
    | with_reducible assumption | extract_lets | with_reducible apply parityFault_kept | with_reducible (refine onMem_kept ?_ rfl)
    | split | with_reducible (refine kept_snd (by with_reducible assumption) ?_) | with_reducible (refine kept_mk ?_ rfl rfl rfl)

theorem quarantineLimit_kept {s : State} (hg : Kept qu s) : Kept qu (quarantineLimit s) := by
  unfold quarantineLimit
  repeat' first
    | with_reducible assumption | extract_lets | with_reducible apply degrade_kept | split
    | with_reducible (refine kept_snd (by with_reducible assumption) ?_) | with_reducible (refine kept_mk ?_ rfl rfl rfl)

theorem putK_kept {n : Nat} {x : Slot} {s : State} (hg : Kept qu s) : Kept qu (putK n x s) := by
  unfold putK
  with_reducible repeat' first | assumption | apply onKeys_kept

theorem putG_kept {g : Nat} {x : Slot} {s : State} (hg : Kept qu s) : Kept qu (putG g x s) := by
  unfold putG
  with_reducible repeat' first | assumption | apply onKeys_kept

theorem recompute_kept {s : State} (hg : Kept qu s) : Kept qu (recompute s) := by
  unfold recompute
  with_reducible repeat' first | assumption | apply onKeys_kept

theorem readInternal_kept {h : Nat} {s : State} (hg : Kept qu s) : Kept qu (readInternal h s).2 := by
  unfold readInternal
  repeat' first
    | with_reducible assumption | extract_lets | with_reducible apply halt_kept | split

theorem holdInternal_kept {h : Nat} {l : Line} {s : State} (hg : Kept qu s) : Kept qu (holdInternal h l s) := by
  unfold holdInternal
  repeat' first
    | with_reducible assumption | extract_lets | with_reducible apply onKeys_kept | split
    | with_reducible (refine kept_snd (by with_reducible assumption) ?_) | with_reducible (refine kept_mk ?_ rfl rfl rfl)

theorem putInternal_kept {h : Nat} {v : Key} {s : State} (hg : Kept qu s) : Kept qu (putInternal h v s) := by
  unfold putInternal
  repeat' first
    | with_reducible assumption | extract_lets | with_reducible apply holdInternal_kept | with_reducible apply draw_kept | split
    | with_reducible (refine kept_snd (by with_reducible assumption) ?_) | with_reducible (refine kept_mk ?_ rfl rfl rfl)

theorem putKeyed_kept {h : Nat} {v : Key} {s : State} (hg : Kept qu s) : Kept qu (putKeyed h v s) := by
  unfold putKeyed
  repeat' first
    | with_reducible assumption | extract_lets | with_reducible apply holdInternal_kept | with_reducible apply draw_kept | split
    | with_reducible (refine kept_snd (by with_reducible assumption) ?_) | with_reducible (refine kept_mk ?_ rfl rfl rfl)

theorem dropInternal_kept {h : Nat} {s : State} (hg : Kept qu s) : Kept qu (dropInternal h s) := by
  unfold dropInternal
  with_reducible repeat' first | assumption | apply onKeys_kept

theorem freshSa_kept {n : Nat} {s : State} (hg : Kept qu s) : Kept qu (freshSa n s) := by
  unfold freshSa
  with_reducible repeat' first | assumption | apply onPair_kept | apply onTraffic_kept

theorem installK_kept {n : Nat} {suite : Nat} {origin : Nat} {key : Key} {salt : Salt} {s : State} (hg : Kept qu s) :
    Kept qu (installK n suite origin key salt s) := by
  unfold installK
  repeat' first
    | with_reducible assumption | extract_lets | with_reducible apply setChan_kept | with_reducible apply freshSa_kept
    | with_reducible apply putK_kept | with_reducible apply draw_kept | split
    | with_reducible (refine kept_snd (by with_reducible assumption) ?_) | with_reducible (refine kept_mk ?_ rfl rfl rfl)

theorem destroyK_kept {n : Nat} {s : State} (hg : Kept qu s) : Kept qu (destroyK n s) := by
  unfold destroyK
  with_reducible repeat' first | assumption | apply putK_kept | apply freshSa_kept

theorem tieKeys_kept {ca : Nat} {size : Nat} {cak : NatList} {s : State} (hg : Kept qu s) : Kept qu (tieKeys ca size cak s) := by
  unfold tieKeys
  repeat' first
    | with_reducible assumption | extract_lets | with_reducible apply putInternal_kept | split
    | with_reducible (refine kept_snd (by with_reducible assumption) ?_) | with_reducible (refine kept_mk ?_ rfl rfl rfl)

theorem untieCa_kept {ca : Nat} {s : State} (hg : Kept qu s) : Kept qu (untieCa ca s) := by
  unfold untieCa
  repeat' first
    | with_reducible assumption | extract_lets | with_reducible apply dropInternal_kept | split
    | with_reducible (refine kept_snd (by with_reducible assumption) ?_) | with_reducible (refine kept_mk ?_ rfl rfl rfl)

theorem readG_kept {g : Nat} {s : State} (hg : Kept qu s) : Kept qu (readG g s).2 := by
  unfold readG
  repeat' first
    | with_reducible assumption | extract_lets | with_reducible apply putG_kept | with_reducible apply countFault_kept
    | with_reducible apply logFault_kept | with_reducible apply untieCa_kept | with_reducible (refine kept_foldl ?_ (fun _ _ _ => ?_))
    | split | with_reducible (refine kept_snd (by with_reducible assumption) ?_) | with_reducible (refine kept_mk ?_ rfl rfl rfl)

theorem tieCa_kept {ca : Nat} {g : Nat} {s : State} (hg : Kept qu s) : Kept qu (tieCa ca g s) := by
  unfold tieCa
  repeat' first
    | with_reducible assumption | extract_lets | with_reducible apply tieKeys_kept | with_reducible apply readG_kept
    | with_reducible apply putG_kept | split | with_reducible (refine kept_snd (by with_reducible assumption) ?_)
    | with_reducible (refine kept_mk ?_ rfl rfl rfl)

theorem retie_kept {g : Nat} {s : State} (hg : Kept qu s) : Kept qu (retie g s) := by
  unfold retie
  with_reducible repeat' first
    | assumption | refine kept_foldl ?_ (fun _ _ _ => ?_) | apply tieCa_kept | apply untieCa_kept | refine kept_ite ?_ ?_

theorem tieAll_kept {s : State} (hg : Kept qu s) : Kept qu (tieAll s) := by
  unfold tieAll
  repeat' first
    | with_reducible assumption | extract_lets | with_reducible apply tieCa_kept
    | with_reducible (refine kept_foldl ?_ (fun _ _ _ => ?_)) | split
    | with_reducible (refine kept_snd (by with_reducible assumption) ?_) | with_reducible (refine kept_mk ?_ rfl rfl rfl)

theorem installG_kept {g : Nat} {word : W64} {key : Key} {s : State} (hg : Kept qu s) : Kept qu (installG g word key s) := by
  unfold installG
  repeat' first
    | with_reducible assumption | extract_lets | with_reducible apply putG_kept | with_reducible apply retie_kept
    | with_reducible apply draw_kept | split | with_reducible (refine kept_snd (by with_reducible assumption) ?_)
    | with_reducible (refine kept_mk ?_ rfl rfl rfl)

theorem destroyG_kept {g : Nat} {s : State} (hg : Kept qu s) : Kept qu (destroyG g s) := by
  unfold destroyG
  with_reducible repeat' first | assumption | apply retie_kept | apply putG_kept

theorem redrawCounts_kept {s : State} (hg : Kept qu s) : Kept qu (redrawCounts s) := by
  unfold redrawCounts
  repeat' first
    | with_reducible assumption | refine kept_mk ?_ rfl rfl rfl

theorem chargeUse_kept {g : Nat} {s : State} (hg : Kept qu s) : Kept qu (chargeUse g s) := by
  unfold chargeUse
  with_reducible repeat' first | assumption | apply raise_kept | apply putG_kept | refine kept_ite ?_ ?_

theorem useG_kept {g : Nat} {use : Nat} {w : World} {master : Nat} {charge : Bool} {s : State} (hg : Kept qu s) :
    Kept qu (useG g use w master charge s).2 := by
  unfold useG
  repeat' first
    | with_reducible assumption | extract_lets | with_reducible apply putG_kept | with_reducible apply chargeUse_kept | split

theorem newImeKey_kept {k : Nat} {g : Bool} {s : State} (hg : Kept qu s) : Kept qu (newImeKey k g s) := by
  unfold newImeKey
  repeat' first
    | with_reducible assumption | extract_lets | with_reducible apply onKeys_kept | with_reducible apply draw_kept | split
    | with_reducible (refine kept_snd (by with_reducible assumption) ?_) | with_reducible (refine kept_mk ?_ rfl rfl rfl)

theorem newImeKeys_kept {s : State} (hg : Kept qu s) : Kept qu (newImeKeys s) := by
  unfold newImeKeys
  with_reducible repeat' first | assumption | refine kept_foldl ?_ (fun _ _ _ => ?_) | apply newImeKey_kept

theorem erasePersist_kept {g : Nat} {s : State} (hg : Kept qu s) : Kept qu (erasePersist g s) := by
  unfold erasePersist
  repeat' first
    | with_reducible assumption | extract_lets | with_reducible apply onNvm_kept | with_reducible apply readInternal_kept | split
    | with_reducible (refine kept_snd (by with_reducible assumption) ?_) | with_reducible (refine kept_mk ?_ rfl rfl rfl)

theorem writePersist_kept {g : Nat} {word : W64} {key : Key} {s : State} (hg : Kept qu s) : Kept qu (writePersist g word key s).2 := by
  unfold writePersist
  repeat' first
    | with_reducible assumption | extract_lets | with_reducible apply onNvm_kept | with_reducible apply readInternal_kept | split
    | with_reducible (refine kept_snd (by with_reducible assumption) ?_) | with_reducible (refine kept_mk ?_ rfl rfl rfl)

theorem installPersisted_kept {g : Nat} {word : W64} {key : Key} {s : State} (hg : Kept qu s) :
    Kept qu (installPersisted g word key s).2 := by
  unfold installPersisted
  repeat' first
    | with_reducible assumption | with_reducible apply writePersist_kept | with_reducible apply installG_kept
    | with_reducible apply erasePersist_kept | split | with_reducible (refine kept_snd (by with_reducible assumption) ?_)

theorem setPattr_kept {s : State} {q : Nat} {a : Nat} {v : Nat} (hg : Kept qu s) : Kept qu (setPattr s q a v) := by
  unfold setPattr
  with_reducible repeat' first | assumption | apply setAttr_kept

theorem setPort_kept {q : Nat} {x : PortSt} {s : State} (hg : Kept qu s) : Kept qu (setPort q x s) := by
  unfold setPort
  with_reducible repeat' first | assumption | apply onTraffic_kept

theorem setPn_kept {n : Nat} {pn : Nat} {s : State} (hg : Kept qu s) : Kept qu (setPn n pn s) := by
  unfold setPn
  with_reducible repeat' first | assumption | apply onTraffic_kept

theorem setCa_kept {n : Nat} {x : Ca} {s : State} (hg : Kept qu s) : Kept qu (setCa n x s) := by
  unfold setCa
  repeat' first
    | with_reducible assumption | refine kept_mk ?_ rfl rfl rfl

theorem rekeyFrom_kept {tick : Nat} {ca : Nat} {s : State} (hg : Kept qu s) : Kept qu (rekeyFrom tick ca s) := by
  unfold rekeyFrom
  repeat' first
    | with_reducible assumption | extract_lets | with_reducible apply setCa_kept | split
    | with_reducible (refine kept_snd (by with_reducible assumption) ?_) | with_reducible (refine kept_mk ?_ rfl rfl rfl)

theorem rekeyDue_kept {ca : Nat} {s : State} (hg : Kept qu s) : Kept qu (rekeyDue ca s) := by
  unfold rekeyDue
  repeat' first
    | with_reducible assumption | extract_lets | with_reducible apply rekeyFrom_kept | split
    | with_reducible (refine kept_snd (by with_reducible assumption) ?_) | with_reducible (refine kept_mk ?_ rfl rfl rfl)

theorem requestRekey_kept {c : Nat} {s : State} (hg : Kept qu s) : Kept qu (requestRekey c s) := by
  unfold requestRekey
  with_reducible repeat' first | assumption | apply rekeyDue_kept | refine kept_ite ?_ ?_

theorem pnThresh_kept {c : Nat} {n : Nat} {s : State} (hg : Kept qu s) : Kept qu (pnThresh c n s) := by
  unfold pnThresh
  with_reducible repeat' first | assumption | apply requestRekey_kept | apply raise_kept | apply onTraffic_kept | refine kept_ite ?_ ?_

theorem freeze_kept {c : Nat} {s : State} (hg : Kept qu s) : Kept qu (freeze c s) := by
  unfold freeze
  with_reducible repeat' first | assumption | apply raise_kept | apply setChan_kept | refine kept_ite ?_ ?_

theorem limitsChanged_kept {c : Nat} {s : State} (hg : Kept qu s) : Kept qu (limitsChanged c s) := by
  unfold limitsChanged
  with_reducible repeat' first | assumption | apply pnThresh_kept | apply freeze_kept | refine kept_ite ?_ ?_

theorem freeChan_kept {c : Nat} {s : State} (hg : Kept qu s) : Kept qu (freeChan c s) := by
  unfold freeChan
  repeat' first
    | with_reducible assumption | with_reducible (refine kept_ite ?_ ?_) | refine kept_mk ?_ rfl rfl rfl

theorem setPDisp_kept {p : Nat} {s : State} (hg : Kept qu s) : Kept qu (setPDisp p s) := by
  unfold setPDisp
  repeat' first
    | with_reducible assumption | extract_lets | with_reducible apply onPmu_kept | split
    | with_reducible (refine kept_snd (by with_reducible assumption) ?_) | with_reducible (refine kept_mk ?_ rfl rfl rfl)

theorem pushMgmt_kept {q : Nat} {m : MgmtFrame} {s : State} (hg : Kept qu s) : Kept qu (pushMgmt q m s) := by
  unfold pushMgmt
  repeat' first
    | with_reducible assumption | extract_lets | with_reducible apply setPort_kept | with_reducible apply takeGranules_kept
    | with_reducible (refine kept_foldl ?_ (fun _ _ _ => ?_)) | split
    | with_reducible (refine kept_snd (by with_reducible assumption) ?_) | with_reducible (refine kept_mk ?_ rfl rfl rfl)

theorem setGate_kept {q : Nat} {x : Gate} {s : State} (hg : Kept qu s) : Kept qu (setGate q x s) := by
  unfold setGate
  with_reducible repeat' first | assumption | apply onTraffic_kept

theorem storeQueues_kept {s : State} (hg : Kept qu s) : Kept qu (storeQueues s) := by
  unfold storeQueues
  with_reducible repeat' first | assumption | refine kept_foldl ?_ (fun _ _ _ => ?_) | apply setPattr_kept

theorem checked_kept {s t : State} (hg : Kept qu s) (e : checked s = some t) : Kept qu t := by
  unfold checked at e
  split at e
  · cases e; exact storeQueues_kept hg
  · exact nomatch e

theorem setMbx_kept {mb : Nat} {x : Mbx} {s : State} (hg : Kept qu s) : Kept qu (setMbx mb x s) := by
  unfold setMbx
  repeat' first
    | with_reducible assumption | refine kept_mk ?_ rfl rfl rfl

theorem answer_kept {mb : Nat} {r : Reply} {s : State} (hg : Kept qu s) : Kept qu (answer mb r s) := by
  unfold answer
  with_reducible repeat' first | assumption | apply setMbx_kept | apply countEv_kept | apply countFix_kept | refine kept_ite ?_ ?_

theorem wrapSlot_kept {x : Slot} {s : State} (hg : Kept qu s) : Kept qu (wrapSlot x s).2 := by
  unfold wrapSlot
  repeat' first
    | with_reducible assumption | extract_lets | with_reducible apply readInternal_kept | split
    | with_reducible (refine kept_snd (by with_reducible assumption) ?_) | with_reducible (refine kept_mk ?_ rfl rfl rfl)

theorem slotBody_kept {o : Nat} {s : State} (hg : Kept qu s) : Kept qu (slotBody o s).2 := by
  unfold slotBody
  repeat' first
    | with_reducible assumption | extract_lets | with_reducible apply readG_kept | with_reducible apply halt_kept
    | with_reducible apply putG_kept | with_reducible apply wrapSlot_kept | split
    | with_reducible (refine kept_snd (by with_reducible assumption) ?_) | with_reducible (refine kept_mk ?_ rfl rfl rfl)

theorem mirrorBody_kept {o : Nat} {s : State} (hg : Kept qu s) : Kept qu (mirrorBody o s).2 := by
  unfold mirrorBody
  repeat' first
    | with_reducible assumption | extract_lets | with_reducible apply slotBody_kept | split
    | with_reducible (refine kept_snd (by with_reducible assumption) ?_) | with_reducible (refine kept_mk ?_ rfl rfl rfl)

theorem sendMirror_kept {o : Nat} {s : State} (hg : Kept qu s) : Kept qu (sendMirror o s) := by
  unfold sendMirror
  repeat' first
    | with_reducible assumption | extract_lets | with_reducible apply onPair_kept | with_reducible apply mate_kept
    | with_reducible apply mirrorBody_kept | split | with_reducible (refine kept_snd (by with_reducible assumption) ?_)
    | with_reducible (refine kept_mk ?_ rfl rfl rfl)

theorem touch_kept {o : Nat} {s : State} (hg : Kept qu s) : Kept qu (touch o s) := by
  unfold touch
  with_reducible repeat' first | assumption | apply onPair_kept | apply sendMirror_kept | refine kept_ite ?_ ?_

theorem sendAll_kept {s : State} (hg : Kept qu s) : Kept qu (sendAll s) := by
  unfold sendAll
  repeat' first
    | with_reducible assumption | extract_lets | with_reducible apply sendMirror_kept | with_reducible apply onPair_kept
    | with_reducible (refine kept_foldl ?_ (fun _ _ _ => ?_)) | split
    | with_reducible (refine kept_snd (by with_reducible assumption) ?_) | with_reducible (refine kept_mk ?_ rfl rfl rfl)

theorem updateReady_kept {s : State} (hg : Kept qu s) : Kept qu (updateReady s) := by
  unfold updateReady
  repeat' first
    | with_reducible assumption | extract_lets | with_reducible apply onPair_kept | with_reducible apply sendAll_kept | split

theorem startHandover_kept {mb : Option Nat} {s : State} (hg : Kept qu s) : Kept qu (startHandover mb s) := by
  unfold startHandover
  with_reducible repeat' first | assumption | apply mate_kept | apply onPair_kept

theorem tryYield_kept {s : State} (hg : Kept qu s) : Kept qu (tryYield s) := by
  unfold tryYield
  with_reducible repeat' first | assumption | apply startHandover_kept | refine kept_ite ?_ ?_

theorem settle_kept {s0 : State} {s : State} (hg : Kept qu s) : Kept qu (settle s0 s) := by
  unfold settle
  with_reducible repeat' first | assumption | apply tryYield_kept | apply updateReady_kept | apply mate_kept | refine kept_ite ?_ ?_

theorem raisePsel_kept {s : State} (hg : Kept qu s) : Kept qu (raisePsel s) := by
  unfold raisePsel
  with_reducible repeat' first | assumption | apply onPair_kept

theorem lowerPsel_kept {s : State} (hg : Kept qu s) : Kept qu (lowerPsel s) := by
  unfold lowerPsel
  with_reducible repeat' first | assumption | apply onPair_kept

theorem jumpSlot_kept {n : Nat} {s : State} (hg : Kept qu s) : Kept qu (jumpSlot n s) := by
  unfold jumpSlot
  repeat' first
    | with_reducible assumption | extract_lets | with_reducible apply onPair_kept | with_reducible apply setPn_kept | split
    | with_reducible (refine kept_snd (by with_reducible assumption) ?_) | with_reducible (refine kept_mk ?_ rfl rfl rfl)

theorem pnJump_kept {s : State} (hg : Kept qu s) : Kept qu (pnJump s) := by
  unfold pnJump
  repeat' first
    | with_reducible assumption | extract_lets | with_reducible apply freeze_kept | with_reducible apply requestRekey_kept
    | with_reducible apply jumpSlot_kept | with_reducible (refine kept_foldl ?_ (fun _ _ _ => ?_)) | split
    | with_reducible (refine kept_snd (by with_reducible assumption) ?_) | with_reducible (refine kept_mk ?_ rfl rfl rfl)

theorem jumpMn_kept {s : State} (hg : Kept qu s) : Kept qu (jumpMn s) := by
  unfold jumpMn
  repeat' first
    | with_reducible assumption | refine kept_mk ?_ rfl rfl rfl

theorem takeLease_kept {s : State} (hg : Kept qu s) : Kept qu (takeLease s) := by
  unfold takeLease
  with_reducible repeat' first
    | assumption | apply pnJump_kept | apply onPair_kept | apply jumpMn_kept | apply raisePsel_kept | apply raise_kept
    | apply countFix_kept

theorem holdUnpaired_kept {s : State} (hg : Kept qu s) : Kept qu (holdUnpaired s) := by
  unfold holdUnpaired
  with_reducible repeat' first | assumption | apply raisePsel_kept | apply raise_kept | apply countFix_kept | apply onPair_kept

theorem standDown_kept {l : Lease} {s : State} (hg : Kept qu s) : Kept qu (standDown l s) := by
  unfold standDown
  repeat' first
    | with_reducible assumption | extract_lets | with_reducible apply onPair_kept | with_reducible apply lowerPsel_kept
    | with_reducible (refine kept_foldl ?_ (fun _ _ _ => ?_)) | split
    | with_reducible (refine kept_snd (by with_reducible assumption) ?_) | with_reducible (refine kept_mk ?_ rfl rfl rfl)

theorem dropHandover_kept {s : State} (hg : Kept qu s) : Kept qu (dropHandover s) := by
  unfold dropHandover
  repeat' first
    | with_reducible assumption | extract_lets | with_reducible apply onPair_kept | with_reducible apply answer_kept | split
    | with_reducible (refine kept_snd (by with_reducible assumption) ?_) | with_reducible (refine kept_mk ?_ rfl rfl rfl)

theorem losePartner_kept {s : State} (hg : Kept qu s) : Kept qu (losePartner s) := by
  unfold losePartner
  repeat' first
    | with_reducible assumption | extract_lets | with_reducible apply degrade_kept | with_reducible apply dropHandover_kept
    | with_reducible apply onPair_kept | split | with_reducible (refine kept_snd (by with_reducible assumption) ?_)
    | with_reducible (refine kept_mk ?_ rfl rfl rfl)

theorem useSession_kept {mb : Nat} {s : State} (hg : Kept qu s) : Kept qu (useSession mb s) := by
  unfold useSession
  repeat' first
    | with_reducible assumption | extract_lets | with_reducible apply setMbx_kept | split
    | with_reducible (refine kept_snd (by with_reducible assumption) ?_) | with_reducible (refine kept_mk ?_ rfl rfl rfl)

theorem begun_kept {mb : Nat} {s : State} (hg : Kept qu s) : Kept qu (begun mb s) := kept_ite hg (useSession_kept hg)

theorem request_kept {worlds : List World} {modes : List Mode} {mb : Nat} {run : World → State → Option Reply × State} {s : State}
    (hg : Kept qu s) (hr : ∀ w s, Kept qu s → Kept qu (run w s).2) : KeptR qu (request worlds modes mb run s) := by
  unfold request
  show Kept qu _
  split
  · exact hg
  · split
    · exact answer_kept (begun_kept hg)
    · next w _ =>
      have h := hr w (begun mb s) (begun_kept hg)
      split
      · next e => rw [e] at h; exact answer_kept h
      · next e => rw [e] at h; exact h

theorem refuseRequest_kept {mb : Nat} {st : Status} {s : State} (hg : Kept qu s) : KeptR qu (refuseRequest mb st s) := by
  unfold refuseRequest
  repeat' first
    | with_reducible assumption | extract_lets | with_reducible apply keptR_next | with_reducible apply answer_kept | split
    | with_reducible (refine kept_snd (by with_reducible assumption) ?_) | with_reducible (refine kept_mk ?_ rfl rfl rfl)

theorem openRequest_kept {inBoot : Bool} {mb : Nat} {run : State → Reply × State} {s : State}
    (hg : Kept qu s) (hr : ∀ s, Kept qu s → Kept qu (run s).2) : KeptR qu (openRequest inBoot mb run s) := by
  have h := hr s hg
  rcases e : run s with ⟨r, t⟩
  rw [e] at h
  unfold openRequest
  simp only [e]
  show Kept qu _
  repeat' split
  · exact hg
  · exact answer_kept hg
  · exact answer_kept hg
  · exact answer_kept h

theorem deny_kept {st : Status} {s : State} (hg : Kept qu s) : Kept qu (deny st s).2 := by
  unfold deny
  with_reducible repeat' assumption

theorem done_kept {body : Bytes} {s : State} (hg : Kept qu s) : Kept qu (done body s).2 := by
  unfold done
  with_reducible repeat' assumption

theorem whenFree_kept {k : State → Option Reply × State} {s : State} (hg : Kept qu s) (hk : ∀ s, Kept qu s → Kept qu (k s).2) :
    Kept qu (whenFree k s).2 := by
  unfold whenFree
  split
  · exact hg
  · exact hk s hg

theorem withBuffer_kept {w : World} {addr colour n : Nat} {k : Bytes → State → Option Reply × State} {s : State} (hg : Kept qu s)
    (hk : ∀ b s, Kept qu s → Kept qu (k b s).2) : Kept qu (withBuffer w addr colour n k s).2 := by
  unfold withBuffer
  refine whenFree_kept hg (fun s h => ?_)
  have h1 := bufRead_kept (master := mCp) (colour := colour) (world := w.code) (a := addr) (n := n) h
  split
  · next e => rw [e] at h1; exact hk _ _ h1
  · next e => rw [e] at h1; exact h1

theorem intoBuffer_kept {w : World} {addr colour : Nat} {d body : Bytes} {s : State} (hg : Kept qu s) :
    Kept qu (intoBuffer w addr colour d body s).2 := by
  unfold intoBuffer
  refine whenFree_kept hg (fun s h => ?_)
  have h1 := bufWrite_kept (master := mCp) (colour := colour) (world := w.code) (a := addr) (d := d) h
  split
  · next e => rw [e] at h1; exact h1
  · next e => rw [e] at h1; exact h1

theorem closeSession_kept {mb : Nat} {s : State} (hg : Kept qu s) : Kept qu (closeSession mb s) := by
  unfold closeSession
  repeat' first
    | with_reducible assumption | extract_lets | with_reducible apply setMbx_kept | with_reducible apply onDp_kept | split

theorem closeAll_kept {s : State} (hg : Kept qu s) : Kept qu (closeAll s) := by
  unfold closeAll
  with_reducible repeat' first | assumption | refine kept_foldl ?_ (fun _ _ _ => ?_) | apply closeSession_kept

theorem closeEnrolment_kept {s : State} (hg : Kept qu s) : Kept qu (closeEnrolment s) := by
  unfold closeEnrolment
  with_reducible repeat' first | assumption | refine kept_foldl ?_ (fun _ _ _ => ?_) | apply closeSession_kept | refine kept_ite ?_ ?_

theorem respond_kept {mb : Nat} {s : State} (hg : Kept qu s) : Kept qu (respond mb s) := by
  unfold respond
  repeat' first
    | with_reducible assumption | extract_lets | with_reducible apply setMbx_kept | with_reducible apply raise_kept | split

theorem setMode_kept {m : Mode} {s : State} (hg : Kept qu s) : Kept qu (setMode m s) := by
  unfold setMode
  repeat' first
    | with_reducible assumption | extract_lets | with_reducible apply closeEnrolment_kept | with_reducible apply onGlb_kept
    | with_reducible apply recompute_kept | with_reducible apply tieAll_kept | split
    | with_reducible (refine kept_snd (by with_reducible assumption) ?_) | with_reducible (refine kept_mk ?_ rfl rfl rfl)

theorem afterMirror_kept {mb : Nat} {o : Nat} {wasReady : Bool} {r : Reply} {s : State} (hg : Kept qu s) :
    Kept qu (afterMirror mb o wasReady r s).2 := by
  unfold afterMirror
  repeat' first
    | with_reducible assumption | with_reducible apply onPair_kept | split

theorem mirrorDone_kept {o : Nat} {s : State} (hg : Kept qu s) : Kept qu (mirrorDone o s) := by
  unfold mirrorDone
  with_reducible repeat' first | assumption | refine kept_foldl ?_ (fun _ _ _ => ?_) | apply onPair_kept | apply answer_kept

theorem srcRecord_kept {n : Nat} {kind : Nat} {detail : Nat} {s : State} (hg : Kept qu s) : Kept qu (srcRecord n kind detail s) := by
  unfold srcRecord
  with_reducible repeat' first | assumption | apply stpRecord_kept | apply raise_kept | refine kept_ite ?_ ?_

theorem recordRecognition_kept {n : Nat} {kind : Nat} {s : State} (hg : Kept qu s) : Kept qu (recordRecognition n kind s) := by
  unfold recordRecognition
  with_reducible repeat' first | assumption | apply srcRecord_kept | apply onStp_kept | refine kept_ite ?_ ?_

theorem srcLevel_kept {n : Nat} {alarm : Bool} {s : State} (hg : Kept qu s) : Kept qu (srcLevel n alarm s) := by
  unfold srcLevel
  with_reducible repeat' first | assumption | apply onStp_kept

theorem assertSource_kept {n : Nat} {s : State} (hg : Kept qu s) : Kept qu (assertSource n s) := by
  unfold assertSource
  with_reducible repeat' first | assumption | apply srcLevel_kept | apply onStp_kept | apply recordRecognition_kept | refine kept_ite ?_ ?_

theorem execTamperAssert_kept {sources : NatList} {s : State} (hg : Kept qu s) : KeptR qu (execTamperAssert sources s) := by
  unfold execTamperAssert
  repeat' first
    | with_reducible assumption | extract_lets | with_reducible (refine kept_foldl ?_ (fun _ _ _ => ?_)) | with_reducible apply keptR_next
    | with_reducible apply assertSource_kept | with_reducible apply destroy_kept | with_reducible apply stpRecord_kept
    | with_reducible apply onKeys_kept | with_reducible (refine kept_ite ?_ ?_)

theorem execTamperClear_kept {source : SrcNo} {s : State} (hg : Kept qu s) : KeptR qu (execTamperClear source s) := by
  unfold execTamperClear
  with_reducible repeat' first
    | assumption | apply keptR_next | apply srcLevel_kept | apply recordRecognition_kept | apply onStp_kept | refine kept_ite ?_ ?_

theorem rtcSecond_kept {s : State} (hg : Kept qu s) : Kept qu (rtcSecond s) := by
  unfold rtcSecond
  repeat' first
    | with_reducible assumption | extract_lets | with_reducible apply srcRecord_kept | with_reducible apply onStp_kept
    | with_reducible (refine kept_foldl ?_ (fun _ _ _ => ?_)) | split
    | with_reducible (refine kept_snd (by with_reducible assumption) ?_) | with_reducible (refine kept_mk ?_ rfl rfl rfl)

theorem rtcRun_kept {units : Nat} {s : State} (hg : Kept qu s) : Kept qu (rtcRun units s) := by
  unfold rtcRun
  with_reducible repeat' first | assumption | apply onStp_kept | apply rtcSecond_kept | refine kept_ite ?_ ?_

theorem execSuppressedFlush_kept {s : State} (hg : Kept qu s) : KeptR qu (execSuppressedFlush s) := by
  unfold execSuppressedFlush
  with_reducible repeat' first | assumption | apply keptR_next | apply rtcRun_kept

theorem timeLinkRecord_kept {s : State} (hg : Kept qu s) : Kept qu (timeLinkRecord s) := by
  unfold timeLinkRecord
  repeat' first
    | with_reducible assumption | extract_lets | with_reducible apply onStp_kept | with_reducible apply stpRecord_kept | split
    | with_reducible (refine kept_snd (by with_reducible assumption) ?_) | with_reducible (refine kept_mk ?_ rfl rfl rfl)

theorem execTimeLink_kept {s : State} (hg : Kept qu s) : KeptR qu (execTimeLink s) := by
  unfold execTimeLink
  repeat' first
    | with_reducible assumption | extract_lets | with_reducible apply keptR_next | with_reducible apply timeLinkRecord_kept | split
    | with_reducible (refine kept_snd (by with_reducible assumption) ?_) | with_reducible (refine kept_mk ?_ rfl rfl rfl)

theorem execMainPowerLost_kept {s : State} (hg : Kept qu s) : KeptR qu (execMainPowerLost s) := by
  unfold execMainPowerLost
  repeat' first
    | with_reducible assumption | extract_lets | with_reducible apply keptR_next | with_reducible apply onStp_kept
    | with_reducible apply stpRecord_kept | with_reducible apply onKeys_kept | with_reducible apply freeVal_kept | split
    | with_reducible (refine kept_snd (by with_reducible assumption) ?_) | with_reducible (refine kept_mk ?_ rfl rfl rfl)

theorem execBackupCellsLost_kept {s : State} (hg : Kept qu s) : KeptR qu (execBackupCellsLost s) := by
  unfold execBackupCellsLost
  with_reducible repeat' first | assumption | apply keptR_next | apply onStp_kept | refine kept_ite ?_ ?_

theorem checkCanary_kept {s : State} (hg : Kept qu s) : Kept qu (checkCanary s) := by
  unfold checkCanary
  with_reducible repeat' first | assumption | apply onStp_kept | apply stpRecord_kept | refine kept_ite ?_ ?_

theorem cellTamper_kept {s : State} (hg : Kept qu s) : Kept qu (cellTamper s) := by
  unfold cellTamper
  dsimp only
  split
  · exact onStp_kept hg
  · exact kept_ite (raise_kept (onStp_kept hg)) (onStp_kept hg)

theorem execTmpLogSelWrite_kept {pf : Pf} {seq : W32} {s : State} (hg : Kept qu s) : KeptR qu (execTmpLogSelWrite pf seq s) := by
  unfold execTmpLogSelWrite
  with_reducible repeat' first | assumption | apply keptR_next | apply onStp_kept | refine kept_ite ?_ ?_

theorem execRtcRead_kept {pf : Pf} {s : State} (hg : Kept qu s) : KeptR qu (execRtcRead pf s) := by
  unfold execRtcRead
  repeat' first
    | with_reducible assumption | with_reducible apply keptR_next | with_reducible apply emit_kept | with_reducible apply onStp_kept
    | split

theorem applyGates_kept {q : Nat} {s : State} (hg : Kept qu s) : Kept qu (applyGates q s) := by
  unfold applyGates
  repeat' first
    | with_reducible assumption | extract_lets | with_reducible apply setPort_kept | split

theorem swapBanks_kept {q : Nat} {s : State} (hg : Kept qu s) : Kept qu (swapBanks q s) := by
  unfold swapBanks
  repeat' first
    | with_reducible assumption | extract_lets | with_reducible apply applyGates_kept | with_reducible apply setGate_kept | split

theorem regulate_kept {q : Nat} {s : State} (hg : Kept qu s) : Kept qu (regulate q s) := by
  unfold regulate
  repeat' first
    | with_reducible assumption | extract_lets | with_reducible apply countEv_kept | with_reducible apply setPort_kept | split

theorem macOp_kept {q : Nat} {s : State} (hg : Kept qu s) : Kept qu (macOp q s) := by
  unfold macOp
  repeat' first
    | with_reducible assumption | extract_lets | with_reducible apply setPort_kept | with_reducible apply setGate_kept | split
    | with_reducible (refine kept_snd (by with_reducible assumption) ?_) | with_reducible (refine kept_mk ?_ rfl rfl rfl)

theorem gateTurn_kept {q : Nat} {s : State} (hg : Kept qu s) : Kept qu (gateTurn q s) := by
  unfold gateTurn
  repeat' first
    | with_reducible assumption | extract_lets | with_reducible apply macOp_kept | with_reducible apply regulate_kept
    | with_reducible apply applyGates_kept | with_reducible apply swapBanks_kept | split
    | with_reducible (refine kept_snd (by with_reducible assumption) ?_) | with_reducible (refine kept_mk ?_ rfl rfl rfl)

theorem regate_kept {s : State} (hg : Kept qu s) : Kept qu (regate s) := by
  unfold regate
  repeat' first
    | with_reducible assumption | extract_lets | with_reducible apply gateTurn_kept
    | with_reducible (refine kept_foldl ?_ (fun _ _ _ => ?_)) | split
    | with_reducible (refine kept_snd (by with_reducible assumption) ?_) | with_reducible (refine kept_mk ?_ rfl rfl rfl)

theorem popMgmt_kept {q : Nat} {status : Nat} {m : MgmtFrame} {s : State} (hg : Kept qu s) : Kept qu (popMgmt q status m s) := by
  unfold popMgmt
  repeat' first
    | with_reducible assumption | with_reducible apply setPort_kept | with_reducible apply txDone_kept | split

theorem loseLaunch_kept {q : Nat} {r : Reason} {m : MgmtFrame} {s : State} (hg : Kept qu s) : Kept qu (loseLaunch q r m s) := by
  unfold loseLaunch
  with_reducible repeat' first | assumption | apply popMgmt_kept | apply sump_kept

theorem sendLate_kept {q : Nat} {s : State} (hg : Kept qu s) : Kept qu (sendLate q s) := by
  unfold sendLate
  repeat' first
    | with_reducible assumption | extract_lets | with_reducible apply setPort_kept | split

theorem lateLaunch_kept {q : Nat} {m : MgmtFrame} {s : State} (hg : Kept qu s) : Kept qu (lateLaunch q m s) := by
  unfold lateLaunch
  with_reducible repeat' first | assumption | apply sendLate_kept | apply loseLaunch_kept | refine kept_ite ?_ ?_

theorem judgeHead_kept {n fuel : Nat} {s : State} (hg : Kept qu s) : Kept qu (judgeHead n fuel s) := by
  induction fuel generalizing s with
  | zero => exact hg
  | succ k ih =>
    simp only [judgeHead]
    repeat' split
    · exact hg
    · exact hg
    · exact hg
    · exact ih (loseLaunch_kept hg)
    · exact ih (loseLaunch_kept hg)
    · exact ih (lateLaunch_kept hg)
    · exact setPort_kept hg

theorem addMgmt_kept {q : Nat} {m : MgmtFrame} {s : State} (hg : Kept qu s) : Kept qu (addMgmt q m s) := by
  unfold addMgmt
  with_reducible repeat' first | assumption | apply judgeHead_kept | apply pushMgmt_kept

theorem relaunch_kept {q : Nat} {s : State} (hg : Kept qu s) : Kept qu (relaunch q s) := by
  unfold relaunch
  repeat' first
    | with_reducible assumption | extract_lets | with_reducible apply lateLaunch_kept | with_reducible apply judgeHead_kept | split
    | with_reducible (refine kept_snd (by with_reducible assumption) ?_) | with_reducible (refine kept_mk ?_ rfl rfl rfl)

theorem boundary_kept {step : Bool} {s : State} (hg : Kept qu s) : Kept qu (boundary step s) := by
  unfold boundary
  repeat' first
    | with_reducible assumption | with_reducible apply raise_kept | with_reducible (refine kept_ite ?_ ?_) | refine kept_mk ?_ rfl rfl rfl

theorem countTicks_kept {n : Nat} {s : State} (hg : Kept qu s) : Kept qu (countTicks n s) := by
  unfold countTicks
  repeat' first
    | with_reducible assumption | extract_lets | with_reducible (refine onTime_kept ?_ rfl) | with_reducible apply rtcRun_kept
    | with_reducible apply freeVal_kept | split | with_reducible (refine kept_snd (by with_reducible assumption) ?_)
    | with_reducible (refine kept_mk ?_ rfl rfl rfl)

theorem runFree_kept {n : Nat} {s : State} (hg : Kept qu s) : Kept qu (runFree n s) := by
  unfold runFree
  repeat' first
    | with_reducible assumption | extract_lets | with_reducible apply boundary_kept | with_reducible (refine onTime_kept ?_ rfl)
    | with_reducible apply countTicks_kept | split | with_reducible (refine kept_snd (by with_reducible assumption) ?_)
    | with_reducible (refine kept_mk ?_ rfl rfl rfl)

theorem makeStep_kept {sec ns : Nat} {s : State} (hg : Kept qu s) : Kept qu (makeStep sec ns s) := by
  unfold makeStep
  refine timeLinkRecord_kept (boundary_kept (kept_foldl (regate_kept ?_) (fun s q h => relaunch_kept h)))
  exact ⟨hg.1, hg.2.1, fun _ => rfl⟩

theorem runTicks_kept {n : Nat} {s : State} (hg : Kept qu s) : Kept qu (runTicks n s) := by
  unfold runTicks
  repeat' first
    | with_reducible assumption | extract_lets | with_reducible apply runFree_kept | with_reducible apply makeStep_kept
    | with_reducible apply countTicks_kept | split | with_reducible (refine kept_snd (by with_reducible assumption) ?_)
    | with_reducible (refine kept_mk ?_ rfl rfl rfl)

theorem setTsq_kept {q : Nat} {x : Tsq} {s : State} (hg : Kept qu s) : Kept qu (setTsq q x s) := by
  unfold setTsq
  with_reducible repeat' first | assumption | apply onTraffic_kept

theorem pushStamp_kept {q : Nat} {ident : Nat} {t : Stamp} {s : State} (hg : Kept qu s) : Kept qu (pushStamp q ident t s) := by
  unfold pushStamp
  with_reducible repeat' first
    | assumption | apply countEv_kept | apply countFix_kept | apply setTsq_kept | apply raise_kept | refine kept_ite ?_ ?_

theorem loseStamp_kept {q : Nat} {e : TsEntry} {s : State} (hg : Kept qu s) : Kept qu (loseStamp q e s) := by
  unfold loseStamp
  repeat' first
    | with_reducible assumption | extract_lets | with_reducible apply raise_kept | with_reducible apply setTsq_kept
    | with_reducible apply countEv_kept | split | with_reducible (refine kept_snd (by with_reducible assumption) ?_)
    | with_reducible (refine kept_mk ?_ rfl rfl rfl)

theorem loseStamps_kept {q : Nat} {s : State} (hg : Kept qu s) : Kept qu (loseStamps q s) := by
  unfold loseStamps
  repeat' first
    | with_reducible assumption | extract_lets | with_reducible apply setTsq_kept | with_reducible apply loseStamp_kept
    | with_reducible (refine kept_foldl ?_ (fun _ _ _ => ?_)) | split
    | with_reducible (refine kept_snd (by with_reducible assumption) ?_) | with_reducible (refine kept_mk ?_ rfl rfl rfl)

theorem settleStamps_kept {s : State} (hg : Kept qu s) : Kept qu (settleStamps s) := by
  unfold settleStamps
  repeat' first
    | with_reducible assumption | extract_lets | with_reducible apply loseStamps_kept
    | with_reducible (refine kept_foldl ?_ (fun _ _ _ => ?_)) | split
    | with_reducible (refine kept_snd (by with_reducible assumption) ?_) | with_reducible (refine kept_mk ?_ rfl rfl rfl)

theorem switchSlot_kept {c : Nat} {s : State} (hg : Kept qu s) : Kept qu (switchSlot c s) := by
  unfold switchSlot
  with_reducible repeat' first | assumption | apply putK_kept | apply setChan_kept | apply touch_kept

theorem flip_kept {s : State} {c : Nat} (hg : Kept qu s) : Kept qu (flip s c) := by
  unfold flip
  repeat' first
    | with_reducible assumption | extract_lets | with_reducible apply setChan_kept | with_reducible apply switchSlot_kept | split
    | with_reducible (refine kept_snd (by with_reducible assumption) ?_) | with_reducible (refine kept_mk ?_ rfl rfl rfl)

theorem flipAll_kept {s : State} (hg : Kept qu s) : Kept qu (flipAll s) := by
  unfold flipAll
  repeat' first
    | with_reducible assumption | extract_lets | with_reducible apply flip_kept | with_reducible (refine kept_foldl ?_ (fun _ _ _ => ?_))
    | split | with_reducible (refine kept_snd (by with_reducible assumption) ?_) | with_reducible (refine kept_mk ?_ rfl rfl rfl)

theorem pass_kept {n : Nat} {s : State} (hg : Kept qu s) : Kept qu (pass n s) := by
  unfold pass
  repeat' first
    | with_reducible assumption | extract_lets | with_reducible apply settleStamps_kept | with_reducible apply runTicks_kept
    | with_reducible apply flipAll_kept | split | with_reducible (refine kept_snd (by with_reducible assumption) ?_)
    | with_reducible (refine kept_mk ?_ rfl rfl rfl)

theorem tick_kept {s : State} (hg : Kept qu s) : Kept qu (tick s) := by
  unfold tick
  repeat' first
    | with_reducible assumption | extract_lets | with_reducible apply pass_kept | split
    | with_reducible (refine kept_snd (by with_reducible assumption) ?_) | with_reducible (refine kept_mk ?_ rfl rfl rfl)

theorem execSecondBoundary_kept {s : State} (hg : Kept qu s) : KeptR qu (execSecondBoundary s) := by
  unfold execSecondBoundary
  repeat' first
    | with_reducible assumption | extract_lets | with_reducible apply keptR_next | with_reducible apply pass_kept | split
    | with_reducible (refine kept_snd (by with_reducible assumption) ?_) | with_reducible (refine kept_mk ?_ rfl rfl rfl)

theorem lapse_kept {s : State} (hg : Kept qu s) : Kept qu (lapse s) := kept_ite ⟨hg.1, hg.2.1, fun _ => rfl⟩ hg

theorem armStep_kept {sec ns : Nat} {s : State} (hg : Kept qu s) (hs : s.time.spent = false) : Kept qu (armStep sec ns s) :=
  ⟨hg.1, hg.2.1, fun h => absurd (h.symm.trans hs) (by decide)⟩

theorem goStep_kept {sec : Nat} {ns : Nat} {s : State} (hg : Kept qu s) : Kept qu (goStep sec ns s) := by
  unfold goStep
  repeat' first
    | with_reducible assumption | extract_lets | with_reducible (refine onTime_kept ?_ rfl) | split
    | with_reducible (refine kept_snd (by with_reducible assumption) ?_) | with_reducible (refine kept_mk ?_ rfl rfl rfl)

theorem stepCtrl_kept {atPps go cancel : Bool} {s : State} (hg : Kept qu s) : Kept qu (stepCtrl atPps go cancel s) := by
  have hl : Kept qu (lapse s) := lapse_kept hg
  unfold stepCtrl
  extract_lets t wasArmed s1
  have h1 : Kept qu s1 := by
    refine ⟨hl.1, hl.2.1, fun h => ?_⟩
    show (if cancel = true then none else (lapse s).time.armed) = none
    rw [hl.2.2 h, ite_self]
  split
  · exact h1
  · split
    · exact onTime_kept h1 rfl
    · next hn => exact kept_ite (armStep_kept h1 (Bool.eq_false_iff.2 (fun h => hn (by simp [h])))) (goStep_kept h1)

theorem execStepGo_kept {pf : Pf} {cancel : Bool} {s : State} (hg : Kept qu s) : KeptR qu (execStepGo pf cancel s) := by
  unfold execStepGo
  repeat' first
    | with_reducible assumption | extract_lets | with_reducible apply keptR_next | with_reducible apply stepCtrl_kept | split
    | with_reducible (refine kept_snd (by with_reducible assumption) ?_) | with_reducible (refine kept_mk ?_ rfl rfl rfl)

theorem execStepArm_kept {pf : Pf} {cancel : Bool} {s : State} (hg : Kept qu s) : KeptR qu (execStepArm pf cancel s) := by
  unfold execStepArm
  repeat' first
    | with_reducible assumption | extract_lets | with_reducible apply keptR_next | with_reducible apply stepCtrl_kept | split
    | with_reducible (refine kept_snd (by with_reducible assumption) ?_) | with_reducible (refine kept_mk ?_ rfl rfl rfl)

theorem execStepCancel_kept {pf : Pf} {atPps : Bool} {s : State} (hg : Kept qu s) : KeptR qu (execStepCancel pf atPps s) := by
  unfold execStepCancel
  repeat' first
    | with_reducible assumption | extract_lets | with_reducible apply keptR_next | with_reducible apply stepCtrl_kept | split
    | with_reducible (refine kept_snd (by with_reducible assumption) ?_) | with_reducible (refine kept_mk ?_ rfl rfl rfl)

theorem execStepLapse_kept {s : State} (hg : Kept qu s) : KeptR qu (execStepLapse s) := kept_ite hg (lapse_kept hg)

theorem execSysTimeStep_kept {mb : Mb} {seconds ns atPps : Nat} {s : State} (hg : Kept qu s) :
    KeptR qu (execSysTimeStep mb seconds ns atPps s) := by
  unfold execSysTimeStep
  refine request_kept hg (fun _ s h => ?_)
  have hl : Kept qu (lapse s) := lapse_kept h
  dsimp only
  split
  · exact hl
  · split
    · exact ⟨hl.1, hl.2.1, fun _ => rfl⟩
    · split
      · exact hl
      · next hn =>
        split
        · exact hl
        · exact kept_ite (armStep_kept hl (Bool.eq_false_iff.2 (fun h => hn (by simp [h])))) (goStep_kept hl)

theorem execTimeNowRead_kept {pf : Pf} {s : State} (hg : Kept qu s) : KeptR qu (execTimeNowRead pf s) := by
  unfold execTimeNowRead
  repeat' first
    | with_reducible assumption | with_reducible apply keptR_next | with_reducible (refine onTime_kept ?_ rfl)
    | with_reducible apply emit_kept | split | dsimp +zetaDelta only

theorem execTimeIncrWrite_kept {pf : Pf} {adj : W32} {s : State} (hg : Kept qu s) : KeptR qu (execTimeIncrWrite pf adj s) := by
  unfold execTimeIncrWrite
  with_reducible repeat' first | assumption | apply keptR_next | refine onTime_kept ?_ rfl | refine kept_ite ?_ ?_

theorem execTsqPop_kept {pf : Pf} {q : Port} {s : State} (hg : Kept qu s) : KeptR qu (execTsqPop pf q s) := by
  unfold execTsqPop
  repeat' first
    | with_reducible assumption | extract_lets | with_reducible apply keptR_next | with_reducible apply pushStamp_kept
    | with_reducible apply setTsq_kept | with_reducible (refine kept_foldl ?_ (fun _ _ _ => ?_)) | split
    | with_reducible (refine kept_snd (by with_reducible assumption) ?_) | with_reducible (refine kept_mk ?_ rfl rfl rfl)

theorem execPpsInEdge_kept {s : State} (hg : Kept qu s) : KeptR qu (execPpsInEdge s) := by
  have hl : Kept qu (lapse s) := lapse_kept hg
  have h1 : Kept qu (match (lapse s).time.armed with | some (sec, ns) => makeStep sec ns (lapse s) | none => lapse s) := by
    split
    · exact makeStep_kept hl
    · exact hl
  unfold execPpsInEdge
  show Kept qu _
  split
  · exact hg
  · extract_lets s0 t0 armed s1 stamp
    have h2 : Kept qu s1 := h1
    split
    · exact onTime_kept h2 rfl
    · exact h2

theorem execPpsOutFall_kept {s : State} (hg : Kept qu s) : KeptR qu (execPpsOutFall s) := by
  unfold execPpsOutFall
  with_reducible repeat' first | assumption | apply keptR_next | refine onTime_kept ?_ rfl | refine kept_ite ?_ ?_

theorem execTodSend_kept {s : State} (hg : Kept qu s) : KeptR qu (execTodSend s) := by
  unfold execTodSend
  repeat' first
    | with_reducible assumption | extract_lets | with_reducible apply keptR_next | with_reducible apply emit_kept
    | with_reducible (refine onTime_kept ?_ rfl) | split | with_reducible (refine kept_snd (by with_reducible assumption) ?_)
    | with_reducible (refine kept_mk ?_ rfl rfl rfl)

theorem execTodReceive_kept {message : Bytes} {gapOk : Bool} {s : State} (hg : Kept qu s) : KeptR qu (execTodReceive message gapOk s) := by
  unfold execTodReceive
  with_reducible repeat' first | assumption | apply keptR_next | refine onTime_kept ?_ rfl | refine kept_ite ?_ ?_

end Sys2Proof.Machine
end

