-- ==== Sys2Proof/Laws/InvariantLinks.lean ====
section
/-! SUPPORT. Operations that keep `StepInv` and the queue: the exchange, the Wellhead, the boot and the system commands. -/

namespace Sys2Proof.Machine

open Sys2Proof Sys2Proof.Safety

variable {qu : List Instr}

theorem setWh_kept {p : Nat} {w : Wh} {s : State} (hg : Kept qu s) : Kept qu (setWh p w s) := by
  unfold setWh
  repeat' first
    | with_reducible assumption | refine kept_mk ?_ rfl rfl rfl

theorem onTx_kept {p : Nat} {f : WhTx → WhTx} {s : State} (hg : Kept qu s) : Kept qu (onTx p f s) := by
  unfold onTx
  with_reducible repeat' first | assumption | apply setWh_kept

theorem onRx_kept {p : Nat} {f : WhRx → WhRx} {s : State} (hg : Kept qu s) : Kept qu (onRx p f s) := by
  unfold onRx
  with_reducible repeat' first | assumption | apply setWh_kept

theorem onLive_kept {p : Nat} {f : WhCnt → WhCnt} {s : State} (hg : Kept qu s) : Kept qu (onLive p f s) := by
  unfold onLive
  with_reducible repeat' first | assumption | apply setWh_kept

theorem holdKeys_kept {p : Nat} {rx : Bool} {odd : Bool} {k : LinkKeys} {s : State} (hg : Kept qu s) : Kept qu (holdKeys p rx odd k s) := by
  unfold holdKeys
  repeat' first
    | with_reducible assumption | extract_lets | with_reducible apply onRx_kept | with_reducible apply onTx_kept
    | with_reducible apply putInternal_kept | with_reducible apply putKeyed_kept | split
    | with_reducible (refine kept_snd (by with_reducible assumption) ?_) | with_reducible (refine kept_mk ?_ rfl rfl rfl)

theorem deriveTx_kept {p : Nat} {e : Nat} {s : State} (hg : Kept qu s) : Kept qu (deriveTx p e s) := by
  unfold deriveTx
  repeat' first
    | with_reducible assumption | extract_lets | with_reducible apply onTx_kept | with_reducible apply holdKeys_kept | split
    | with_reducible (refine kept_snd (by with_reducible assumption) ?_) | with_reducible (refine kept_mk ?_ rfl rfl rfl)

theorem deriveRx_kept {p : Nat} {e : Nat} {s : State} (hg : Kept qu s) : Kept qu (deriveRx p e s) := by
  unfold deriveRx
  repeat' first
    | with_reducible assumption | extract_lets | with_reducible apply onRx_kept | with_reducible apply holdKeys_kept | split
    | with_reducible (refine kept_snd (by with_reducible assumption) ?_) | with_reducible (refine kept_mk ?_ rfl rfl rfl)

theorem dropLink_kept {p : Nat} {s : State} (hg : Kept qu s) : Kept qu (dropLink p s) := by
  unfold dropLink
  repeat' first
    | with_reducible assumption | extract_lets | with_reducible apply dropInternal_kept
    | with_reducible (refine kept_foldl ?_ (fun _ _ _ => ?_)) | split
    | with_reducible (refine kept_snd (by with_reducible assumption) ?_) | with_reducible (refine kept_mk ?_ rfl rfl rfl)

theorem queueCtl_kept {p : Nat} {m : CtlMsg} {s : State} (hg : Kept qu s) : Kept qu (queueCtl p m s) := by
  unfold queueCtl
  repeat' first
    | with_reducible assumption | extract_lets | with_reducible apply addReq_kept | split
    | with_reducible (refine kept_snd (by with_reducible assumption) ?_) | with_reducible (refine kept_mk ?_ rfl rfl rfl)

theorem sealAgain_kept {p : Nat} {f : CtlMsg → Bool} {s : State} (hg : Kept qu s) : Kept qu (sealAgain p f s) := by
  unfold sealAgain
  repeat' first
    | with_reducible assumption | extract_lets | with_reducible apply onTx_kept | with_reducible apply queueCtl_kept
    | with_reducible apply dropReq_kept | with_reducible (refine kept_foldl ?_ (fun _ _ _ => ?_)) | split
    | with_reducible (refine kept_snd (by with_reducible assumption) ?_) | with_reducible (refine kept_mk ?_ rfl rfl rfl)

theorem dropSegs_kept {p : Nat} {r : Reason} {which : Seg → Bool} {s : State} (hg : Kept qu s) : Kept qu (dropSegs p r which s) := by
  unfold dropSegs
  with_reducible repeat' first | assumption | refine kept_foldl ?_ (fun _ _ _ => ?_) | apply sump_kept | apply onTx_kept

theorem cutSegs_kept {p : Nat} {s : State} (hg : Kept qu s) : Kept qu (cutSegs p s) := by
  unfold cutSegs
  with_reducible repeat' first | assumption | apply dropSegs_kept

theorem discardQueued_kept {r : Reason} {s : State} (hg : Kept qu s) : Kept qu (discardQueued r s) := by
  unfold discardQueued
  repeat' first
    | with_reducible assumption | extract_lets | with_reducible apply discardAll_kept | with_reducible apply dropSegs_kept
    | with_reducible (refine kept_foldl ?_ (fun _ _ _ => ?_)) | split
    | with_reducible (refine kept_snd (by with_reducible assumption) ?_) | with_reducible (refine kept_mk ?_ rfl rfl rfl)

theorem dropQueued_kept {q : Nat} {r : Reason} {which : Seg → Bool} {s : State} (hg : Kept qu s) : Kept qu (dropQueued q r which s) := by
  unfold dropQueued
  with_reducible repeat' first | assumption | apply discardAll_kept | apply dropSegs_kept | apply onTraffic_kept | refine kept_ite ?_ ?_

theorem linkLost_kept {q : Nat} {r : Reason} {s : State} (hg : Kept qu s) : Kept qu (linkLost q r s) := by
  unfold linkLost
  repeat' first
    | with_reducible assumption | extract_lets | with_reducible apply setPort_kept | with_reducible apply dropQueued_kept | split
    | with_reducible (refine kept_snd (by with_reducible assumption) ?_) | with_reducible (refine kept_mk ?_ rfl rfl rfl)

theorem linkOff_kept {q : Nat} {s : State} (hg : Kept qu s) : Kept qu (linkOff q s) := by
  unfold linkOff
  repeat' first
    | with_reducible assumption | extract_lets | with_reducible apply linkLost_kept | split
    | with_reducible (refine kept_snd (by with_reducible assumption) ?_) | with_reducible (refine kept_mk ?_ rfl rfl rfl)

theorem beginSession_kept {p : Nat} {master : Key} {linkId : Nat} {role : Nat} {s : State} (hg : Kept qu s) :
    Kept qu (beginSession p master linkId role s) := by
  unfold beginSession
  repeat' first
    | with_reducible assumption | extract_lets | with_reducible apply holdKeys_kept | with_reducible apply onTx_kept
    | with_reducible apply putInternal_kept | with_reducible apply draw_kept | with_reducible apply sealAgain_kept
    | with_reducible apply cutSegs_kept | split | with_reducible (refine kept_snd (by with_reducible assumption) ?_)
    | with_reducible (refine kept_mk ?_ rfl rfl rfl)

theorem startSession_kept {p : Nat} {s : State} (hg : Kept qu s) : Kept qu (startSession p s).2 := by
  unfold startSession
  repeat' first
    | with_reducible assumption | extract_lets | with_reducible apply useG_kept | with_reducible apply readG_kept
    | with_reducible apply beginSession_kept | split | with_reducible (refine kept_snd (by with_reducible assumption) ?_)

theorem freshRx_kept {p : Nat} {s : State} (hg : Kept qu s) : Kept qu (freshRx p s) := by
  unfold freshRx
  with_reducible repeat' first | assumption | apply onRx_kept

theorem defer_kept {d : Deferred} {s : State} (hg : Kept qu s) : Kept qu (defer d s) := by
  unfold defer
  repeat' first
    | with_reducible assumption | extract_lets | with_reducible apply onKeys_kept | split
    | with_reducible (refine kept_snd (by with_reducible assumption) ?_) | with_reducible (refine kept_mk ?_ rfl rfl rfl)

theorem startMate_kept {s : State} (hg : Kept qu s) : Kept qu (startMate s) := by
  unfold startMate
  repeat' first
    | with_reducible assumption | extract_lets | with_reducible apply beginSession_kept | with_reducible apply freshRx_kept
    | with_reducible apply defer_kept | split | with_reducible (refine kept_snd (by with_reducible assumption) ?_)
    | with_reducible (refine kept_mk ?_ rfl rfl rfl)

theorem stopMate_kept {s : State} (hg : Kept qu s) : Kept qu (stopMate s) := by
  unfold stopMate
  repeat' first
    | with_reducible assumption | extract_lets | with_reducible apply setWh_kept | with_reducible apply onPair_kept
    | with_reducible apply dropLink_kept | split | with_reducible (refine kept_snd (by with_reducible assumption) ?_)
    | with_reducible (refine kept_mk ?_ rfl rfl rfl)

theorem sendParts_kept {b : Bytes} {s : State} (hg : Kept qu s) : Kept qu (sendParts b s) := by
  unfold sendParts
  with_reducible repeat' first | assumption | apply mate_kept

theorem beginExchange_kept {s : State} (hg : Kept qu s) : Kept qu (beginExchange s) := by
  unfold beginExchange
  repeat' first
    | with_reducible assumption | extract_lets | with_reducible apply onPair_kept | with_reducible apply sendParts_kept
    | with_reducible apply draw_kept | with_reducible apply defer_kept | split
    | with_reducible (refine kept_snd (by with_reducible assumption) ?_) | with_reducible (refine kept_mk ?_ rfl rfl rfl)

theorem takePart_kept {part : Nat} {total : Nat} {d : Bytes} {s : State} (hg : Kept qu s) : Kept qu (takePart part total d s) := by
  unfold takePart
  repeat' first
    | with_reducible assumption | extract_lets | with_reducible apply mate_kept | with_reducible apply halt_kept
    | with_reducible apply onPair_kept | split | with_reducible (refine kept_snd (by with_reducible assumption) ?_)
    | with_reducible (refine kept_mk ?_ rfl rfl rfl)

theorem takeConfirm_kept {tag : Nat} {s : State} (hg : Kept qu s) : Kept qu (takeConfirm tag s) := by
  unfold takeConfirm
  repeat' first
    | with_reducible assumption | with_reducible apply putInternal_kept | with_reducible apply startMate_kept
    | with_reducible apply onPair_kept | split

theorem mateKeyed_kept {s : State} (hg : Kept qu s) : Kept qu (mateKeyed s) := by
  unfold mateKeyed
  with_reducible repeat' first
    | assumption | apply onPair_kept | apply settle_kept | apply mate_kept | apply sendAll_kept | apply beginExchange_kept
    | refine kept_ite ?_ ?_

theorem mateLost_kept {s : State} (hg : Kept qu s) : Kept qu (mateLost s) := by
  unfold mateLost
  with_reducible repeat' first
    | assumption | apply onPair_kept | apply losePartner_kept | apply startMate_kept | apply dropInternal_kept | refine kept_ite ?_ ?_

theorem frameSent_kept {q : Nat} {g : Seg} {bytes : Nat} {ahead : Nat} {s : State} (hg : Kept qu s) :
    Kept qu (frameSent q g bytes ahead s) := by
  unfold frameSent
  with_reducible repeat' first | assumption | apply countEv_kept | apply freeVal_kept | apply sampleAt_kept

theorem ctlSent_kept {q : Nat} {m : CtlMsg} {s : State} (hg : Kept qu s) : Kept qu (ctlSent q m s) := by
  unfold ctlSent
  repeat' first
    | with_reducible assumption | with_reducible apply pushStamp_kept | with_reducible apply txDone_kept | split
    | refine kept_mk ?_ rfl rfl rfl

theorem sendOctets_kept {p : Nat} {b : Bytes} {s : State} (hg : Kept qu s) : Kept qu (sendOctets p b s) := by
  unfold sendOctets
  repeat' first
    | with_reducible assumption | extract_lets | with_reducible apply onTx_kept | with_reducible apply emit_kept
    | with_reducible (refine kept_foldl ?_ (fun _ _ _ => ?_)) | split
    | with_reducible (refine kept_snd (by with_reducible assumption) ?_) | with_reducible (refine kept_mk ?_ rfl rfl rfl)

theorem fillBytes_kept {p : Nat} {n : Nat} {s : State} (hg : Kept qu s) : Kept qu (fillBytes p n s).2 := by
  unfold fillBytes
  repeat' first
    | with_reducible assumption | extract_lets | with_reducible apply draw_kept | with_reducible apply onTx_kept | split
    | with_reducible (refine kept_snd (by with_reducible assumption) ?_) | with_reducible (refine kept_mk ?_ rfl rfl rfl)

theorem sendCell_kept {p : Nat} {ok : Seg → Bool} {s : State} (hg : Kept qu s) : Kept qu (sendCell p ok s) := by
  unfold sendCell
  repeat' first
    | with_reducible assumption | extract_lets | with_reducible apply ctlSent_kept | with_reducible apply frameSent_kept
    | with_reducible apply sendOctets_kept | with_reducible apply onLive_kept | with_reducible apply onTx_kept
    | with_reducible apply fillBytes_kept | with_reducible (refine kept_foldl ?_ (fun _ _ _ => ?_)) | split
    | with_reducible (refine kept_snd (by with_reducible assumption) ?_) | with_reducible (refine kept_mk ?_ rfl rfl rfl)

theorem execEpochKeyDerive_kept {wport : WPort} {s : State} (hg : Kept qu s) : KeptR qu (execEpochKeyDerive wport s) := by
  unfold execEpochKeyDerive
  repeat' first
    | with_reducible assumption | extract_lets | with_reducible apply keptR_next | with_reducible apply deriveRx_kept
    | with_reducible apply deriveTx_kept | split | with_reducible (refine kept_snd (by with_reducible assumption) ?_)
    | with_reducible (refine kept_mk ?_ rfl rfl rfl)

theorem newEpoch_kept {p : Nat} {s : State} (hg : Kept qu s) : Kept qu (newEpoch p s) := by
  unfold newEpoch
  repeat' first
    | with_reducible assumption | extract_lets | with_reducible apply onTx_kept | with_reducible apply sealAgain_kept
    | with_reducible apply deriveTx_kept | split | with_reducible (refine kept_snd (by with_reducible assumption) ?_)
    | with_reducible (refine kept_mk ?_ rfl rfl rfl)

theorem execEpochChange_kept {wport : WPort} {s : State} (hg : Kept qu s) : KeptR qu (execEpochChange wport s) := by
  unfold execEpochChange
  repeat' first
    | with_reducible assumption | extract_lets | with_reducible apply keptR_next | with_reducible apply newEpoch_kept | split
    | with_reducible (refine kept_snd (by with_reducible assumption) ?_) | with_reducible (refine kept_mk ?_ rfl rfl rfl)

theorem execEpochEnd_kept {wport : WPort} {s : State} (hg : Kept qu s) : KeptR qu (execEpochEnd wport s) := by
  unfold execEpochEnd
  with_reducible repeat' first
    | assumption | apply keptR_next | apply raise_kept | apply onTx_kept | apply cutSegs_kept | refine kept_ite ?_ ?_

theorem execAnnounceSend_kept {wport : WPort} {s : State} (hg : Kept qu s) : KeptR qu (execAnnounceSend wport s) := by
  unfold execAnnounceSend
  with_reducible repeat' first | assumption | apply keptR_next | apply onTx_kept | refine kept_ite ?_ ?_

theorem execHeartbeatSend_kept {wport : WPort} {s : State} (hg : Kept qu s) : KeptR qu (execHeartbeatSend wport s) := by
  unfold execHeartbeatSend
  with_reducible repeat' first | assumption | apply keptR_next | apply onTx_kept | apply queueCtl_kept | refine kept_ite ?_ ?_

theorem execRdiSend_kept {wport : WPort} {s : State} (hg : Kept qu s) : KeptR qu (execRdiSend wport s) := by
  unfold execRdiSend
  repeat' first
    | with_reducible assumption | extract_lets | with_reducible apply keptR_next | with_reducible apply onTx_kept
    | with_reducible apply queueCtl_kept | split | with_reducible (refine kept_snd (by with_reducible assumption) ?_)
    | with_reducible (refine kept_mk ?_ rfl rfl rfl)

theorem execFillDrbgReseed_kept {wport : WPort} {s : State} (hg : Kept qu s) : KeptR qu (execFillDrbgReseed wport s) := by
  unfold execFillDrbgReseed
  repeat' first
    | with_reducible assumption | extract_lets | with_reducible apply keptR_next | with_reducible apply onTx_kept
    | with_reducible apply draw_kept | split | with_reducible (refine kept_snd (by with_reducible assumption) ?_)
    | with_reducible (refine kept_mk ?_ rfl rfl rfl)

theorem setDefect_kept {p : Nat} {cause : Nat} {on : Bool} {s : State} (hg : Kept qu s) : Kept qu (setDefect p cause on s) := by
  unfold setDefect
  repeat' first
    | with_reducible assumption | extract_lets | with_reducible apply raise_kept | with_reducible apply dropQueued_kept
    | with_reducible apply onLive_kept | with_reducible apply onRx_kept | split
    | with_reducible (refine kept_snd (by with_reducible assumption) ?_) | with_reducible (refine kept_mk ?_ rfl rfl rfl)

theorem execDlodSet_kept {wport : WPort} {s : State} (hg : Kept qu s) : KeptR qu (execDlodSet wport s) := by
  unfold execDlodSet
  with_reducible repeat' first | assumption | apply keptR_next | apply setDefect_kept | refine kept_ite ?_ ?_

theorem execDlodClear_kept {wport : WPort} {s : State} (hg : Kept qu s) : KeptR qu (execDlodClear wport s) := by
  unfold execDlodClear
  with_reducible repeat' first | assumption | apply keptR_next | apply setDefect_kept | refine kept_ite ?_ ?_

theorem execDlhbSet_kept {wport : WPort} {s : State} (hg : Kept qu s) : KeptR qu (execDlhbSet wport s) := by
  unfold execDlhbSet
  with_reducible repeat' first | assumption | apply keptR_next | apply setDefect_kept | refine kept_ite ?_ ?_

theorem execDrdiClear_kept {wport : WPort} {s : State} (hg : Kept qu s) : KeptR qu (execDrdiClear wport s) := by
  unfold execDrdiClear
  with_reducible repeat' first | assumption | apply keptR_next | apply setDefect_kept | refine kept_ite ?_ ?_

theorem loseSeg_kept {p : Nat} {s : State} (hg : Kept qu s) : Kept qu (loseSeg p s) := by
  unfold loseSeg
  with_reducible repeat' first | assumption | apply sump_kept

theorem loseOpen_kept {p : Nat} {s : State} (hg : Kept qu s) : Kept qu (loseOpen p s) := by
  unfold loseOpen
  with_reducible repeat' first | assumption | refine kept_foldl ?_ (fun _ _ _ => ?_) | apply loseSeg_kept | apply onRx_kept

theorem countOos_kept {p : Nat} {s : State} (hg : Kept qu s) : Kept qu (countOos p s) := by
  unfold countOos
  with_reducible repeat' first | assumption | apply onLive_kept | apply onRx_kept

theorem toHunt_kept {p : Nat} {buf : Bytes} {s : State} (hg : Kept qu s) : Kept qu (toHunt p buf s) := by
  unfold toHunt
  with_reducible repeat' first
    | assumption | apply loseOpen_kept | apply onRx_kept | apply onLive_kept | apply mateLost_kept | refine kept_ite ?_ ?_

theorem userSeg_kept {p : Nat} {chan : Nat} {tr : Nat} {first : Bool} {last : Bool} {d : Bytes} {s : State} (hg : Kept qu s) :
    Kept qu (userSeg p chan tr first last d s) := by
  unfold userSeg
  with_reducible repeat' first | assumption | apply loseSeg_kept | apply onRx_kept | refine kept_ite ?_ ?_

theorem ctlFail_kept {p : Nat} {s : State} (hg : Kept qu s) : Kept qu (ctlFail p s) := by
  unfold ctlFail
  with_reducible repeat' first | assumption | apply onLive_kept

theorem linkSeg_kept {p : Nat} {seq : Nat} {kp : Bool} {now : Stamp} {d : Bytes} {s : State} (hg : Kept qu s) :
    Kept qu (linkSeg p seq kp now d s) := by
  unfold linkSeg
  repeat' first
    | with_reducible assumption | extract_lets | with_reducible apply addReq_kept | with_reducible apply ctlFail_kept | split
    | with_reducible (refine kept_snd (by with_reducible assumption) ?_) | with_reducible (refine kept_mk ?_ rfl rfl rfl)

theorem parseBody_kept {p seq tr : Nat} {kp : Bool} {now : Stamp} {n o : Nat} {b : Bytes} {s : State} (hg : Kept qu s) :
    Kept qu (parseBody p seq tr kp now n o b s) := by
  induction n generalizing o s with
  | zero => exact hg
  | succ n ih =>
    simp only [parseBody]
    repeat' split
    · exact hg
    · exact hg
    · exact ih (linkSeg_kept hg)
    · exact ih (userSeg_kept hg)
    · exact loseOpen_kept (onLive_kept hg)

theorem advance_kept {p : Nat} {s : State} (hg : Kept qu s) : Kept qu (advance p s) := by
  unfold advance
  repeat' first
    | with_reducible assumption | extract_lets | with_reducible apply deriveRx_kept | with_reducible apply onRx_kept | split
    | with_reducible (refine kept_snd (by with_reducible assumption) ?_) | with_reducible (refine kept_mk ?_ rfl rfl rfl)

theorem syncCell.badCell_kept {p : Nat} {r : WhRx} {b : Bytes} {s : State} (hg : Kept qu s) : Kept qu (syncCell.badCell p r b s) := by
  unfold syncCell.badCell
  with_reducible repeat' first
    | assumption | apply loseOpen_kept | apply onLive_kept | apply toHunt_kept | apply advance_kept | apply onRx_kept
    | refine kept_ite ?_ ?_

theorem syncCell_kept {p : Nat} {s : State} (hg : Kept qu s) : Kept qu (syncCell p s) := by
  unfold syncCell
  repeat' first
    | with_reducible assumption | extract_lets | with_reducible apply onRx_kept | with_reducible apply onLive_kept
    | with_reducible apply parseBody_kept | with_reducible apply advance_kept | with_reducible apply syncCell.badCell_kept
    | with_reducible (refine kept_ite ?_ ?_) | split

theorem huntStep_kept {p : Nat} {s t : State} (hg : Kept qu s) (e : huntStep p s = some t) : Kept qu t := by
  have key : ∀ {x y : State}, some x = some y → Kept qu x → Kept qu y := fun e h => by cases e; exact h
  unfold huntStep at e
  extract_lets r at e
  repeat' split at e
  all_goals first
    | (refine key e ?_; first
        | with_reducible exact onRx_kept hg
        | with_reducible exact onRx_kept (countOos_kept hg)
        | with_reducible exact toHunt_kept hg
        | with_reducible exact syncCell_kept hg)
    | cases e

theorem deliver_kept {p n : Nat} {s : State} (hg : Kept qu s) : Kept qu (deliver p n s) := by
  induction n generalizing s with
  | zero => exact hg
  | succ n ih =>
    rw [deliver]
    split
    · exact hg
    · next e => exact ih (huntStep_kept hg e)

theorem deliverAll_kept {p : Nat} {s : State} (hg : Kept qu s) : Kept qu (deliverAll p s) := deliver_kept hg

theorem execCellReceive_kept {wport : WPort} {octets : Bytes} {s : State} (hg : Kept qu s) : KeptR qu (execCellReceive wport octets s) := by
  unfold execCellReceive
  repeat' first
    | with_reducible assumption | extract_lets | with_reducible apply keptR_next | with_reducible apply tick_kept
    | with_reducible apply onRx_kept | with_reducible apply deliverAll_kept | with_reducible apply halt_kept | split
    | with_reducible (refine kept_snd (by with_reducible assumption) ?_) | with_reducible (refine kept_mk ?_ rfl rfl rfl)

theorem inboxTake_kept {p : Nat} {f : CtlSeg → Bool} {s : State} (hg : Kept qu s) : Kept qu (inboxTake p f s).2 := by
  unfold inboxTake
  with_reducible repeat' first | assumption | apply onRx_kept

theorem execAnnounceReceive_kept {wport : WPort} {s : State} (hg : Kept qu s) : KeptR qu (execAnnounceReceive wport s) := by
  unfold execAnnounceReceive
  repeat' first
    | with_reducible assumption | extract_lets | with_reducible apply keptR_next | with_reducible apply mateKeyed_kept
    | with_reducible apply holdKeys_kept | with_reducible apply onRx_kept | with_reducible apply ctlFail_kept
    | with_reducible apply deliverAll_kept | with_reducible apply inboxTake_kept | split
    | with_reducible (refine kept_snd (by with_reducible assumption) ?_) | with_reducible (refine kept_mk ?_ rfl rfl rfl)

theorem execHeartbeatReceive_kept {wport : WPort} {s : State} (hg : Kept qu s) : KeptR qu (execHeartbeatReceive wport s) := by
  unfold execHeartbeatReceive
  repeat' first
    | with_reducible assumption | extract_lets | with_reducible apply keptR_next | with_reducible apply inboxTake_kept
    | with_reducible apply setDefect_kept | split | with_reducible (refine kept_snd (by with_reducible assumption) ?_)

theorem execRdiReceive_kept {wport : WPort} {s : State} (hg : Kept qu s) : KeptR qu (execRdiReceive wport s) := by
  unfold execRdiReceive
  repeat' first
    | with_reducible assumption | extract_lets | with_reducible apply keptR_next | with_reducible apply setDefect_kept
    | with_reducible apply onLive_kept | with_reducible apply onRx_kept | with_reducible apply inboxTake_kept | split
    | with_reducible (refine kept_snd (by with_reducible assumption) ?_) | with_reducible (refine kept_mk ?_ rfl rfl rfl)

theorem recogniseReset_kept {code : Nat} {cold : Bool} {s : State} (hg : Kept qu s) : Kept qu (recogniseReset code cold s) := by
  unfold recogniseReset
  repeat' first
    | with_reducible assumption | with_reducible apply onGlb_kept | with_reducible apply mateHalting_kept | split

theorem cutFuses_kept {s : State} (hg : Kept qu s) : Kept qu (cutFuses s) := by
  unfold cutFuses
  repeat' first
    | with_reducible assumption | extract_lets | with_reducible apply onNvm_kept | with_reducible apply freeVal_kept | split
    | with_reducible (refine kept_snd (by with_reducible assumption) ?_)

theorem doReset_kept {code : Nat} {cold : Bool} {s : State} (hg : Kept qu s) : Kept qu (doReset code cold s) := by
  have hc := cutFuses_kept hg
  refine ⟨hc.1, Memory.wf_filter _ hc.2.1, ?_⟩
  cases cold
  · exact hc.2.2
  · exact fun _ => rfl

theorem execResetEffect_kept {s : State} (hg : Kept qu s) : KeptR qu (execResetEffect s) := by
  unfold execResetEffect
  repeat' first
    | with_reducible assumption | with_reducible apply keptR_next | with_reducible apply doReset_kept | split

theorem execPowerOn_kept {s : State} (hg : Kept qu s) : KeptR qu (execPowerOn s) := by
  unfold execPowerOn
  with_reducible repeat' first | assumption | apply keptR_next | apply doReset_kept | refine kept_ite ?_ ?_

theorem execMainPowerBack_kept {s : State} (hg : Kept qu s) : KeptR qu (execMainPowerBack s) := by
  unfold execMainPowerBack
  repeat' first
    | with_reducible assumption | extract_lets | with_reducible apply keptR_next | with_reducible apply onStp_kept
    | with_reducible apply stpRecord_kept | with_reducible apply doReset_kept | split
    | with_reducible (refine kept_snd (by with_reducible assumption) ?_) | with_reducible (refine kept_mk ?_ rfl rfl rfl)

theorem execResetNRecognised_kept {s : State} (hg : Kept qu s) : KeptR qu (execResetNRecognised s) := by
  unfold execResetNRecognised
  with_reducible repeat' first | assumption | apply keptR_next | apply onGlb_kept | apply recogniseReset_kept | refine kept_ite ?_ ?_

theorem execGlbResetCold_kept {pf : Pf} {key : Nat} {s : State} (hg : Kept qu s) : KeptR qu (execGlbResetCold pf key s) := by
  unfold execGlbResetCold
  with_reducible repeat' first | assumption | apply keptR_next | apply recogniseReset_kept | refine kept_ite ?_ ?_

theorem execGlbResetWarm_kept {pf : Pf} {key : Nat} {s : State} (hg : Kept qu s) : KeptR qu (execGlbResetWarm pf key s) := by
  unfold execGlbResetWarm
  with_reducible repeat' first | assumption | apply keptR_next | apply recogniseReset_kept | refine kept_ite ?_ ?_

theorem execSagReset_kept {s : State} (hg : Kept qu s) : KeptR qu (execSagReset s) := by
  unfold execSagReset
  with_reducible repeat' first | assumption | apply keptR_next | apply recogniseReset_kept | refine kept_ite ?_ ?_

theorem resetMbx_kept {lo : Nat} {n : Nat} {s : State} (hg : Kept qu s) : Kept qu (resetMbx lo n s) := by
  unfold resetMbx
  with_reducible repeat' first | assumption | refine kept_foldl ?_ (fun _ _ _ => ?_) | apply setMbx_kept | apply closeSession_kept

theorem flr_kept {pf : Pf} {s : State} (hg : Kept qu s) : Kept qu (flr pf s) := by
  unfold flr
  repeat' first
    | with_reducible assumption | with_reducible apply resetMbx_kept | split | refine kept_mk ?_ rfl rfl rfl

theorem execPcieFlr_kept {pf : Pf} {s : State} (hg : Kept qu s) : KeptR qu (execPcieFlr pf s) := by
  unfold execPcieFlr
  repeat' first
    | with_reducible assumption | extract_lets | with_reducible apply keptR_next | with_reducible apply flr_kept
    | with_reducible (refine kept_ite ?_ ?_)

theorem execPcieHotReset_kept {s : State} (hg : Kept qu s) : KeptR qu (execPcieHotReset s) := by
  unfold execPcieHotReset
  repeat' first
    | with_reducible assumption | extract_lets | with_reducible apply keptR_next | with_reducible apply flr_kept
    | with_reducible (refine kept_ite ?_ ?_)

theorem bootBit_kept {i : Nat} {s : State} (hg : Kept qu s) : Kept qu (bootBit i s) := by
  unfold bootBit
  with_reducible repeat' first | assumption | apply onGlb_kept

theorem bootIf_kept {b : Bool} {i : Nat} {s : State} (hg : Kept qu s) : Kept qu (bootIf b i s) := by
  unfold bootIf
  with_reducible repeat' first | assumption | apply bootBit_kept | refine kept_ite ?_ ?_

theorem holdDrk_kept {v : Key} {s : State} (hg : Kept qu s) : Kept qu (holdDrk v s) := by
  unfold holdDrk
  with_reducible repeat' first | assumption | apply draw_kept | apply onKeys_kept

theorem clearBanks_kept {s : State} (hg : Kept qu s) : Kept qu (clearBanks s) := by
  unfold clearBanks
  repeat' first
    | with_reducible assumption | extract_lets | with_reducible apply onStp_kept | split
    | with_reducible (refine kept_snd (by with_reducible assumption) ?_) | with_reducible (refine kept_mk ?_ rfl rfl rfl)

theorem newDrk_kept {s : State} (hg : Kept qu s) : Kept qu (newDrk s) := by
  unfold newDrk
  repeat' first
    | with_reducible assumption | extract_lets | with_reducible apply holdDrk_kept | with_reducible apply onStp_kept
    | with_reducible apply bootBit_kept | with_reducible apply draw_kept | with_reducible apply onKeys_kept | split
    | with_reducible (refine kept_snd (by with_reducible assumption) ?_) | with_reducible (refine kept_mk ?_ rfl rfl rfl)

theorem drkAbsent_kept {canaryLost : Bool} {s : State} (hg : Kept qu s) : Kept qu (drkAbsent canaryLost s) := by
  unfold drkAbsent
  repeat' first
    | with_reducible assumption | extract_lets | with_reducible apply stpRecord_kept | with_reducible apply bootBit_kept
    | with_reducible apply newDrk_kept | split | with_reducible (refine kept_snd (by with_reducible assumption) ?_)
    | with_reducible (refine kept_mk ?_ rfl rfl rfl)

theorem startDrk_kept {canaryLost : Bool} {s : State} (hg : Kept qu s) : Kept qu (startDrk canaryLost s) := by
  unfold startDrk
  repeat' first
    | with_reducible assumption | extract_lets | with_reducible apply onNvm_kept | with_reducible apply clearBanks_kept
    | with_reducible apply drkAbsent_kept | with_reducible apply holdDrk_kept | with_reducible apply newDrk_kept | split
    | with_reducible (refine kept_snd (by with_reducible assumption) ?_) | with_reducible (refine kept_mk ?_ rfl rfl rfl)

theorem startPatch_kept {s : State} (hg : Kept qu s) : Kept qu (startPatch s) := by
  unfold startPatch
  repeat' first
    | with_reducible assumption | with_reducible apply bootBit_kept | with_reducible apply onNvm_kept | split

theorem startClusters_kept {bad : List Nat} {s : State} (hg : Kept qu s) : Kept qu (startClusters bad s) := by
  unfold startClusters
  repeat' first
    | with_reducible assumption | extract_lets | with_reducible apply degrade_kept | with_reducible apply bootBit_kept
    | with_reducible apply onGlb_kept | with_reducible apply recount_kept | with_reducible apply setRole_kept
    | with_reducible apply pass_kept | with_reducible (refine kept_foldl ?_ (fun _ _ _ => ?_)) | split
    | with_reducible (refine kept_snd (by with_reducible assumption) ?_) | with_reducible (refine kept_mk ?_ rfl rfl rfl)

theorem startCistern_kept {bad : List Nat} {s : State} (hg : Kept qu s) : Kept qu (startCistern bad s) := by
  unfold startCistern
  repeat' first
    | with_reducible assumption | extract_lets | with_reducible apply quarantineLimit_kept | with_reducible (refine onMem_kept ?_ rfl)
    | split | with_reducible (refine kept_snd (by with_reducible assumption) ?_) | with_reducible (refine kept_mk ?_ rfl rfl rfl)

theorem restoreRecord_kept {i : Nat} {s : State} (hg : Kept qu s) : Kept qu (restoreRecord i s) := by
  unfold restoreRecord
  repeat' first
    | with_reducible assumption | extract_lets | with_reducible apply setAttr_kept | with_reducible apply onNvm_kept
    | with_reducible apply installG_kept | split

theorem startRail_kept {reading : Option Nat} {s : State} (hg : Kept qu s) : Kept qu (startRail reading s) := by
  unfold startRail
  repeat' first
    | with_reducible assumption | extract_lets | with_reducible apply countFault_kept | with_reducible apply logFault_kept
    | with_reducible apply onPmu_kept | with_reducible apply emit_kept | split
    | with_reducible (refine kept_snd (by with_reducible assumption) ?_) | with_reducible (refine kept_mk ?_ rfl rfl rfl)

theorem writeReservoir_kept {s : State} (hg : Kept qu s) : Kept qu (writeReservoir s) := ⟨hg.1, Memory.wf_filter _ hg.2.1, hg.2.2⟩

theorem bootSteps_kept {b : BootReport} {canaryLost : Bool} {s : State} (hg : Kept qu s) : Kept qu (bootSteps b canaryLost s) := by
  unfold bootSteps
  repeat' first
    | with_reducible assumption | extract_lets | with_reducible apply onGlb_kept | with_reducible apply cellTamper_kept
    | with_reducible apply startRail_kept | with_reducible apply startMate_kept | with_reducible apply onPair_kept
    | with_reducible (refine onMem_kept ?_ rfl) | with_reducible apply putInternal_kept | with_reducible apply restoreRecord_kept
    | with_reducible apply bootBit_kept | with_reducible apply degrade_kept | with_reducible apply onTraffic_kept
    | with_reducible apply writeReservoir_kept | with_reducible apply startClusters_kept | with_reducible apply newImeKeys_kept
    | with_reducible apply startCistern_kept | with_reducible apply onNvm_kept | with_reducible apply bootIf_kept
    | with_reducible apply startDrk_kept | with_reducible apply startPatch_kept | with_reducible apply onKeys_kept
    | with_reducible apply redrawCounts_kept | with_reducible apply draw_kept | with_reducible (refine kept_foldl ?_ (fun _ _ _ => ?_))
    | split | with_reducible (refine kept_snd (by with_reducible assumption) ?_) | with_reducible (refine kept_mk ?_ rfl rfl rfl)

theorem execResetRelease_kept {boot : BootReport} {s : State} (hg : Kept qu s) : KeptR qu (execResetRelease boot s) := by
  unfold execResetRelease
  repeat' first
    | with_reducible assumption | with_reducible apply keptR_next | with_reducible apply checkCanary_kept
    | with_reducible apply bootIf_kept | with_reducible apply halt_kept | with_reducible apply bootSteps_kept
    | with_reducible (refine kept_ite ?_ ?_) | refine kept_mk ?_ rfl rfl rfl

theorem execBootEnd_kept {s : State} (hg : Kept qu s) : KeptR qu (execBootEnd s) := by
  unfold execBootEnd
  with_reducible repeat' first
    | assumption | apply keptR_next | apply settle_kept | apply onGlb_kept | apply setMode_kept
    | refine kept_ite ?_ ?_

theorem execServiceEntry_kept {s : State} (hg : Kept qu s) : KeptR qu (execServiceEntry s) := by
  unfold execServiceEntry
  repeat' first
    | with_reducible assumption | with_reducible apply keptR_next | with_reducible apply setMode_kept | with_reducible apply onGlb_kept
    | with_reducible apply holdUnpaired_kept | with_reducible apply settle_kept | with_reducible apply answer_kept
    | with_reducible (refine kept_ite ?_ ?_) | split

theorem execServiceEntryTimeout_kept {s : State} (hg : Kept qu s) : KeptR qu (execServiceEntryTimeout s) := by
  unfold execServiceEntryTimeout
  repeat' first
    | with_reducible assumption | with_reducible apply keptR_next | with_reducible apply answer_kept | with_reducible apply onGlb_kept
    | split

theorem dropMgmt_kept {r : Reason} {q : Nat} {s : State} (hg : Kept qu s) : Kept qu (dropMgmt r q s) := by
  unfold dropMgmt
  repeat' first
    | with_reducible assumption | extract_lets | with_reducible apply loseLaunch_kept
    | with_reducible (refine kept_foldl ?_ (fun _ _ _ => ?_)) | split
    | with_reducible (refine kept_snd (by with_reducible assumption) ?_) | with_reducible (refine kept_mk ?_ rfl rfl rfl)

theorem dropReceived_kept {r : Reason} {p : Nat} {s : State} (hg : Kept qu s) : Kept qu (dropReceived r p s) := by
  unfold dropReceived
  repeat' first
    | with_reducible assumption | extract_lets | with_reducible apply onRx_kept | with_reducible apply sump_kept
    | with_reducible apply tick_kept | with_reducible (refine kept_foldl ?_ (fun _ _ _ => ?_)) | split
    | with_reducible (refine kept_snd (by with_reducible assumption) ?_) | with_reducible (refine kept_mk ?_ rfl rfl rfl)

theorem dropAll_kept {s : State} (hg : Kept qu s) : Kept qu (dropAll s) := by
  unfold dropAll
  repeat' first
    | with_reducible assumption | extract_lets | with_reducible apply discardQueued_kept | with_reducible apply dropMgmt_kept
    | with_reducible apply dropReceived_kept | with_reducible (refine kept_foldl ?_ (fun _ _ _ => ?_)) | split
    | with_reducible (refine kept_snd (by with_reducible assumption) ?_) | with_reducible (refine kept_mk ?_ rfl rfl rfl)

theorem enterRecovery_kept {s : State} (hg : Kept qu s) : Kept qu (enterRecovery s) := by
  unfold enterRecovery
  repeat' first
    | with_reducible assumption | extract_lets | with_reducible apply emit_kept | with_reducible apply setMode_kept
    | with_reducible apply dropAll_kept | with_reducible apply dropHandover_kept | with_reducible apply standDown_kept
    | with_reducible apply mateHalting_kept | split | with_reducible (refine kept_snd (by with_reducible assumption) ?_)
    | with_reducible (refine kept_mk ?_ rfl rfl rfl)

theorem blowFuses_kept {l : Lifecycle} {s : State} (hg : Kept qu s) : Kept qu (blowFuses l s) := by
  unfold blowFuses
  with_reducible repeat' first
    | assumption | apply onNvm_kept | apply stpRecord_kept | apply recompute_kept | apply onGlb_kept | apply closeAll_kept

theorem execFuseProgramDone_kept {s : State} (hg : Kept qu s) : KeptR qu (execFuseProgramDone s) := by
  unfold execFuseProgramDone
  repeat' first
    | with_reducible assumption | extract_lets | with_reducible apply keptR_next | with_reducible apply recogniseReset_kept
    | with_reducible apply destroy_kept | with_reducible apply setMode_kept | with_reducible apply settle_kept
    | with_reducible apply answer_kept | with_reducible apply blowFuses_kept | split
    | with_reducible (refine kept_snd (by with_reducible assumption) ?_) | with_reducible (refine kept_mk ?_ rfl rfl rfl)

theorem execRefclkSysLost_kept {s : State} (hg : Kept qu s) : KeptR qu (execRefclkSysLost s) := by
  unfold execRefclkSysLost
  with_reducible repeat' first | assumption | apply keptR_next | apply halt_kept

theorem execRefclkSgLost_kept {group : SgNo} {s : State} (hg : Kept qu s) : KeptR qu (execRefclkSgLost group s) := by
  unfold execRefclkSgLost
  repeat' first
    | with_reducible assumption | extract_lets | with_reducible apply keptR_next | with_reducible apply degrade_kept
    | with_reducible apply settle_kept | with_reducible apply linkOff_kept | with_reducible apply onTraffic_kept
    | with_reducible apply countFault_kept | with_reducible apply logFault_kept | with_reducible (refine kept_foldl ?_ (fun _ _ _ => ?_))
    | split | with_reducible (refine kept_snd (by with_reducible assumption) ?_) | with_reducible (refine kept_mk ?_ rfl rfl rfl)

theorem execRefclkSgRestored_kept {group : SgNo} {s : State} (hg : Kept qu s) : KeptR qu (execRefclkSgRestored group s) := by
  unfold execRefclkSgRestored
  with_reducible repeat' first
    | assumption | apply keptR_next | apply onTraffic_kept | apply settle_kept | apply onMaint_kept | refine kept_ite ?_ ?_

theorem execBoundaryScan_kept {instruction : TapInstr} {s : State} (hg : Kept qu s) : KeptR qu (execBoundaryScan instruction s) := by
  unfold execBoundaryScan
  repeat' first
    | with_reducible assumption | refine kept_mk ?_ rfl rfl rfl

theorem execSysStatus_kept {mb : Mb} {s : State} (hg : Kept qu s) : KeptR qu (execSysStatus mb s) := by
  unfold execSysStatus
  with_reducible repeat' first | assumption | refine openRequest_kept ?_ (fun _ _ => ?_)

theorem toProvision_kept {mb : Mb} {s : State} (hg : Kept qu s) : Kept qu (toProvision mb s).2 := by
  unfold toProvision
  repeat' first
    | with_reducible assumption | extract_lets | with_reducible apply deny_kept | with_reducible apply onNvm_kept
    | with_reducible apply settle_kept | with_reducible apply setMode_kept | split

theorem execSysMode_kept {mb : Mb} {target : Nat} {s : State} (hg : Kept qu s) : KeptR qu (execSysMode mb target s) := by
  unfold execSysMode
  repeat' first
    | with_reducible assumption | with_reducible (refine request_kept ?_ (fun _ _ _ => ?_)) | with_reducible apply deny_kept
    | with_reducible apply toProvision_kept | with_reducible apply onGlb_kept | with_reducible apply settle_kept
    | with_reducible apply setMode_kept | with_reducible apply enterRecovery_kept | split

theorem execSysLifecycle_kept {mb : Mb} {target : Nat} {confirm : Nat} {s : State} (hg : Kept qu s) :
    KeptR qu (execSysLifecycle mb target confirm s) := by
  unfold execSysLifecycle
  repeat' first
    | with_reducible assumption | with_reducible (refine request_kept ?_ (fun _ _ _ => ?_)) | with_reducible apply deny_kept
    | with_reducible apply onNvm_kept | split

theorem respondThen_kept {mb : Nat} {act : State → State} {s : State} (hg : Kept qu s) (hf : ∀ s, Kept qu s → Kept qu (act s)) :
    Kept qu (respondThen mb act s).2 := hf _ (respond_kept (answer_kept hg))

theorem execSysReset_kept {mb : Mb} {kind : Nat} {s : State} (hg : Kept qu s) : KeptR qu (execSysReset mb kind s) := by
  unfold execSysReset
  repeat' first
    | with_reducible assumption | with_reducible (refine request_kept ?_ (fun _ _ _ => ?_)) | with_reducible apply deny_kept
    | with_reducible (refine respondThen_kept ?_ (fun _ _ => ?_)) | with_reducible apply recogniseReset_kept | split

theorem execSysHalt_kept {mb : Mb} {confirm : Nat} {s : State} (hg : Kept qu s) : KeptR qu (execSysHalt mb confirm s) := by
  unfold execSysHalt
  repeat' first
    | with_reducible assumption | with_reducible (refine request_kept ?_ (fun _ _ _ => ?_)) | with_reducible apply deny_kept
    | with_reducible (refine respondThen_kept ?_ (fun _ _ => ?_)) | with_reducible apply halt_kept | split

theorem execSysPatchLoad_kept {mb : Mb} {addr : Nat} {len : Nat} {colour : Nat} {s : State} (hg : Kept qu s) :
    KeptR qu (execSysPatchLoad mb addr len colour s) := by
  unfold execSysPatchLoad
  repeat' first
    | with_reducible assumption | with_reducible (refine request_kept ?_ (fun _ _ _ => ?_)) | with_reducible apply deny_kept
    | with_reducible (refine withBuffer_kept ?_ (fun _ _ _ => ?_)) | with_reducible apply onNvm_kept | split

theorem execSysPatchInfo_kept {mb : Mb} {s : State} (hg : Kept qu s) : KeptR qu (execSysPatchInfo mb s) := by
  unfold execSysPatchInfo
  with_reducible repeat' first | assumption | refine request_kept ?_ (fun _ _ _ => ?_) | apply done_kept

theorem openSession_kept {mb : Nat} {w : World} {enrolment : Bool} {s : State} (hg : Kept qu s) :
    Kept qu (openSession mb w enrolment s).2 := by
  unfold openSession
  with_reducible repeat' first | assumption | apply draw_kept | apply setMbx_kept

theorem challenge_kept {mb : Nat} {g : Nat} {s : State} (hg : Kept qu s) : Kept qu (challenge mb g s).2 := by
  unfold challenge
  repeat' first
    | with_reducible assumption | with_reducible apply useG_kept | with_reducible apply draw_kept | with_reducible apply setMbx_kept
    | split | with_reducible (refine kept_snd (by with_reducible assumption) ?_)

theorem authOpen_kept {mb : Nat} {world : Nat} {g : Nat} {s : State} (hg : Kept qu s) : Kept qu (authOpen mb world g s).2 := by
  unfold authOpen
  repeat' first
    | with_reducible assumption | extract_lets | with_reducible apply closeSession_kept | with_reducible apply openSession_kept
    | with_reducible apply challenge_kept | split

theorem execAuthOpen_kept {mb : Mb} {world : Nat} {gslot : Nat} {s : State} (hg : Kept qu s) :
    KeptR qu (execAuthOpen mb world gslot s) := by
  unfold execAuthOpen
  with_reducible repeat' first | assumption | refine openRequest_kept ?_ (fun _ _ => ?_) | apply authOpen_kept

theorem authProve_kept {mb : Nat} {proof : Nat} {s : State} (hg : Kept qu s) : Kept qu (authProve mb proof s).2 := by
  unfold authProve
  repeat' first
    | with_reducible assumption | extract_lets | with_reducible apply setMbx_kept | with_reducible apply readG_kept
    | with_reducible apply openSession_kept | split | with_reducible (refine kept_snd (by with_reducible assumption) ?_)

theorem execAuthProve_kept {mb : Mb} {proof : Nat} {s : State} (hg : Kept qu s) : KeptR qu (execAuthProve mb proof s) := by
  unfold execAuthProve
  with_reducible repeat' first | assumption | refine openRequest_kept ?_ (fun _ _ => ?_) | apply authProve_kept

theorem execAuthClose_kept {mb : Mb} {s : State} (hg : Kept qu s) : KeptR qu (execAuthClose mb s) := by
  unfold execAuthClose
  with_reducible repeat' first | assumption | refine request_kept ?_ (fun _ _ _ => ?_) | apply done_kept | apply closeSession_kept

theorem execSessionIdleExpire_kept {mb : Mb} {s : State} (hg : Kept qu s) : KeptR qu (execSessionIdleExpire mb s) := by
  unfold execSessionIdleExpire
  repeat' first
    | with_reducible assumption | with_reducible apply keptR_next | with_reducible apply closeSession_kept | split

theorem execMailboxReqWrite_kept {pf : Pf} {mb : Mb} {offset : Nat} {value : W32} {s : State} (hg : Kept qu s) :
    KeptR qu (execMailboxReqWrite pf mb offset value s) := by
  unfold execMailboxReqWrite
  with_reducible repeat' first | assumption | apply keptR_next | apply setMbx_kept | refine kept_ite ?_ ?_

theorem execMailboxResponse_kept {mb : Mb} {s : State} (hg : Kept qu s) : KeptR qu (execMailboxResponse mb s) := by
  unfold execMailboxResponse
  with_reducible repeat' first | assumption | apply keptR_next | apply respond_kept | refine kept_ite ?_ ?_

end Sys2Proof.Machine
end

