-- ==== Sys2Proof/Laws/InvariantCommands.lean ====
section
/-! SUPPORT. Operations that keep `StepInv` and the queue: the mailbox commands. -/

namespace Sys2Proof.Machine

open Sys2Proof Sys2Proof.Safety

variable {qu : List Instr}

theorem wake_kept {n : Nat} {s : State} (hg : Kept qu s) : Kept qu (wake n s) := by
  unfold wake
  repeat' first
    | with_reducible assumption | extract_lets | with_reducible apply setDom_kept | with_reducible apply raise_kept | split

theorem reach_kept {doms : List Nat} {s : State} (hg : Kept qu s) : Kept qu (reach doms s).2 := by
  unfold reach
  repeat' first
    | with_reducible assumption | extract_lets | with_reducible (refine kept_foldl ?_ (fun _ _ _ => ?_)) | with_reducible apply wake_kept
    | split

theorem placeMka_kept {p : Nat} {s : State} (hg : Kept qu s) : Kept qu (placeMka p s) := by
  unfold placeMka
  with_reducible repeat' first | assumption | apply touch_kept | apply setAttr_kept | refine kept_ite ?_ ?_

theorem dropMka_kept {p : Nat} {s : State} (hg : Kept qu s) : Kept qu (dropMka p s) := by
  unfold dropMka
  repeat' first
    | with_reducible assumption | with_reducible apply touch_kept | with_reducible apply setAttr_kept | split

theorem portAfter_kept {r : SetReq} {s : State} (hg : Kept qu s) : Kept qu (portAfter r s) := by
  unfold portAfter
  repeat' first
    | with_reducible assumption | extract_lets | with_reducible apply limitsChanged_kept | with_reducible apply onLive_kept
    | with_reducible apply setPort_kept | with_reducible apply regulate_kept | with_reducible (refine kept_foldl ?_ (fun _ _ _ => ?_))
    | split | with_reducible (refine kept_snd (by with_reducible assumption) ?_) | with_reducible (refine kept_mk ?_ rfl rfl rfl)

theorem portDown_kept {q : Nat} {s : State} (hg : Kept qu s) : Kept qu (portDown q s) := by
  unfold portDown
  with_reducible repeat' first
    | assumption | apply linkOff_kept | apply onTx_kept | apply cutSegs_kept | apply onPair_kept | refine kept_ite ?_ ?_

theorem portUp_kept {q : Nat} {s : State} (hg : Kept qu s) : Kept qu (portUp q s).2 := by
  unfold portUp
  repeat' first
    | with_reducible assumption | extract_lets | with_reducible apply startSession_kept | with_reducible apply freshRx_kept
    | with_reducible apply onPair_kept | with_reducible (refine kept_ite ?_ ?_) | split
    | with_reducible (refine kept_snd (by with_reducible assumption) ?_)

theorem bringUp_kept {q : Nat} {s : State} (hg : Kept qu s) : Kept qu (bringUp q s) := by
  unfold bringUp
  repeat' first
    | with_reducible assumption | extract_lets | with_reducible apply freshRx_kept | with_reducible apply raise_kept
    | with_reducible apply defer_kept | with_reducible apply portUp_kept | split
    | with_reducible (refine kept_snd (by with_reducible assumption) ?_) | with_reducible (refine kept_mk ?_ rfl rfl rfl)

theorem shpAfter_kept {r : SetReq} {s : State} (hg : Kept qu s) : Kept qu (shpAfter r s) := by
  unfold shpAfter
  with_reducible repeat' first | assumption | apply onTraffic_kept | refine kept_ite ?_ ?_

theorem caAfter_kept {r : SetReq} {s : State} (hg : Kept qu s) : Kept qu (caAfter r s) := by
  unfold caAfter
  with_reducible repeat' first | assumption | apply tieCa_kept | apply untieCa_kept | refine kept_ite ?_ ?_

theorem perfAfter_kept {r : SetReq} {s : State} (hg : Kept qu s) : Kept qu (perfAfter r s) := by
  unfold perfAfter
  with_reducible repeat' first | assumption | apply onPerf_kept | refine kept_ite ?_ ?_

theorem boundStep_kept {r : SetReq} {t : State} (hg : Kept qu r.t) (e : boundStep r = some t) : Kept qu t := by
  unfold boundStep at e
  split at e
  · exact nomatch e
  · split at e
    · exact checked_kept hg e
    · cases e; exact hg

theorem keepLow_kept {w : Nat} {n : Nat} {s : State} (hg : Kept qu s) : Kept qu (keepLow w n s) := by
  unfold keepLow
  with_reducible repeat' first | assumption | apply onTraffic_kept

theorem classAfter_kept {r : SetReq} {s : State} (hg : Kept qu s) : Kept qu (classAfter r s) := by
  unfold classAfter
  repeat' first
    | with_reducible assumption | extract_lets | with_reducible apply quarantineLimit_kept | with_reducible apply perfAfter_kept
    | with_reducible apply stpRecord_kept | with_reducible apply onStp_kept | with_reducible apply caAfter_kept
    | with_reducible apply shpAfter_kept | with_reducible apply onTraffic_kept | with_reducible apply limitsChanged_kept
    | with_reducible apply dropMka_kept | with_reducible apply placeMka_kept | with_reducible apply keepLow_kept
    | with_reducible apply portAfter_kept | with_reducible apply touch_kept | with_reducible (refine kept_foldl ?_ (fun _ _ _ => ?_))
    | split | with_reducible (refine kept_snd (by with_reducible assumption) ?_) | with_reducible (refine kept_mk ?_ rfl rfl rfl)

theorem putAll_kept {cls : Nat} {inst : Nat} {l : List (Nat × Nat)} {s : State} (hg : Kept qu s) : Kept qu (putAll cls inst l s) := by
  unfold putAll
  with_reducible repeat' first
    | assumption | refine kept_foldl ?_ (fun _ _ _ => ?_) | apply putG_kept | apply setAttr_kept | refine kept_ite ?_ ?_

theorem portSwitch_kept {r : SetReq} {base s : State} (hb : Kept qu base) (hg : Kept qu s) : Kept qu (portSwitch r base s).2 := by
  have h := portUp_kept (q := r.port) hg
  unfold portSwitch
  simp only
  split
  · exact classAfter_kept hg
  · split
    · exact classAfter_kept (portDown_kept hg)
    · split
      · exact startSession_kept hb
      · next e => rw [e] at h; exact classAfter_kept h

theorem finishSet_kept {r : SetReq} {values : List Nat} (hs : Kept qu r.s) (ht : Kept qu r.t) : Kept qu (finishSet r values).2 := by
  unfold finishSet
  split
  · exact hs
  · split
    · exact hs
    · next t e1 =>
      have h1 := boundStep_kept ht e1
      split
      · extract_lets doms
        have hd : ∀ x, Kept qu x → Kept qu (reach doms x).2 := fun x h => reach_kept h
        clear_value doms
        split
        · exact hs
        · exact hd _ hs
        · next t1 e2 => 
          have h2 := hd _ h1
          rw [e2] at h2
          exact portSwitch_kept (hd _ hs) h2
      · split
        · exact portSwitch_kept hs h1
        · exact classAfter_kept h1

theorem applySet_kept {only : Option Nat} {weight : Bool} {w : World} {l : List SetEntry} {s : State} (hg : Kept qu s) :
    Kept qu (applySet only weight w l s).2 := by
  unfold applySet
  extract_lets spec
  repeat' first | split | extract_lets
  all_goals first
    | exact hg
    | exact finishSet_kept hg (putAll_kept hg)

theorem runSet_kept {only : Option Nat} {weight : Bool} {e : Entries} {w : World} {s : State} (hg : Kept qu s) :
    Kept qu (runSet only weight e w s).2 := by
  unfold runSet
  repeat' first
    | with_reducible assumption | extract_lets | with_reducible apply settle_kept | with_reducible apply applySet_kept | split
    | with_reducible (refine kept_snd (by with_reducible assumption) ?_) | with_reducible (refine kept_mk ?_ rfl rfl rfl)

theorem execObjSet_kept {mb : Mb} {entries : Entries} {s : State} (hg : Kept qu s) : KeptR qu (execObjSet mb entries s) := by
  unfold execObjSet
  with_reducible repeat' first | assumption | refine request_kept ?_ (fun _ _ _ => ?_) | apply runSet_kept

theorem execChanSet_kept {mb : Mb} {entries : Entries} {s : State} (hg : Kept qu s) : KeptR qu (execChanSet mb entries s) := by
  unfold execChanSet
  with_reducible repeat' first | assumption | refine request_kept ?_ (fun _ _ _ => ?_) | apply runSet_kept

theorem execCaSet_kept {mb : Mb} {entries : Entries} {s : State} (hg : Kept qu s) : KeptR qu (execCaSet mb entries s) := by
  unfold execCaSet
  with_reducible repeat' first | assumption | refine request_kept ?_ (fun _ _ _ => ?_) | apply runSet_kept

theorem execLinkSet_kept {mb : Mb} {entries : Entries} {s : State} (hg : Kept qu s) : KeptR qu (execLinkSet mb entries s) := by
  unfold execLinkSet
  with_reducible repeat' first | assumption | refine request_kept ?_ (fun _ _ _ => ?_) | apply runSet_kept

theorem execSchedPolicer_kept {mb : Mb} {entries : Entries} {s : State} (hg : Kept qu s) : KeptR qu (execSchedPolicer mb entries s) := by
  unfold execSchedPolicer
  with_reducible repeat' first | assumption | refine request_kept ?_ (fun _ _ _ => ?_) | apply runSet_kept

theorem execSchedShaper_kept {mb : Mb} {entries : Entries} {s : State} (hg : Kept qu s) : KeptR qu (execSchedShaper mb entries s) := by
  unfold execSchedShaper
  with_reducible repeat' first | assumption | refine request_kept ?_ (fun _ _ _ => ?_) | apply runSet_kept

theorem execSchedWeight_kept {mb : Mb} {entries : Entries} {s : State} (hg : Kept qu s) : KeptR qu (execSchedWeight mb entries s) := by
  unfold execSchedWeight
  with_reducible repeat' first | assumption | refine request_kept ?_ (fun _ _ _ => ?_) | apply runSet_kept

theorem execPairSet_kept {mb : Mb} {entries : Entries} {s : State} (hg : Kept qu s) : KeptR qu (execPairSet mb entries s) := by
  unfold execPairSet
  with_reducible repeat' first | assumption | refine request_kept ?_ (fun _ _ _ => ?_) | apply runSet_kept

theorem execPmuSet_kept {mb : Mb} {entries : Entries} {s : State} (hg : Kept qu s) : KeptR qu (execPmuSet mb entries s) := by
  unfold execPmuSet
  with_reducible repeat' first | assumption | refine request_kept ?_ (fun _ _ _ => ?_) | apply runSet_kept

theorem execPerfSet_kept {mb : Mb} {entries : Entries} {s : State} (hg : Kept qu s) : KeptR qu (execPerfSet mb entries s) := by
  unfold execPerfSet
  with_reducible repeat' first | assumption | refine request_kept ?_ (fun _ _ _ => ?_) | apply runSet_kept

theorem execObjGet_kept {mb : Mb} {ids : NatList} {s : State} (hg : Kept qu s) : KeptR qu (execObjGet mb ids s) := by
  unfold execObjGet
  repeat' first
    | with_reducible assumption | extract_lets | with_reducible (refine request_kept ?_ (fun _ _ _ => ?_)) | with_reducible apply deny_kept
    | with_reducible apply done_kept | split

theorem execObjBulkRead_kept {mb : Mb} {req : BulkReq} {s : State} (hg : Kept qu s) : KeptR qu (execObjBulkRead mb req s) := by
  unfold execObjBulkRead
  repeat' first
    | with_reducible assumption | with_reducible (refine request_kept ?_ (fun _ _ _ => ?_)) | with_reducible apply deny_kept
    | with_reducible apply intoBuffer_kept | split

theorem bulkApply_kept {r : BulkReq} {w : World} {n i : Nat} {b : Bytes} {s : State} (hg : Kept qu s) :
    Kept qu (bulkApply r w n i b s).2 := by
  induction n generalizing i b s with
  | zero => exact hg
  | succ n ih =>
    have h := applySet_kept (only := none) (weight := false) (w := w) (l := recordEntries r i r.codes b) hg
    simp only [bulkApply]
    split
    · next e => rw [e] at h; exact h
    · next e => rw [e] at h; exact ih h
    · next e => rw [e] at h; exact h

theorem execObjBulkWrite_kept {mb : Mb} {req : BulkReq} {s : State} (hg : Kept qu s) : KeptR qu (execObjBulkWrite mb req s) := by
  unfold execObjBulkWrite
  repeat' first
    | with_reducible assumption | with_reducible (refine request_kept ?_ (fun _ _ _ => ?_))
    | with_reducible (refine whenFree_kept ?_ (fun _ _ => ?_)) | with_reducible apply bufRead_kept | with_reducible apply bulkApply_kept
    | split | with_reducible (refine kept_snd (by with_reducible assumption) ?_)

theorem keyRequest_kept {worlds : List World} {modes : List Mode} {mb : Nat} {run : World → State → Option Reply × State} {s : State}
    (hg : Kept qu s) (hr : ∀ w s, Kept qu s → Kept qu (run w s).2) : KeptR qu (keyRequest worlds modes mb run s) := by
  unfold keyRequest
  split
  · exact refuseRequest_kept hg
  · split
    · exact request_kept hg (fun _ s h => deny_kept h)
    · exact request_kept hg hr

theorem withRoot_kept {run : State → Option Reply × State} {s : State} (hg : Kept qu s) (hr : ∀ s, Kept qu s → Kept qu (run s).2) :
    Kept qu (withRoot run s).2 := by
  unfold withRoot
  split
  · exact hr s hg
  · exact halt_kept hg

theorem install_kept {mb : Nat} {space : Nat} {slot : Nat} {word : W64} {origin : Nat} {key : Key} {salt : Salt} {s : State} (hg : Kept qu s) :
    Kept qu (install mb space slot word origin key salt s).2 := by
  unfold install
  repeat' first
    | with_reducible assumption | extract_lets | with_reducible apply installK_kept | with_reducible apply installPersisted_kept
    | with_reducible apply afterMirror_kept | with_reducible apply touch_kept | with_reducible apply settle_kept
    | with_reducible apply done_kept | split | with_reducible (refine kept_snd (by with_reducible assumption) ?_)

theorem execKeyIdentity_kept {mb : Mb} {addr : Nat} {colour : Nat} {s : State} (hg : Kept qu s) :
    KeptR qu (execKeyIdentity mb addr colour s) := by
  unfold execKeyIdentity
  repeat' first
    | with_reducible assumption | extract_lets | with_reducible apply keptR_next | with_reducible apply onKeys_kept
    | with_reducible apply intoBuffer_kept | with_reducible (refine withRoot_kept ?_ (fun _ _ => ?_)) | with_reducible apply deny_kept
    | with_reducible (refine keyRequest_kept ?_ (fun _ _ _ => ?_)) | split
    | with_reducible (refine kept_snd (by with_reducible assumption) ?_) | with_reducible (refine kept_mk ?_ rfl rfl rfl)

theorem execKeyGenerate_kept {mb : Mb} {space : Nat} {slot : Nat} {attr : Nat} {s : State} (hg : Kept qu s) :
    KeptR qu (execKeyGenerate mb space slot attr s) := by
  unfold execKeyGenerate
  repeat' first
    | with_reducible assumption | extract_lets | with_reducible apply keptR_next | with_reducible apply install_kept
    | with_reducible apply draw_kept | with_reducible apply onKeys_kept | with_reducible apply deny_kept
    | with_reducible (refine keyRequest_kept ?_ (fun _ _ _ => ?_)) | split
    | with_reducible (refine kept_snd (by with_reducible assumption) ?_) | with_reducible (refine kept_mk ?_ rfl rfl rfl)

theorem execKeyDerive_kept {mb : Mb} {req : DeriveReq} {s : State} (hg : Kept qu s) : KeptR qu (execKeyDerive mb req s) := by
  unfold execKeyDerive
  repeat' first
    | with_reducible assumption | extract_lets | with_reducible apply keptR_next | with_reducible apply install_kept
    | with_reducible apply readG_kept | with_reducible apply useG_kept | with_reducible apply deny_kept
    | with_reducible (refine keyRequest_kept ?_ (fun _ _ _ => ?_)) | split
    | with_reducible (refine kept_snd (by with_reducible assumption) ?_) | with_reducible (refine kept_mk ?_ rfl rfl rfl)

theorem execKeyImport_kept {mb : Mb} {addr : Nat} {len : Nat} {colour : Nat} {s : State} (hg : Kept qu s) :
    KeptR qu (execKeyImport mb addr len colour s) := by
  unfold execKeyImport
  repeat' first
    | with_reducible assumption | extract_lets | with_reducible apply keptR_next | with_reducible apply install_kept
    | with_reducible (refine withBuffer_kept ?_ (fun _ _ _ => ?_)) | with_reducible (refine withRoot_kept ?_ (fun _ _ => ?_))
    | with_reducible apply deny_kept | with_reducible (refine keyRequest_kept ?_ (fun _ _ _ => ?_)) | split
    | with_reducible (refine kept_snd (by with_reducible assumption) ?_) | with_reducible (refine kept_mk ?_ rfl rfl rfl)

theorem exportCheck_kept {g : Nat} {w : World} {s : State} (hg : Kept qu s) : Kept qu (exportCheck g w s).2 := by
  unfold exportCheck
  repeat' first
    | with_reducible assumption | extract_lets | with_reducible apply putG_kept | split

theorem execKeyWrap_kept {mb : Mb} {gslot : Nat} {wrapping : Nat} {addr : Nat} {colour : Nat} {s : State} (hg : Kept qu s) :
    KeptR qu (execKeyWrap mb gslot wrapping addr colour s) := by
  unfold execKeyWrap
  repeat' first
    | with_reducible assumption | extract_lets | with_reducible apply keptR_next | with_reducible apply intoBuffer_kept
    | with_reducible apply readG_kept | with_reducible apply useG_kept | with_reducible apply exportCheck_kept
    | with_reducible apply deny_kept | with_reducible (refine keyRequest_kept ?_ (fun _ _ _ => ?_)) | split
    | with_reducible (refine kept_snd (by with_reducible assumption) ?_) | with_reducible (refine kept_mk ?_ rfl rfl rfl)

theorem execKeyUnwrap_kept {mb : Mb} {target : Nat} {unwrapping : Nat} {addr : Nat} {colour : Nat} {s : State} (hg : Kept qu s) :
    KeptR qu (execKeyUnwrap mb target unwrapping addr colour s) := by
  unfold execKeyUnwrap
  repeat' first
    | with_reducible assumption | extract_lets | with_reducible apply keptR_next | with_reducible apply install_kept
    | with_reducible apply readG_kept | with_reducible apply useG_kept | with_reducible (refine withBuffer_kept ?_ (fun _ _ _ => ?_))
    | with_reducible apply deny_kept | with_reducible (refine keyRequest_kept ?_ (fun _ _ _ => ?_)) | split
    | with_reducible (refine kept_snd (by with_reducible assumption) ?_) | with_reducible (refine kept_mk ?_ rfl rfl rfl)

theorem execKeyRestrict_kept {mb : Mb} {gslot : Nat} {uses : Nat} {clear : Nat} {s : State} (hg : Kept qu s) :
    KeptR qu (execKeyRestrict mb gslot uses clear s) := by
  unfold execKeyRestrict
  repeat' first
    | with_reducible assumption | extract_lets | with_reducible apply keptR_next | with_reducible apply touch_kept
    | with_reducible apply done_kept | with_reducible apply raise_kept | with_reducible apply putG_kept | with_reducible apply deny_kept
    | with_reducible (refine keyRequest_kept ?_ (fun _ _ _ => ?_)) | split
    | with_reducible (refine kept_snd (by with_reducible assumption) ?_) | with_reducible (refine kept_mk ?_ rfl rfl rfl)

theorem execKeyDestroy_kept {mb : Mb} {space : Nat} {slot : Nat} {s : State} (hg : Kept qu s) :
    KeptR qu (execKeyDestroy mb space slot s) := by
  unfold execKeyDestroy
  repeat' first
    | with_reducible assumption | extract_lets | with_reducible apply keptR_next | with_reducible apply settle_kept
    | with_reducible apply done_kept | with_reducible apply touch_kept | with_reducible apply erasePersist_kept
    | with_reducible apply destroyG_kept | with_reducible apply destroyK_kept | with_reducible apply deny_kept
    | with_reducible (refine keyRequest_kept ?_ (fun _ _ _ => ?_)) | split
    | with_reducible (refine kept_snd (by with_reducible assumption) ?_) | with_reducible (refine kept_mk ?_ rfl rfl rfl)

theorem execKeyZeroize_kept {mb : Mb} {confirm : Nat} {s : State} (hg : Kept qu s) : KeptR qu (execKeyZeroize mb confirm s) := by
  unfold execKeyZeroize
  repeat' first
    | with_reducible assumption | extract_lets | with_reducible apply keptR_next | with_reducible apply destroy_kept
    | with_reducible apply respondThen_kept | with_reducible apply deny_kept | with_reducible (refine request_kept ?_ (fun _ _ _ => ?_))
    | with_reducible apply refuseRequest_kept | split | with_reducible (refine kept_snd (by with_reducible assumption) ?_)
    | with_reducible (refine kept_mk ?_ rfl rfl rfl)

theorem chanRequest_kept {mb chan : Nat} {run : State → Option Reply × State} {s : State} (hg : Kept qu s)
    (hr : ∀ s, Kept qu s → Kept qu (run s).2) : KeptR qu (chanRequest mb chan run s) := by
  unfold chanRequest
  refine request_kept hg (fun _ s h => ?_)
  repeat' split
  · exact h
  · exact h
  · exact hr s h

theorem execChanCreate_kept {mb : Mb} {chan : Nat} {s : State} (hg : Kept qu s) : KeptR qu (execChanCreate mb chan s) := by
  unfold execChanCreate
  repeat' first
    | with_reducible assumption | with_reducible (refine chanRequest_kept ?_ (fun _ _ => ?_)) | with_reducible apply deny_kept
    | with_reducible apply done_kept | with_reducible apply touch_kept | with_reducible apply setChan_kept | split

theorem activate_kept {c : Nat} {s : State} (hg : Kept qu s) : Kept qu (activate c s) := by
  unfold activate
  with_reducible repeat' first | assumption | apply putK_kept | apply touch_kept | apply setChan_kept

theorem execChanEnable_kept {mb : Mb} {chan : Nat} {s : State} (hg : Kept qu s) : KeptR qu (execChanEnable mb chan s) := by
  unfold execChanEnable
  refine chanRequest_kept hg (fun s h => ?_)
  extract_lets x
  repeat' first | split | extract_lets
  all_goals first
    | exact h
    | next e _ => exact checked_kept (setChan_kept h) e
    | next e _ _ => exact checked_kept (setChan_kept h) e
    | next e _ _ => exact activate_kept (checked_kept (setChan_kept h) e)
    | next e _ => exact activate_kept (checked_kept (setChan_kept h) e)

theorem release_kept {c : Nat} {s : State} (hg : Kept qu s) : Kept qu (release c s) := by
  unfold release
  with_reducible repeat' first | assumption | apply touch_kept | apply freeChan_kept

theorem execChanDisable_kept {mb : Mb} {chan : Nat} {s : State} (hg : Kept qu s) : KeptR qu (execChanDisable mb chan s) := by
  unfold execChanDisable
  repeat' first
    | with_reducible assumption | extract_lets | with_reducible (refine chanRequest_kept ?_ (fun _ _ => ?_))
    | with_reducible apply done_kept | with_reducible apply release_kept | with_reducible apply setChan_kept | split

theorem execChanDrainDone_kept {chan : Nat} {s : State} (hg : Kept qu s) : KeptR qu (execChanDrainDone chan s) := by
  unfold execChanDrainDone
  with_reducible repeat' first | assumption | apply keptR_next | apply release_kept | refine kept_ite ?_ ?_

theorem execChanSwitch_kept {mb : Mb} {chan : Nat} {s : State} (hg : Kept qu s) : KeptR qu (execChanSwitch mb chan s) := by
  unfold execChanSwitch
  repeat' first
    | with_reducible assumption | extract_lets | with_reducible apply keptR_next | with_reducible apply setChan_kept
    | with_reducible apply done_kept | with_reducible apply deny_kept | with_reducible (refine chanRequest_kept ?_ (fun _ _ => ?_))
    | split | with_reducible (refine kept_snd (by with_reducible assumption) ?_) | with_reducible (refine kept_mk ?_ rfl rfl rfl)

theorem execSlotRetire_kept {chan : Nat} {s : State} (hg : Kept qu s) : KeptR qu (execSlotRetire chan s) := by
  unfold execSlotRetire
  with_reducible repeat' first
    | assumption | apply keptR_next | apply touch_kept | apply destroyK_kept | apply setChan_kept | refine kept_ite ?_ ?_

theorem execChanMap_kept {mb : Mb} {chan : Nat} {key : ClassKey} {s : State} (hg : Kept qu s) : KeptR qu (execChanMap mb chan key s) := by
  unfold execChanMap
  repeat' first
    | with_reducible assumption | extract_lets | with_reducible (refine request_kept ?_ (fun _ _ _ => ?_)) | with_reducible apply deny_kept
    | with_reducible apply done_kept | with_reducible apply onTraffic_kept | split

theorem execChanUnmap_kept {mb : Mb} {key : ClassKey} {s : State} (hg : Kept qu s) : KeptR qu (execChanUnmap mb key s) := by
  unfold execChanUnmap
  repeat' first
    | with_reducible assumption | with_reducible (refine request_kept ?_ (fun _ _ _ => ?_)) | with_reducible apply deny_kept
    | with_reducible apply done_kept | with_reducible apply onTraffic_kept | split

theorem execClassEntryRewrite_kept {key : ClassKey} {s : State} (hg : Kept qu s) : KeptR qu (execClassEntryRewrite key s) := by
  unfold execClassEntryRewrite
  with_reducible repeat' first | assumption | apply keptR_next | apply onTraffic_kept | refine kept_ite ?_ ?_

theorem execLinkRestart_kept {mb : Mb} {lport : Nat} {s : State} (hg : Kept qu s) : KeptR qu (execLinkRestart mb lport s) := by
  unfold execLinkRestart
  repeat' first
    | with_reducible assumption | with_reducible (refine request_kept ?_ (fun _ _ _ => ?_)) | with_reducible apply deny_kept
    | with_reducible apply done_kept | with_reducible apply startSession_kept | split
    | with_reducible (refine kept_snd (by with_reducible assumption) ?_)

theorem gateRequest_kept {mb n : Nat} {run : World → State → Option Reply × State} {s : State} (hg : Kept qu s)
    (hr : ∀ w s, Kept qu s → Kept qu (run w s).2) : KeptR qu (gateRequest mb n run s) := by
  unfold gateRequest
  refine request_kept hg (fun w s h => ?_)
  repeat' split
  · exact h
  · exact h
  · exact hr w _ (gateTurn_kept h)

theorem execSchedGateLoad_kept {mb : Mb} {q : Nat} {count : Nat} {cycleNs : Nat} {addr : Nat} {colour : Nat} {s : State} (hg : Kept qu s) :
    KeptR qu (execSchedGateLoad mb q count cycleNs addr colour s) := by
  unfold execSchedGateLoad
  repeat' first
    | with_reducible assumption | extract_lets | with_reducible apply keptR_next | with_reducible apply setGate_kept
    | with_reducible apply done_kept | with_reducible (refine withBuffer_kept ?_ (fun _ _ _ => ?_)) | with_reducible apply deny_kept
    | with_reducible (refine gateRequest_kept ?_ (fun _ _ _ => ?_)) | with_reducible (refine kept_foldl ?_ (fun _ _ _ => ?_)) | split
    | with_reducible (refine kept_snd (by with_reducible assumption) ?_) | with_reducible (refine kept_mk ?_ rfl rfl rfl)

theorem execSchedGateCommit_kept {mb : Mb} {n baseSec baseNs : Nat} {s : State} (hg : Kept qu s) :
    KeptR qu (execSchedGateCommit mb n baseSec baseNs s) := by
  unfold execSchedGateCommit
  refine gateRequest_kept hg (fun _ s h => ?_)
  extract_lets g
  repeat' first | split | extract_lets
  all_goals first
    | exact h
    | next e => exact touch_kept (checked_kept (setGate_kept h) e)

theorem execSchedGateCancel_kept {mb : Mb} {q : Nat} {s : State} (hg : Kept qu s) : KeptR qu (execSchedGateCancel mb q s) := by
  unfold execSchedGateCancel
  repeat' first
    | with_reducible assumption | extract_lets | with_reducible apply keptR_next | with_reducible apply setGate_kept
    | with_reducible apply touch_kept | with_reducible apply deny_kept | with_reducible apply done_kept
    | with_reducible (refine gateRequest_kept ?_ (fun _ _ _ => ?_)) | split
    | with_reducible (refine kept_snd (by with_reducible assumption) ?_) | with_reducible (refine kept_mk ?_ rfl rfl rfl)

theorem caRequest_kept {mb ca : Nat} {modes : List Mode} {run : State → Option Reply × State} {s : State} (hg : Kept qu s)
    (hr : ∀ s, Kept qu s → Kept qu (run s).2) : KeptR qu (caRequest mb ca modes run s) := by
  unfold caRequest
  refine request_kept hg (fun _ s h => ?_)
  repeat' split
  · exact h
  · exact h
  · exact hr s h

theorem execCaCreate_kept {mb : Mb} {ca : Nat} {chan : Nat} {cakGslot : Nat} {s : State} (hg : Kept qu s) :
    KeptR qu (execCaCreate mb ca chan cakGslot s) := by
  unfold execCaCreate
  repeat' first
    | with_reducible assumption | extract_lets | with_reducible apply keptR_next | with_reducible apply touch_kept
    | with_reducible apply done_kept | with_reducible apply setChan_kept | with_reducible apply placeMka_kept
    | with_reducible apply tieCa_kept | with_reducible apply setAttr_kept | with_reducible apply setCa_kept
    | with_reducible apply draw_kept | with_reducible apply deny_kept | with_reducible (refine caRequest_kept ?_ (fun _ _ => ?_)) | split
    | with_reducible (refine kept_snd (by with_reducible assumption) ?_) | with_reducible (refine kept_mk ?_ rfl rfl rfl)

theorem execCaRekey_kept {mb : Mb} {ca : Nat} {offsetMs : Nat} {s : State} (hg : Kept qu s) : KeptR qu (execCaRekey mb ca offsetMs s) := by
  unfold execCaRekey
  repeat' first
    | with_reducible assumption | extract_lets | with_reducible apply keptR_next | with_reducible apply rekeyFrom_kept
    | with_reducible apply done_kept | with_reducible apply deny_kept | with_reducible (refine caRequest_kept ?_ (fun _ _ => ?_)) | split
    | with_reducible (refine kept_snd (by with_reducible assumption) ?_) | with_reducible (refine kept_mk ?_ rfl rfl rfl)

theorem execCaDelete_kept {mb : Mb} {ca : Nat} {s : State} (hg : Kept qu s) : KeptR qu (execCaDelete mb ca s) := by
  unfold execCaDelete
  repeat' first
    | with_reducible assumption | extract_lets | with_reducible (refine caRequest_kept ?_ (fun _ _ => ?_))
    | with_reducible apply touch_kept | with_reducible apply done_kept | with_reducible apply dropMka_kept
    | with_reducible (refine kept_ite ?_ ?_) | split | refine kept_mk ?_ rfl rfl rfl

theorem peersChanged_kept {ca : Nat} {s : State} (hg : Kept qu s) : Kept qu (peersChanged ca s) := by
  unfold peersChanged
  with_reducible repeat' first | assumption | apply setCa_kept | apply rekeyDue_kept | refine kept_ite ?_ ?_

theorem sakAttrs_kept {c : Nat} {n : Nat} {an : Nat} {ssciTx : Nat} {ssciRx : Nat} {s : State} (hg : Kept qu s) :
    Kept qu (sakAttrs c n an ssciTx ssciRx s) := by
  unfold sakAttrs
  repeat' first
    | with_reducible assumption | extract_lets | with_reducible apply setAttr_kept | with_reducible apply onTraffic_kept | split
    | with_reducible (refine kept_snd (by with_reducible assumption) ?_) | with_reducible (refine kept_mk ?_ rfl rfl rfl)

theorem execRekeyStart_kept {ca : Nat} {s : State} (hg : Kept qu s) : KeptR qu (execRekeyStart ca s) := by
  unfold execRekeyStart
  repeat' first
    | with_reducible assumption | extract_lets | with_reducible apply keptR_next | with_reducible apply settle_kept
    | with_reducible apply onPair_kept | with_reducible apply touch_kept | with_reducible apply onTraffic_kept
    | with_reducible apply setCa_kept | with_reducible apply installK_kept | with_reducible apply sakAttrs_kept
    | with_reducible apply readInternal_kept | with_reducible apply onKeys_kept | with_reducible apply draw_kept | split
    | with_reducible (refine kept_snd (by with_reducible assumption) ?_) | with_reducible (refine kept_mk ?_ rfl rfl rfl)

theorem endRekey_kept {ca : Nat} {s : State} (hg : Kept qu s) : Kept qu (endRekey ca s) := by
  unfold endRekey
  repeat' first
    | with_reducible assumption | extract_lets | with_reducible apply touch_kept | with_reducible apply setCa_kept
    | with_reducible apply setChan_kept | with_reducible apply activate_kept | split
    | with_reducible (refine kept_snd (by with_reducible assumption) ?_) | with_reducible (refine kept_mk ?_ rfl rfl rfl)

theorem trySwitch_kept {ca : Nat} {s : State} (hg : Kept qu s) : Kept qu (trySwitch ca s) := by
  unfold trySwitch
  with_reducible repeat' first | assumption | apply endRekey_kept | refine kept_ite ?_ ?_

theorem takeSak_kept {ca : Nat} {mi : Nat} {d : DistSak} {s : State} (hg : Kept qu s) : Kept qu (takeSak ca mi d s) := by
  unfold takeSak
  repeat' first
    | with_reducible assumption | extract_lets | with_reducible apply setCa_kept | with_reducible apply readInternal_kept
    | with_reducible apply freeVal_kept | with_reducible apply sakAttrs_kept | with_reducible apply installK_kept
    | with_reducible apply touch_kept | split | with_reducible (refine kept_snd (by with_reducible assumption) ?_)

theorem mkaTake_kept {ca : Nat} {s : State} (hg : Kept qu s) : Kept qu (mkaTake ca s).2 := by
  unfold mkaTake
  repeat' first
    | with_reducible assumption | extract_lets | with_reducible apply onTraffic_kept | with_reducible apply setDefect_kept
    | with_reducible apply inboxTake_kept | split | with_reducible (refine kept_snd (by with_reducible assumption) ?_)
    | with_reducible (refine kept_mk ?_ rfl rfl rfl)

theorem hearPeer_kept {ca : Nat} {m : Mkpdu} {s : State} (hg : Kept qu s) : Kept qu (hearPeer ca m s) := by
  unfold hearPeer
  repeat' first
    | with_reducible assumption | extract_lets | with_reducible apply trySwitch_kept | with_reducible apply takeSak_kept
    | with_reducible apply rekeyDue_kept | with_reducible apply peersChanged_kept | with_reducible apply touch_kept
    | with_reducible apply setCa_kept | split | with_reducible (refine kept_snd (by with_reducible assumption) ?_)
    | with_reducible (refine kept_mk ?_ rfl rfl rfl)

theorem execMkpduReceive_kept {ca : Nat} {link : Bool} {s : State} (hg : Kept qu s) :
    KeptR qu (execMkpduReceive ca link s) := by
  unfold execMkpduReceive
  repeat' first
    | with_reducible assumption | extract_lets | with_reducible apply keptR_next | with_reducible apply hearPeer_kept
    | with_reducible apply halt_kept
    | with_reducible apply settle_kept | with_reducible apply readInternal_kept | with_reducible apply mkaTake_kept | split
    | with_reducible (refine kept_snd (by with_reducible assumption) ?_) | with_reducible (refine kept_mk ?_ rfl rfl rfl)

theorem execMkpduSend_kept {ca : Nat} {s : State} (hg : Kept qu s) : KeptR qu (execMkpduSend ca s) := by
  unfold execMkpduSend
  repeat' first
    | with_reducible assumption | extract_lets | with_reducible apply keptR_next | with_reducible apply touch_kept
    | with_reducible apply trySwitch_kept | with_reducible apply pushMgmt_kept | with_reducible apply queueCtl_kept
    | with_reducible apply onTraffic_kept | with_reducible apply setCa_kept | with_reducible apply readInternal_kept | split
    | with_reducible (refine kept_snd (by with_reducible assumption) ?_) | with_reducible (refine kept_mk ?_ rfl rfl rfl)

theorem execPeerLifeExpire_kept {ca : Nat} {peer : Nat} {s : State} (hg : Kept qu s) : KeptR qu (execPeerLifeExpire ca peer s) := by
  unfold execPeerLifeExpire
  with_reducible repeat' first
    | assumption | apply keptR_next | apply trySwitch_kept | apply peersChanged_kept | apply touch_kept | apply setCa_kept
    | refine kept_ite ?_ ?_

theorem execRekeyInterval_kept {ca : Nat} {s : State} (hg : Kept qu s) : KeptR qu (execRekeyInterval ca s) := by
  unfold execRekeyInterval
  with_reducible repeat' first | assumption | apply keptR_next | apply rekeyDue_kept | refine kept_ite ?_ ?_

theorem onLease_kept {f : State → State} {s : State} (hg : Kept qu s) (hf : ∀ s, Kept qu s → Kept qu (f s)) :
    Kept qu (onLease f s) := by
  unfold onLease
  split
  · exact hg
  · exact hf _ hg

theorem onMessage_kept {f : State → State} {s : State} (hg : Kept qu s) (hf : ∀ s, Kept qu s → Kept qu (f s)) :
    KeptR qu (onMessage f s) := by
  unfold onMessage
  show Kept qu _
  split
  · exact hf _ (setDefect_kept hg)
  · exact hg

theorem freshPair_kept {st : PairState} {lease : Lease} {s : State} (hg : Kept qu s) : Kept qu (freshPair st lease s) := by
  unfold freshPair
  repeat' first
    | with_reducible assumption | refine kept_mk ?_ rfl rfl rfl

theorem execPairBind_kept {mb : Mb} {addr : Nat} {colour : Nat} {s : State} (hg : Kept qu s) :
    KeptR qu (execPairBind mb addr colour s) := by
  unfold execPairBind
  repeat' first
    | with_reducible assumption | extract_lets | with_reducible (refine request_kept ?_ (fun _ _ _ => ?_))
    | with_reducible (refine withBuffer_kept ?_ (fun _ _ _ => ?_)) | with_reducible apply deny_kept | with_reducible apply onNvm_kept
    | with_reducible apply startMate_kept | with_reducible apply freshPair_kept | with_reducible apply reach_kept | split
    | with_reducible (refine kept_snd (by with_reducible assumption) ?_)

theorem execPairUnbind_kept {mb : Mb} {s : State} (hg : Kept qu s) : KeptR qu (execPairUnbind mb s) := by
  unfold execPairUnbind
  repeat' first
    | with_reducible assumption | with_reducible (refine request_kept ?_ (fun _ _ _ => ?_)) | with_reducible apply done_kept
    | with_reducible apply stopMate_kept | with_reducible apply freshPair_kept | with_reducible apply onNvm_kept | split

theorem execPairSolo_kept {mb : Mb} {s : State} (hg : Kept qu s) : KeptR qu (execPairSolo mb s) := by
  unfold execPairSolo
  repeat' first
    | with_reducible assumption | with_reducible (refine request_kept ?_ (fun _ _ _ => ?_)) | with_reducible apply deny_kept
    | with_reducible apply done_kept | with_reducible apply takeLease_kept | with_reducible apply onPair_kept | split

theorem execPairHandover_kept {mb : Mb} {s : State} (hg : Kept qu s) : KeptR qu (execPairHandover mb s) := by
  unfold execPairHandover
  repeat' first
    | with_reducible assumption | with_reducible (refine request_kept ?_ (fun _ _ _ => ?_)) | with_reducible apply deny_kept
    | with_reducible apply startHandover_kept | split

theorem execPairPart_kept {part : Nat} {total : Nat} {data : Bytes} {s : State} (hg : Kept qu s) :
    KeptR qu (execPairPart part total data s) := by
  unfold execPairPart
  with_reducible repeat' first | assumption | refine onMessage_kept ?_ (fun _ _ => ?_) | apply takePart_kept

theorem execPairConfirm_kept {tag : Nat} {s : State} (hg : Kept qu s) : KeptR qu (execPairConfirm tag s) := by
  unfold execPairConfirm
  with_reducible repeat' first | assumption | refine onMessage_kept ?_ (fun _ _ => ?_) | apply takeConfirm_kept

theorem execPairingRetry_kept {s : State} (hg : Kept qu s) : KeptR qu (execPairingRetry s) := by
  unfold execPairingRetry
  with_reducible repeat' first | assumption | apply keptR_next | apply beginExchange_kept | refine kept_ite ?_ ?_

theorem execLeaseRenewSend_kept {s : State} (hg : Kept qu s) : KeptR qu (execLeaseRenewSend s) := by
  unfold execLeaseRenewSend
  with_reducible repeat' first | assumption | apply keptR_next | apply onPair_kept | apply mate_kept | refine kept_ite ?_ ?_

theorem execLeaseRenew_kept {seq : Nat} {echo : Nat} {s : State} (hg : Kept qu s) : KeptR qu (execLeaseRenew seq echo s) := by
  unfold execLeaseRenew
  with_reducible repeat' first
    | assumption | refine onMessage_kept ?_ (fun _ _ => ?_) | refine onLease_kept ?_ (fun _ _ => ?_) | apply onPair_kept
    | apply mate_kept | refine kept_ite ?_ ?_

theorem execLeaseAck_kept {seq : Nat} {st : Nat} {s : State} (hg : Kept qu s) : KeptR qu (execLeaseAck seq st s) := by
  unfold execLeaseAck
  repeat' first
    | with_reducible assumption | extract_lets | with_reducible (refine onMessage_kept ?_ (fun _ _ => ?_))
    | with_reducible (refine onLease_kept ?_ (fun _ _ => ?_))
    | with_reducible apply onPair_kept | split

theorem fence_kept {s : State} (hg : Kept qu s) : Kept qu (fence s) := by
  unfold fence
  repeat' first
    | with_reducible assumption | extract_lets | with_reducible apply discardQueued_kept | with_reducible apply dropHandover_kept
    | with_reducible apply standDown_kept | with_reducible apply raise_kept | split
    | with_reducible (refine kept_snd (by with_reducible assumption) ?_) | with_reducible (refine kept_mk ?_ rfl rfl rfl)

theorem execLeaseExpire_kept {s : State} (hg : Kept qu s) : KeptR qu (execLeaseExpire s) := by
  unfold execLeaseExpire
  with_reducible repeat' first | assumption | apply keptR_next | apply fence_kept | refine kept_ite ?_ ?_

theorem execLeaseTakeover_kept {s : State} (hg : Kept qu s) : KeptR qu (execLeaseTakeover s) := by
  unfold execLeaseTakeover
  with_reducible repeat' first | assumption | apply keptR_next | apply settle_kept | apply takeLease_kept | refine kept_ite ?_ ?_

theorem execLeaseFirstTake_kept {s : State} (hg : Kept qu s) : KeptR qu (execLeaseFirstTake s) := by
  unfold execLeaseFirstTake
  repeat' first
    | with_reducible assumption | extract_lets | with_reducible apply keptR_next | with_reducible apply takeLease_kept
    | with_reducible apply sendAll_kept | with_reducible apply settle_kept | with_reducible apply updateReady_kept | split
    | with_reducible (refine kept_snd (by with_reducible assumption) ?_) | with_reducible (refine kept_mk ?_ rfl rfl rfl)

theorem execHalting_kept {_cause : Nat} {s : State} (hg : Kept qu s) : KeptR qu (execHalting _cause s) := by
  unfold execHalting
  with_reducible repeat' first
    | assumption | refine onMessage_kept ?_ (fun _ _ => ?_) | apply onPair_kept | apply losePartner_kept | apply takeLease_kept
    | refine kept_ite ?_ ?_

theorem sendMarks_kept {s : State} (hg : Kept qu s) : Kept qu (sendMarks s) := by
  unfold sendMarks
  repeat' first
    | with_reducible assumption | with_reducible apply mate_kept | with_reducible apply onPair_kept | split

theorem sendAllMarks_kept {n : Nat} {s : State} (hg : Kept qu s) : Kept qu (sendAllMarks n s) := by
  induction n generalizing s with
  | zero => exact hg
  | succ n ih =>
    unfold sendAllMarks
    split
    · exact hg
    · exact ih (sendMarks_kept hg)

theorem execWatermarkSend_kept {s : State} (hg : Kept qu s) : KeptR qu (execWatermarkSend s) := by
  unfold execWatermarkSend
  with_reducible repeat' first | assumption | apply keptR_next | apply sendMarks_kept | refine kept_ite ?_ ?_

theorem execWatermark_kept {batch : Nat} {entries : Marks} {s : State} (hg : Kept qu s) : KeptR qu (execWatermark batch entries s) := by
  unfold execWatermark
  with_reducible repeat' first
    | assumption | refine onMessage_kept ?_ (fun _ _ => ?_) | apply onPair_kept | apply mate_kept | refine kept_ite ?_ ?_

theorem endHandover_kept {s : State} (hg : Kept qu s) : Kept qu (endHandover s) := by
  unfold endHandover
  repeat' first
    | with_reducible assumption | extract_lets | with_reducible apply answer_kept | with_reducible apply mate_kept
    | with_reducible apply onPair_kept | with_reducible apply standDown_kept | split
    | with_reducible (refine kept_snd (by with_reducible assumption) ?_) | with_reducible (refine kept_mk ?_ rfl rfl rfl)

theorem execHandoverDrainEnd_kept {s : State} (hg : Kept qu s) : KeptR qu (execHandoverDrainEnd s) := by
  unfold execHandoverDrainEnd
  repeat' first
    | with_reducible assumption | extract_lets | with_reducible apply keptR_next | with_reducible apply onPair_kept
    | with_reducible apply endHandover_kept | with_reducible apply settle_kept | with_reducible apply sendAllMarks_kept
    | with_reducible apply discardQueued_kept | split | with_reducible (refine kept_snd (by with_reducible assumption) ?_)
    | with_reducible (refine kept_mk ?_ rfl rfl rfl)

theorem execWmAck_kept {batch : Nat} {s : State} (hg : Kept qu s) : KeptR qu (execWmAck batch s) := by
  unfold execWmAck
  repeat' first
    | with_reducible assumption | with_reducible (refine onMessage_kept ?_ (fun _ _ => ?_)) | with_reducible apply onPair_kept
    | with_reducible apply settle_kept | with_reducible apply endHandover_kept | split

theorem execHandover_kept {stage : Nat} {s : State} (hg : Kept qu s) : KeptR qu (execHandover stage s) := by
  unfold execHandover
  with_reducible repeat' first
    | assumption | refine kept_foldl ?_ (fun _ _ _ => ?_) | refine onMessage_kept ?_ (fun _ _ => ?_) | apply wake_kept | apply settle_kept
    | apply takeLease_kept | refine kept_ite ?_ ?_

theorem invalidate_kept {general : Bool} {n : Nat} {s : State} (hg : Kept qu s) : Kept qu (invalidate general n s) := by
  unfold invalidate
  repeat' first
    | with_reducible assumption | extract_lets | with_reducible apply freshSa_kept | with_reducible apply putK_kept
    | with_reducible apply putG_kept | with_reducible apply retie_kept | split
    | with_reducible (refine kept_snd (by with_reducible assumption) ?_) | with_reducible (refine kept_mk ?_ rfl rfl rfl)

theorem takeKey_kept {general : Bool} {n : Nat} {key : Key} {salt : Salt} {word : W64} {s : State} (hg : Kept qu s) :
    Kept qu (takeKey general n key salt word s).2 := by
  unfold takeKey
  repeat' first
    | with_reducible assumption | extract_lets | with_reducible apply installK_kept | with_reducible apply destroyK_kept
    | with_reducible apply invalidate_kept | with_reducible apply installPersisted_kept | with_reducible apply erasePersist_kept
    | with_reducible apply destroyG_kept | split | with_reducible (refine kept_snd (by with_reducible assumption) ?_)
    | with_reducible (refine kept_mk ?_ rfl rfl rfl)

theorem takeSlot_kept {general : Bool} {n : Nat} {body : Bytes} {s : State} (hg : Kept qu s) : Kept qu (takeSlot general n body s).2 := by
  unfold takeSlot
  repeat' first
    | with_reducible assumption | extract_lets | with_reducible apply takeKey_kept | with_reducible apply invalidate_kept
    | with_reducible apply readInternal_kept | split | with_reducible (refine kept_snd (by with_reducible assumption) ?_)
    | with_reducible (refine kept_mk ?_ rfl rfl rfl)

theorem takeChan_kept {c : Nat} {l : List (Nat × Nat)} {s : State} (hg : Kept qu s) : Kept qu (takeChan c l s) := by
  unfold takeChan
  with_reducible repeat' first | assumption | apply freeChan_kept | apply setChan_kept | refine kept_ite ?_ ?_

theorem takePort_kept {q : Nat} {s0 : State} {s : State} (hg : Kept qu s) : Kept qu (takePort q s0 s) := by
  unfold takePort
  repeat' first
    | with_reducible assumption | extract_lets | with_reducible apply bringUp_kept | with_reducible apply portDown_kept
    | with_reducible apply onLive_kept | split | with_reducible (refine kept_snd (by with_reducible assumption) ?_)
    | with_reducible (refine kept_mk ?_ rfl rfl rfl)

theorem takeCa_kept {ca : Nat} {s : State} (hg : Kept qu s) : Kept qu (takeCa ca s) := by
  unfold takeCa
  with_reducible repeat' first | assumption | apply setCa_kept | apply untieCa_kept | apply tieCa_kept | refine kept_ite ?_ ?_

theorem takeObject_kept {o : Nat} {body : Bytes} {s : State} (hg : Kept qu s) : Kept qu (takeObject o body s).2 := by
  unfold takeObject
  refine kept2_ite hg (kept2_ite (takeSlot_kept hg) (kept2_ite (takeSlot_kept hg) (kept2_ite (setCa_kept hg)
    (kept2_ite hg (kept2_ite hg (kept2_ite hg ?_))))))
  extract_lets l keep s1
  have h1 : Kept qu s1 := putAll_kept hg
  clear_value s1
  exact kept_ite (takeChan_kept h1) (kept_ite (takePort_kept h1) (kept_ite (takePort_kept h1) (kept_ite (takeCa_kept h1) (kept_ite (onTraffic_kept h1) h1))))

theorem execMirror_kept {o version : Nat} {body : Bytes} {s : State} (hg : Kept qu s) : KeptR qu (execMirror o version body s) := by
  unfold execMirror
  refine onMessage_kept hg (fun s h => onLease_kept h (fun s h => ?_))
  split
  · exact h
  · extract_lets held r s1 s2
    have hr : Kept qu r.2 := by
      show Kept qu (if version ≤ held then (Status.ok, s) else takeObject o body s).2
      split
      · exact h
      · exact takeObject_kept h
    clear_value r
    have h1 : Kept qu s1 := by
      show Kept qu (if version ≤ held ∨ r.1 ≠ .ok then r.2 else onPair (fun p => { p with heldVer := tset 0 p.heldVer o version }) r.2)
      split
      · exact hr
      · exact onPair_kept hr
    exact settle_kept (mate_kept h1)

theorem sakDone_kept {o : Nat} {s : State} (hg : Kept qu s) : Kept qu (sakDone o s) := by
  unfold sakDone
  with_reducible repeat' first | assumption | apply onPair_kept

theorem execMirrorAck_kept {object : Nat} {version : Nat} {_status : Nat} {s : State} (hg : Kept qu s) :
    KeptR qu (execMirrorAck object version _status s) := by
  unfold execMirrorAck
  with_reducible repeat' first
    | assumption | refine onMessage_kept ?_ (fun _ _ => ?_) | refine onLease_kept ?_ (fun _ _ => ?_) | apply onPair_kept
    | apply sakDone_kept | apply mirrorDone_kept
    | apply settle_kept | refine kept_ite ?_ ?_

theorem execMirrorAckTimeout_kept {object : Nat} {s : State} (hg : Kept qu s) : KeptR qu (execMirrorAckTimeout object s) := by
  unfold execMirrorAckTimeout
  with_reducible repeat' first
    | assumption | apply keptR_next | apply onPair_kept | apply settle_kept | apply sakDone_kept | apply mirrorDone_kept
    | refine kept_ite ?_ ?_

theorem execState_kept {md : Nat} {ready : Nat} {spares : Nat} {conds : Nat} {s : State} (hg : Kept qu s) :
    KeptR qu (execState md ready spares conds s) := by
  unfold execState
  with_reducible repeat' first | assumption | refine onMessage_kept ?_ (fun _ _ => ?_) | apply settle_kept | apply onPair_kept

theorem execTimeCmpSend_kept {s : State} (hg : Kept qu s) : KeptR qu (execTimeCmpSend s) := by
  unfold execTimeCmpSend
  repeat' first
    | with_reducible assumption | extract_lets | with_reducible apply keptR_next | with_reducible apply mate_kept
    | with_reducible apply onPair_kept | split | with_reducible (refine kept_snd (by with_reducible assumption) ?_)
    | with_reducible (refine kept_mk ?_ rfl rfl rfl)

theorem execTimeCmp_kept {seconds : Nat} {ns : Nat} {fraction : Nat} {s : State} (hg : Kept qu s) :
    KeptR qu (execTimeCmp seconds ns fraction s) := by
  unfold execTimeCmp
  repeat' first
    | with_reducible assumption | extract_lets | with_reducible apply keptR_next | with_reducible apply countFault_kept
    | with_reducible apply logFault_kept | with_reducible apply settle_kept | with_reducible apply onPair_kept
    | with_reducible apply freeVal_kept | with_reducible (refine onMessage_kept ?_ (fun _ _ => ?_)) | split
    | with_reducible (refine kept_snd (by with_reducible assumption) ?_) | with_reducible (refine kept_mk ?_ rfl rfl rfl)

theorem execCalRead_kept {mb : Mb} {addr : Nat} {colour : Nat} {s : State} (hg : Kept qu s) : KeptR qu (execCalRead mb addr colour s) := by
  unfold execCalRead
  with_reducible repeat' first | assumption | refine request_kept ?_ (fun _ _ _ => ?_) | apply intoBuffer_kept

theorem storeCal_kept {b : Bytes} {s : State} (hg : Kept qu s) : Kept qu (storeCal b s) := by
  unfold storeCal
  with_reducible repeat' first | assumption | refine kept_foldl ?_ (fun _ _ _ => ?_) | apply setAttr_kept | apply onNvm_kept

theorem execCalWrite_kept {mb : Mb} {addr : Nat} {colour : Nat} {s : State} (hg : Kept qu s) :
    KeptR qu (execCalWrite mb addr colour s) := by
  unfold execCalWrite
  repeat' first
    | with_reducible assumption | with_reducible (refine request_kept ?_ (fun _ _ _ => ?_))
    | with_reducible (refine withBuffer_kept ?_ (fun _ _ _ => ?_)) | with_reducible apply done_kept | with_reducible apply storeCal_kept
    | with_reducible apply deny_kept | split

theorem execCalHbmTest_kept {mb : Mb} {failing : Met NatList Bool} {s : State} (hg : Kept qu s) :
    KeptR qu (execCalHbmTest mb failing s) := by
  unfold execCalHbmTest
  refine request_kept hg (fun _ s h => ?_)
  repeat' split
  · exact h
  · exact halt_kept h
  · exact ⟨h.1, Memory.wf_filter _ h.2.1, h.2.2⟩

theorem execCalSerdes_kept {mb : Mb} {q : Nat} {s : State} (hg : Kept qu s) : KeptR qu (execCalSerdes mb q s) := by
  unfold execCalSerdes
  repeat' first
    | with_reducible assumption | with_reducible (refine request_kept ?_ (fun _ _ _ => ?_)) | with_reducible apply deny_kept
    | with_reducible apply reach_kept | with_reducible apply done_kept | split
    | with_reducible (refine kept_snd (by with_reducible assumption) ?_)

theorem execLogTamper_kept {mb : Mb} {first : Nat} {count : Nat} {s : State} (hg : Kept qu s) :
    KeptR qu (execLogTamper mb first count s) := by
  unfold execLogTamper
  repeat' first
    | with_reducible assumption | with_reducible (refine request_kept ?_ (fun _ _ _ => ?_)) | with_reducible apply deny_kept
    | with_reducible apply done_kept | split

theorem execLogFaults_kept {mb : Mb} {first : Nat} {count : Nat} {s : State} (hg : Kept qu s) :
    KeptR qu (execLogFaults mb first count s) := by
  unfold execLogFaults
  repeat' first
    | with_reducible assumption | with_reducible (refine request_kept ?_ (fun _ _ _ => ?_)) | with_reducible apply deny_kept
    | with_reducible apply done_kept | split

theorem execLaReset_kept {mb : Mb} {queue : Nat} {s : State} (hg : Kept qu s) : KeptR qu (execLaReset mb queue s) := by
  unfold execLaReset
  repeat' first
    | with_reducible assumption | with_reducible (refine request_kept ?_ (fun _ _ _ => ?_)) | split | refine kept_mk ?_ rfl rfl rfl

theorem execPerfSumpRead_kept {mb : Mb} {table : Nat} {addr : Nat} {colour : Nat} {s : State} (hg : Kept qu s) :
    KeptR qu (execPerfSumpRead mb table addr colour s) := by
  unfold execPerfSumpRead
  repeat' first
    | with_reducible assumption | with_reducible (refine request_kept ?_ (fun _ _ _ => ?_)) | with_reducible apply deny_kept
    | with_reducible apply intoBuffer_kept | split

theorem execDpClaim_kept {mb : Mb} {s : State} (hg : Kept qu s) : KeptR qu (execDpClaim mb s) := by
  unfold execDpClaim
  repeat' first
    | with_reducible assumption | with_reducible (refine request_kept ?_ (fun _ _ _ => ?_)) | with_reducible apply deny_kept
    | with_reducible apply done_kept | with_reducible apply onDp_kept | split

theorem execDpRelease_kept {mb : Mb} {s : State} (hg : Kept qu s) : KeptR qu (execDpRelease mb s) := by
  unfold execDpRelease
  repeat' first
    | with_reducible assumption | with_reducible (refine request_kept ?_ (fun _ _ _ => ?_)) | with_reducible apply done_kept
    | with_reducible apply onDp_kept | with_reducible apply deny_kept | split

end Sys2Proof.Machine
end

