-- ==== Sys2Proof/Laws/InvariantTraffic.lean ====
section
/-! SUPPORT. Operations that keep `StepInv` and the queue: power, admission, the Pump, the clusters and the egress side. -/

namespace Sys2Proof.Machine

open Sys2Proof Sys2Proof.Safety

variable {qu : List Instr}

theorem setResult_kept {n : Nat} {r : Nat} {s : State} (hg : Kept qu s) : Kept qu (setResult n r s) := by
  unfold setResult
  with_reducible repeat' first | assumption | apply setDom_kept

theorem sleepReq_kept {n : Nat} {target : DomState} {woken : Bool} {s : State} (hg : Kept qu s) : Kept qu (sleepReq n target woken s) := by
  unfold sleepReq
  with_reducible repeat' first | assumption | apply setResult_kept | apply raise_kept | apply setDom_kept | refine kept_ite ?_ ?_

theorem putWake_kept {n : Nat} {on : Bool} {s : State} (hg : Kept qu s) : Kept qu (putWake n on s) := by
  unfold putWake
  with_reducible repeat' first | assumption | apply setDom_kept

theorem execPmuDomReqRet_kept {pf : Pf} {dom : DomNo} {cmdWake : Bool} {wake : Bool} {s : State} (hg : Kept qu s) :
    KeptR qu (execPmuDomReqRet pf dom cmdWake wake s) := by
  unfold execPmuDomReqRet
  with_reducible repeat' first | assumption | apply keptR_next | apply sleepReq_kept | apply putWake_kept | refine kept_ite ?_ ?_

theorem execPmuDomReqOff_kept {pf : Pf} {dom : DomNo} {cmdWake : Bool} {wake : Bool} {s : State} (hg : Kept qu s) :
    KeptR qu (execPmuDomReqOff pf dom cmdWake wake s) := by
  unfold execPmuDomReqOff
  with_reducible repeat' first | assumption | apply keptR_next | apply sleepReq_kept | apply putWake_kept | refine kept_ite ?_ ?_

theorem wakeReq_kept {n : Nat} {s : State} (hg : Kept qu s) : Kept qu (wakeReq n s) := by
  unfold wakeReq
  repeat' first
    | with_reducible assumption | extract_lets | with_reducible apply setResult_kept | with_reducible apply setDom_kept
    | with_reducible apply wake_kept | split

theorem execPmuDomReqOn_kept {pf : Pf} {dom : DomNo} {cmdWake : Bool} {s : State} (hg : Kept qu s) :
    KeptR qu (execPmuDomReqOn pf dom cmdWake s) := by
  unfold execPmuDomReqOn
  with_reducible repeat' first | assumption | apply keptR_next | apply wakeReq_kept | apply putWake_kept | refine kept_ite ?_ ?_

theorem execDomainChangeDone_kept {dom : DomNo} {s : State} (hg : Kept qu s) : KeptR qu (execDomainChangeDone dom s) := by
  unfold execDomainChangeDone
  with_reducible repeat' first | assumption | apply keptR_next | apply setDom_kept | refine kept_ite ?_ ?_

theorem domLost_kept {n : Nat} {s : State} (hg : Kept qu s) : Kept qu (domLost n s) := by
  unfold domLost
  with_reducible repeat' first
    | assumption | refine kept_foldl ?_ (fun _ _ _ => ?_) | apply setPort_kept | apply setTsq_kept | apply setWh_kept | apply stopMate_kept
    | refine kept_ite ?_ ?_

theorem execDomainWakeDone_kept {dom : DomNo} {s : State} (hg : Kept qu s) : KeptR qu (execDomainWakeDone dom s) := by
  unfold execDomainWakeDone
  repeat' first
    | with_reducible assumption | extract_lets | with_reducible apply keptR_next | with_reducible apply bringUp_kept
    | with_reducible apply startMate_kept | with_reducible apply setRole_kept | with_reducible apply domLost_kept
    | with_reducible apply setDom_kept | with_reducible (refine kept_foldl ?_ (fun _ _ _ => ?_)) | split
    | with_reducible (refine kept_snd (by with_reducible assumption) ?_) | with_reducible (refine kept_mk ?_ rfl rfl rfl)

theorem takeReadings_kept {l : Readings} {s : State} (hg : Kept qu s) : Kept qu (takeReadings l s) := by
  unfold takeReadings
  with_reducible repeat' first | assumption | refine kept_foldl ?_ (fun _ _ _ => ?_) | apply setCluster_kept | refine kept_ite ?_ ?_

theorem lowerPace_kept {p : Nat} {s : State} (hg : Kept qu s) : Kept qu (lowerPace p s) := by
  unfold lowerPace
  with_reducible repeat' first | assumption | apply onPmu_kept | refine kept_ite ?_ ?_

theorem followPace_kept {n : Nat} {s : State} (hg : Kept qu s) : Kept qu (followPace n s) := by
  induction n generalizing s with
  | zero => exact hg
  | succ n ih =>
    rw [followPace]
    split
    · exact hg
    · exact kept_ite (ih (setPDisp_kept (onPmu_kept hg))) hg

theorem follow_kept {s : State} (hg : Kept qu s) : Kept qu (follow s) := by
  unfold follow
  repeat' first
    | with_reducible assumption | extract_lets | with_reducible apply followPace_kept | split
    | with_reducible (refine kept_snd (by with_reducible assumption) ?_) | with_reducible (refine kept_mk ?_ rfl rfl rfl)

theorem takePace_kept {p : Nat} {s : State} (hg : Kept qu s) : Kept qu (takePace p s) := by
  unfold takePace
  repeat' first
    | with_reducible assumption | extract_lets | with_reducible apply onPmu_kept | with_reducible apply setPDisp_kept
    | with_reducible apply lowerPace_kept | split | with_reducible (refine kept_snd (by with_reducible assumption) ?_)
    | with_reducible (refine kept_mk ?_ rfl rfl rfl)

theorem execPaceDispFollow_kept {s : State} (hg : Kept qu s) : KeptR qu (execPaceDispFollow s) := by
  unfold execPaceDispFollow
  repeat' first
    | with_reducible assumption | extract_lets | with_reducible apply keptR_next | with_reducible apply follow_kept | split
    | with_reducible (refine kept_snd (by with_reducible assumption) ?_) | with_reducible (refine kept_mk ?_ rfl rfl rfl)

theorem setTier_kept {fresh : Bool} {s : State} (hg : Kept qu s) : Kept qu (setTier fresh s) := by
  unfold setTier
  with_reducible repeat' first | assumption | apply onPmu_kept | apply countFix_kept | apply raise_kept | refine kept_ite ?_ ?_

theorem closeRound_kept {s : State} (hg : Kept qu s) : Kept qu (closeRound s) := by
  unfold closeRound
  repeat' first
    | with_reducible assumption | extract_lets | with_reducible apply onPmu_kept | split
    | with_reducible (refine kept_snd (by with_reducible assumption) ?_) | with_reducible (refine kept_mk ?_ rfl rfl rfl)

theorem execPaceLimitWrite_kept {pf : Pf} {value : W32} {s : State} (hg : Kept qu s) : KeptR qu (execPaceLimitWrite pf value s) := by
  unfold execPaceLimitWrite
  repeat' first
    | with_reducible assumption | extract_lets | with_reducible apply keptR_next | with_reducible apply lowerPace_kept
    | with_reducible apply recount_kept | with_reducible apply setTier_kept | with_reducible apply onPmu_kept | split
    | with_reducible (refine kept_snd (by with_reducible assumption) ?_) | with_reducible (refine kept_mk ?_ rfl rfl rfl)

theorem needCluster_kept {c : Nat} {s : State} (hg : Kept qu s) : Kept qu (needCluster c s) := by
  unfold needCluster
  with_reducible repeat' first | assumption | apply setRole_kept | apply wake_kept | refine kept_ite ?_ ?_

theorem upshift_kept {s : State} (hg : Kept qu s) : Kept qu (upshift s) := by
  unfold upshift
  with_reducible repeat' first
    | assumption | refine kept_foldl ?_ (fun _ _ _ => ?_) | apply setDom_kept | apply needCluster_kept | refine kept_ite ?_ ?_

theorem toIdle_kept {c : Nat} {s : State} (hg : Kept qu s) : Kept qu (toIdle c s) := by
  unfold toIdle
  repeat' first
    | with_reducible assumption | extract_lets | with_reducible apply recount_kept | with_reducible apply emptied_kept
    | with_reducible apply setCluster_kept | split | with_reducible (refine kept_snd (by with_reducible assumption) ?_)
    | with_reducible (refine kept_mk ?_ rfl rfl rfl)

theorem execDownshiftEval_kept {loads : Loads} {s : State} (hg : Kept qu s) : KeptR qu (execDownshiftEval loads s) := by
  unfold execDownshiftEval
  repeat' first
    | with_reducible assumption | extract_lets | with_reducible apply keptR_next | with_reducible apply toIdle_kept
    | with_reducible apply onPmu_kept | with_reducible (refine kept_foldl ?_ (fun _ _ _ => ?_)) | split
    | with_reducible (refine kept_snd (by with_reducible assumption) ?_) | with_reducible (refine kept_mk ?_ rfl rfl rfl)

theorem avsFailed_kept {s : State} (hg : Kept qu s) : Kept qu (avsFailed s) := by
  unfold avsFailed
  repeat' first
    | with_reducible assumption | extract_lets | with_reducible apply onPmu_kept | with_reducible apply countFault_kept
    | with_reducible apply logFault_kept | split | with_reducible (refine kept_snd (by with_reducible assumption) ?_)
    | with_reducible (refine kept_mk ?_ rfl rfl rfl)

theorem avsIssue_kept {mv : Nat} {busOk : Bool} {s : State} (hg : Kept qu s) : Kept qu (avsIssue mv busOk s) := by
  unfold avsIssue
  with_reducible repeat' first | assumption | apply avsFailed_kept | apply emit_kept | apply onPmu_kept | refine kept_ite ?_ ?_

theorem avsBegin_kept {mv : Nat} {busOk : Bool} {s : State} (hg : Kept qu s) : Kept qu (avsBegin mv busOk s) := by
  unfold avsBegin
  with_reducible repeat' first | assumption | apply avsIssue_kept | apply lowerPace_kept | apply onPmu_kept | refine kept_ite ?_ ?_

theorem avsAsk_kept {mv : Nat} {busOk : Bool} {s : State} (hg : Kept qu s) : Kept qu (avsAsk mv busOk s) := by
  unfold avsAsk
  with_reducible repeat' first | assumption | apply onPmu_kept | apply avsBegin_kept | refine kept_ite ?_ ?_

theorem execAvsTargetWrite_kept {pf : Pf} {value : W32} {busOk : Bool} {s : State} (hg : Kept qu s) :
    KeptR qu (execAvsTargetWrite pf value busOk s) := by
  unfold execAvsTargetWrite
  with_reducible repeat' first | assumption | apply keptR_next | apply onPmu_kept | apply avsAsk_kept | refine kept_ite ?_ ?_

theorem avsTakeNext_kept {s : State} (hg : Kept qu s) : Kept qu (avsTakeNext s) := by
  unfold avsTakeNext
  repeat' first
    | with_reducible assumption | extract_lets | with_reducible apply avsBegin_kept | with_reducible apply onPmu_kept | split
    | with_reducible (refine kept_snd (by with_reducible assumption) ?_) | with_reducible (refine kept_mk ?_ rfl rfl rfl)

theorem execAvsLowerIssue_kept {busOk : Bool} {s : State} (hg : Kept qu s) : KeptR qu (execAvsLowerIssue busOk s) := by
  unfold execAvsLowerIssue
  repeat' first
    | with_reducible assumption | extract_lets | with_reducible apply keptR_next | with_reducible apply avsIssue_kept
    | with_reducible apply avsTakeNext_kept | with_reducible apply follow_kept | split
    | with_reducible (refine kept_snd (by with_reducible assumption) ?_) | with_reducible (refine kept_mk ?_ rfl rfl rfl)

theorem execAvsConfirm_kept {s : State} (hg : Kept qu s) : KeptR qu (execAvsConfirm s) := by
  unfold execAvsConfirm
  repeat' first
    | with_reducible assumption | extract_lets | with_reducible apply keptR_next | with_reducible apply onPmu_kept
    | with_reducible apply avsTakeNext_kept | split | with_reducible (refine kept_snd (by with_reducible assumption) ?_)
    | with_reducible (refine kept_mk ?_ rfl rfl rfl)

theorem execAvsTelemetry_kept {vout : Nat} {iout : Nat} {temp : Nat} {busOk : Bool} {s : State} (hg : Kept qu s) :
    KeptR qu (execAvsTelemetry vout iout temp busOk s) := by
  unfold execAvsTelemetry
  repeat' first
    | with_reducible assumption | extract_lets | with_reducible apply keptR_next | with_reducible apply onPmu_kept
    | with_reducible apply countFault_kept | with_reducible apply logFault_kept | split
    | with_reducible (refine kept_snd (by with_reducible assumption) ?_) | with_reducible (refine kept_mk ?_ rfl rfl rfl)

theorem track_kept {p : Nat} {s : State} (hg : Kept qu s) : Kept qu (track p s) := by
  unfold track
  repeat' first
    | with_reducible assumption | extract_lets | with_reducible apply avsAsk_kept | with_reducible apply onPmu_kept | split

theorem execMeterRound_kept {readings : Readings} {s : State} (hg : Kept qu s) : KeptR qu (execMeterRound readings s) := by
  unfold execMeterRound
  repeat' first
    | with_reducible assumption | extract_lets | with_reducible apply keptR_next | with_reducible apply track_kept
    | with_reducible apply onGlb_kept | with_reducible apply takePace_kept | with_reducible apply recount_kept
    | with_reducible apply closeRound_kept | with_reducible apply upshift_kept | with_reducible apply setTier_kept
    | with_reducible apply takeReadings_kept | with_reducible apply countFix_kept | with_reducible apply follow_kept | split
    | with_reducible (refine kept_snd (by with_reducible assumption) ?_) | with_reducible (refine kept_mk ?_ rfl rfl rfl)

theorem execSagWarn_kept {point : Nat} {s : State} (hg : Kept qu s) : KeptR qu (execSagWarn point s) := by
  unfold execSagWarn
  repeat' first
    | with_reducible assumption | extract_lets | with_reducible apply keptR_next | with_reducible apply setPDisp_kept
    | with_reducible apply onPmu_kept | with_reducible apply countFix_kept | with_reducible apply raise_kept | split
    | with_reducible (refine kept_snd (by with_reducible assumption) ?_) | with_reducible (refine kept_mk ?_ rfl rfl rfl)

theorem execSagWarnClear_kept {s : State} (hg : Kept qu s) : KeptR qu (execSagWarnClear s) := by
  unfold execSagWarnClear
  with_reducible repeat' first | assumption | apply keptR_next | apply onPmu_kept | refine kept_ite ?_ ?_

theorem police_kept {c : Nat} {d : Dir} {n : Nat} {amber : Bool} {s : State} (hg : Kept qu s) : Kept qu (police c d n amber s).2 := by
  unfold police
  repeat' first
    | with_reducible assumption | extract_lets | with_reducible apply onTraffic_kept | split

theorem gateWait_kept {q : Nat} {c : Nat} {s : State} (hg : Kept qu s) : Kept qu (gateWait q c s).2 := by
  unfold gateWait
  repeat' first
    | with_reducible assumption | with_reducible apply freeVal_kept | split

theorem tagFor_kept {f : Frame} {s : State} (hg : Kept qu s) : Kept qu (tagFor f s).2 := by
  unfold tagFor
  repeat' first
    | with_reducible assumption | with_reducible apply onTraffic_kept | split

theorem countAccepted_kept {f : Frame} {s : State} (hg : Kept qu s) : Kept qu (countAccepted f s) := by
  unfold countAccepted
  with_reducible repeat' first
    | assumption | apply countFix_kept | apply countEv_kept | apply onTraffic_kept | apply onPmu_kept | refine kept_ite ?_ ?_

theorem enterFrame_kept {f : Frame} {s : State} (hg : Kept qu s) : Kept qu (enterFrame f s) := by
  unfold enterFrame
  repeat' first
    | with_reducible assumption | extract_lets | with_reducible apply onTraffic_kept | with_reducible apply putFrame_kept
    | with_reducible apply takeGranules_kept | split | with_reducible (refine kept_snd (by with_reducible assumption) ?_)
    | with_reducible (refine kept_mk ?_ rfl rfl rfl)

theorem reservePn_kept {c : Nat} {s : State} (hg : Kept qu s) : Kept qu (reservePn c s) := by
  unfold reservePn
  with_reducible repeat' first | assumption | apply setChan_kept | apply freeze_kept | refine kept_ite ?_ ?_

theorem accept_kept {f : Frame} {room : Room} {s : State} (hg : Kept qu s) : Kept qu (accept f room s) := by
  unfold accept
  repeat' first
    | with_reducible assumption | extract_lets | with_reducible apply reservePn_kept | with_reducible apply countAccepted_kept
    | with_reducible apply enterFrame_kept | with_reducible apply onTraffic_kept | with_reducible apply tagFor_kept | split
    | with_reducible (refine kept_snd (by with_reducible assumption) ?_) | with_reducible (refine kept_mk ?_ rfl rfl rfl)

theorem refuse_kept {r : Reason} {f : Frame} {s : State} (hg : Kept qu s) : Kept qu (refuse r f s) := by
  unfold refuse
  with_reducible repeat' first | assumption | apply sump_kept

theorem admission_kept {f : Frame} {s : State} (hg : Kept qu s) : Kept qu (admission f s) := by
  unfold admission
  repeat' first
    | with_reducible assumption | with_reducible apply refuse_kept | with_reducible apply freeze_kept | with_reducible apply gateWait_kept
    | with_reducible apply accept_kept | split | with_reducible (refine kept_snd (by with_reducible assumption) ?_)

theorem policed_kept {f : Frame} {amber : Bool} {s : State} (hg : Kept qu s) : Kept qu (policed f amber s) := by
  unfold policed
  repeat' first
    | with_reducible assumption | with_reducible apply police_kept | with_reducible apply refuse_kept | with_reducible apply admission_kept
    | split | with_reducible (refine kept_snd (by with_reducible assumption) ?_)

theorem countRx_kept {q : Nat} {n : Nat} {s : State} (hg : Kept qu s) : Kept qu (countRx q n s) := by
  unfold countRx
  with_reducible repeat' first | assumption | apply countEv_kept

theorem toRing_kept {r : Nat} {p : Punt} {s : State} (hg : Kept qu s) : Kept qu (toRing r p s) := by
  unfold toRing
  repeat' first
    | with_reducible assumption | extract_lets | with_reducible apply tick_kept | with_reducible apply setRing_kept
    | with_reducible apply takeGranules_kept | with_reducible apply sump_kept | with_reducible apply ringDrop_kept | split
    | with_reducible (refine kept_snd (by with_reducible assumption) ?_) | with_reducible (refine kept_mk ?_ rfl rfl rfl)

theorem toGydom_kept {q : Nat} {b : Bytes} {s : State} (hg : Kept qu s) : Kept qu (toGydom q b s) := by
  unfold toGydom
  repeat' first
    | with_reducible assumption | extract_lets | with_reducible apply onTraffic_kept | with_reducible apply sump_kept | split
    | with_reducible (refine kept_snd (by with_reducible assumption) ?_) | with_reducible (refine kept_mk ?_ rfl rfl rfl)

theorem divert_kept {q : Nat} {entry : Nat} {target : Nat} {b : Bytes} {s : State} (hg : Kept qu s) :
    Kept qu (divert q entry target b s) := by
  unfold divert
  repeat' first
    | with_reducible assumption | extract_lets | with_reducible apply toGydom_kept | with_reducible apply toRing_kept
    | with_reducible apply countEv_kept | split | with_reducible (refine kept_snd (by with_reducible assumption) ?_)
    | with_reducible (refine kept_mk ?_ rfl rfl rfl)

theorem classParity_kept {k : ClassKey} {s : State} (hg : Kept qu s) : Kept qu (classParity k s) := by
  unfold classParity
  repeat' first
    | with_reducible assumption | extract_lets | with_reducible apply countFault_kept | with_reducible apply logFault_kept
    | with_reducible apply onTraffic_kept | split | with_reducible (refine kept_snd (by with_reducible assumption) ?_)
    | with_reducible (refine kept_mk ?_ rfl rfl rfl)

theorem execHostFrameReceive_kept {hport : LPort} {frame : Bytes} {fcsOk : Bool} {entryOk : Bool} {s : State} (hg : Kept qu s) :
    KeptR qu (execHostFrameReceive hport frame fcsOk entryOk s) := by
  unfold execHostFrameReceive
  repeat' first
    | with_reducible assumption | extract_lets | with_reducible apply keptR_next | with_reducible apply countRx_kept
    | with_reducible apply sump_kept | with_reducible apply divert_kept | with_reducible apply classParity_kept
    | with_reducible apply refuse_kept | with_reducible apply policed_kept | split

theorem putReplay_kept {n : Nat} {x : Replay} {s : State} (hg : Kept qu s) : Kept qu (putReplay n x s) := by
  unfold putReplay
  with_reducible repeat' first | assumption | apply onTraffic_kept

theorem handOn_kept {fid : Nat} {f : Frame} {s : State} (hg : Kept qu s) : Kept qu (handOn fid f s) := by
  unfold handOn
  with_reducible repeat' first | assumption | apply putFrame_kept | apply onTraffic_kept

theorem replayStage_kept {fid : Nat} {s : State} (hg : Kept qu s) : Kept qu (replayStage fid s) := by
  unfold replayStage
  repeat' first
    | with_reducible assumption | with_reducible apply handOn_kept | with_reducible apply putFrame_kept | with_reducible apply discard_kept
    | with_reducible (refine kept_ite ?_ ?_) | split

theorem lineFrame_kept {f : Frame} {amber : Bool} {s : State} (hg : Kept qu s) : Kept qu (lineFrame f amber s) := by
  unfold lineFrame
  repeat' first
    | with_reducible assumption | extract_lets | with_reducible apply policed_kept | with_reducible apply enterFrame_kept
    | with_reducible apply replayStage_kept | with_reducible apply refuse_kept | split
    | with_reducible (refine kept_snd (by with_reducible assumption) ?_) | with_reducible (refine kept_mk ?_ rfl rfl rfl)

theorem untaggedFrame_kept {q : Nat} {n : Nat} {b : Bytes} {amber : Bool} {s : State} (hg : Kept qu s) :
    Kept qu (untaggedFrame q n b amber s) := by
  unfold untaggedFrame
  with_reducible repeat' first
    | assumption | apply sump_kept | apply onTraffic_kept | apply refuse_kept | apply lineFrame_kept | refine kept_ite ?_ ?_

theorem execLineFrameReceive_kept {lport : LPort} {frame : Bytes} {fcsOk : Bool} {s : State} (hg : Kept qu s) :
    KeptR qu (execLineFrameReceive lport frame fcsOk s) := by
  unfold execLineFrameReceive
  repeat' first
    | with_reducible assumption | extract_lets | with_reducible apply keptR_next | with_reducible apply countRx_kept
    | with_reducible apply sump_kept | with_reducible apply divert_kept | with_reducible apply untaggedFrame_kept
    | with_reducible apply refuse_kept | with_reducible apply lineFrame_kept | split

theorem execReplayRecheck_kept {fid : Nat} {s : State} (hg : Kept qu s) : KeptR qu (execReplayRecheck fid s) := by
  unfold execReplayRecheck
  repeat' first
    | with_reducible assumption | with_reducible apply keptR_next | with_reducible apply discard_kept
    | with_reducible apply replayStage_kept | split

theorem execSealedFrameClose_kept {lport : LPort} {s : State} (hg : Kept qu s) : KeptR qu (execSealedFrameClose lport s) := by
  unfold execSealedFrameClose
  repeat' first
    | with_reducible assumption | extract_lets | with_reducible apply keptR_next | with_reducible apply onRx_kept
    | with_reducible apply sump_kept | with_reducible apply refuse_kept | with_reducible apply lineFrame_kept | split

theorem execPtpSegmentReceive_kept {lport : LPort} {s : State} (hg : Kept qu s) : KeptR qu (execPtpSegmentReceive lport s) := by
  unfold execPtpSegmentReceive
  repeat' first
    | with_reducible assumption | extract_lets | with_reducible apply keptR_next | with_reducible apply inboxTake_kept
    | with_reducible apply countEv_kept | with_reducible apply setDefect_kept | with_reducible apply toRing_kept | split
    | with_reducible (refine kept_snd (by with_reducible assumption) ?_)

theorem shapeCharge_kept {n : Nat} {e : Nat} {s : State} (hg : Kept qu s) : Kept qu (shapeCharge n e s) := by
  unfold shapeCharge
  with_reducible repeat' first | assumption | apply onTraffic_kept | refine kept_ite ?_ ?_

theorem releaseFrame_kept {fid : Nat} {f : Frame} {s : State} (hg : Kept qu s) : Kept qu (releaseFrame fid f s) := by
  unfold releaseFrame
  with_reducible repeat' first
    | assumption | refine kept_foldl ?_ (fun _ _ _ => ?_) | apply discard_kept | apply handOn_kept | apply shapeCharge_kept
    | apply onTraffic_kept | refine kept_ite ?_ ?_

theorem releaseMgmt_kept {q : Nat} {m : MgmtFrame} {s : State} (hg : Kept qu s) : Kept qu (releaseMgmt q m s) := by
  unfold releaseMgmt
  repeat' first
    | with_reducible assumption | extract_lets | with_reducible apply onTraffic_kept | with_reducible apply setPort_kept
    | with_reducible apply shapeCharge_kept | split | with_reducible (refine kept_snd (by with_reducible assumption) ?_)
    | with_reducible (refine kept_mk ?_ rfl rfl rfl)

theorem release1_kept {q : Nat} {s : State} (hg : Kept qu s) : Kept qu (release1 q s) := by
  unfold release1
  repeat' first
    | with_reducible assumption | extract_lets | with_reducible apply releaseFrame_kept | with_reducible apply releaseMgmt_kept | split

theorem execPumpRelease_kept {q : Port} {s : State} (hg : Kept qu s) : KeptR qu (execPumpRelease q s) := by
  unfold execPumpRelease
  repeat' first
    | with_reducible assumption | extract_lets | with_reducible apply keptR_next | with_reducible apply gateTurn_kept
    | with_reducible apply release1_kept | split | with_reducible (refine kept_snd (by with_reducible assumption) ?_)
    | with_reducible (refine kept_mk ?_ rfl rfl rfl)

theorem maskOut_kept {c : Nat} {w : Nat} {s : State} (hg : Kept qu s) : Kept qu (maskOut c w s).2 := by
  unfold maskOut
  repeat' first
    | with_reducible assumption | extract_lets | with_reducible apply setCluster_kept | split
    | with_reducible (refine kept_snd (by with_reducible assumption) ?_) | with_reducible (refine kept_mk ?_ rfl rfl rfl)

theorem runOn_kept {c : Nat} {k : Nat} {id : Nat} {left : Nat} {s : State} (hg : Kept qu s) : Kept qu (runOn c k id left s) := by
  unfold runOn
  repeat' first
    | with_reducible assumption | extract_lets | with_reducible apply putReq_kept | with_reducible apply putFrame_kept
    | with_reducible apply setCluster_kept | with_reducible apply maskOut_kept | split
    | with_reducible (refine kept_snd (by with_reducible assumption) ?_) | with_reducible (refine kept_mk ?_ rfl rfl rfl)

theorem feed_kept {c : Nat} {k : Nat} {s : State} (hg : Kept qu s) : Kept qu (feed c k s) := by
  unfold feed
  repeat' first
    | with_reducible assumption | extract_lets | split | refine kept_mk ?_ rfl rfl rfl

theorem feedAll_kept {c : Nat} {s : State} (hg : Kept qu s) : Kept qu (feedAll c s) := by
  unfold feedAll
  with_reducible repeat' first | assumption | apply feed_kept

theorem enqueue_kept {c : Nat} {fid : Nat} {s : State} (hg : Kept qu s) : Kept qu (enqueue c fid s) := by
  unfold enqueue
  with_reducible repeat' first | assumption | apply feedAll_kept | apply setCluster_kept

theorem takePn_kept {c : Nat} {fid : Nat} {f : Frame} {s : State} (hg : Kept qu s) : Kept qu (takePn c fid f s).2 := by
  unfold takePn
  repeat' first
    | with_reducible assumption | extract_lets | with_reducible apply putFrame_kept | with_reducible apply setPn_kept
    | with_reducible apply setChan_kept | with_reducible apply pnThresh_kept | split

theorem countRequest_kept {c : Nat} {slots : Nat} {tc : Option Nat} {express : Bool} {s : State} (hg : Kept qu s) :
    Kept qu (countRequest c slots tc express s) := by
  unfold countRequest
  repeat' first
    | with_reducible assumption | extract_lets | with_reducible apply countFix_kept | with_reducible apply countEv_kept | split
    | with_reducible (refine kept_snd (by with_reducible assumption) ?_) | with_reducible (refine kept_mk ?_ rfl rfl rfl)

theorem enterArray_kept {c : Nat} {fid : Nat} {f : Frame} {x : Slot} {s : State} (hg : Kept qu s) : Kept qu (enterArray c fid f x s) := by
  unfold enterArray
  repeat' first
    | with_reducible assumption | extract_lets | with_reducible apply putFrame_kept | with_reducible apply enqueue_kept
    | with_reducible apply takeGranules_kept | with_reducible apply countRequest_kept | with_reducible apply pass_kept | split
    | with_reducible (refine kept_snd (by with_reducible assumption) ?_) | with_reducible (refine kept_mk ?_ rfl rfl rfl)

theorem dispatch_kept {fid : Nat} {f : Frame} {e : Errs} {word : Bool} {s : State} (hg : Kept qu s) :
    Kept qu (dispatch fid f e word s) := by
  unfold dispatch
  repeat' first
    | with_reducible assumption | extract_lets | with_reducible apply enterArray_kept | with_reducible apply granuleError_kept
    | with_reducible apply countFault_kept | with_reducible apply logFault_kept | with_reducible apply discard_kept
    | with_reducible apply halt_kept | with_reducible apply countFix_kept | with_reducible apply countEv_kept
    | with_reducible apply takePn_kept | with_reducible apply putFrame_kept | split
    | with_reducible (refine kept_snd (by with_reducible assumption) ?_) | with_reducible (refine kept_mk ?_ rfl rfl rfl)

theorem workCtl_kept {r : Req} {s : State} (hg : Kept qu s) : Kept qu (workCtl r s).2 := by
  unfold workCtl
  repeat' first
    | with_reducible assumption | extract_lets | with_reducible apply pass_kept | with_reducible apply onTx_kept | split
    | with_reducible (refine kept_snd (by with_reducible assumption) ?_) | with_reducible (refine kept_mk ?_ rfl rfl rfl)

theorem badKey_kept {r : Req} {id : Nat} {h : Nat} {s : State} (hg : Kept qu s) : Kept qu (badKey r id h s) := by
  unfold badKey
  repeat' first
    | with_reducible assumption | extract_lets | with_reducible apply sump_kept | with_reducible apply countFault_kept
    | with_reducible apply logFault_kept | with_reducible apply loseReq_kept | split
    | with_reducible (refine kept_snd (by with_reducible assumption) ?_) | with_reducible (refine kept_mk ?_ rfl rfl rfl)

theorem dispatchCtl_kept {id : Nat} {r : Req} {e : Errs} {s : State} (hg : Kept qu s) : Kept qu (dispatchCtl id r e s) := by
  unfold dispatchCtl
  repeat' first
    | with_reducible assumption | extract_lets | with_reducible apply countRequest_kept | with_reducible apply enqueue_kept
    | with_reducible apply putReq_kept | with_reducible apply badKey_kept | with_reducible apply halt_kept
    | with_reducible apply countFix_kept | with_reducible apply countEv_kept | with_reducible apply workCtl_kept | split
    | with_reducible (refine kept_snd (by with_reducible assumption) ?_) | with_reducible (refine kept_mk ?_ rfl rfl rfl)

theorem execRequestDispatch_kept {fid : Nat} {errs : Errs} {word : Bool} {s : State} (hg : Kept qu s) :
    KeptR qu (execRequestDispatch fid errs word s) := by
  unfold execRequestDispatch
  repeat' first
    | with_reducible assumption | extract_lets | with_reducible apply keptR_next | with_reducible apply dispatchCtl_kept
    | with_reducible apply dispatch_kept | with_reducible apply settle_kept | split
    | with_reducible (refine kept_snd (by with_reducible assumption) ?_) | with_reducible (refine kept_mk ?_ rfl rfl rfl)

theorem suspend_kept {c : Nat} {k : Nat} {fid : Nat} {s : State} (hg : Kept qu s) : Kept qu (suspend c k fid s) := by
  unfold suspend
  with_reducible repeat' first | assumption | apply setCluster_kept | apply runOn_kept | apply countEv_kept | apply countFix_kept

theorem execExpressSuspend_kept {cluster : ClusterNo} {s : State} (hg : Kept qu s) : KeptR qu (execExpressSuspend cluster s) := by
  unfold execExpressSuspend
  repeat' first
    | with_reducible assumption | extract_lets | with_reducible apply keptR_next | with_reducible apply feedAll_kept
    | with_reducible apply suspend_kept | split

theorem replayWrites_kept {n : Nat} {s : State} (hg : Kept qu s) : Kept qu (replayWrites n s) := by
  induction n generalizing s with
  | zero => exact hg
  | succ n ih => exact ih (imeCount_kept (countEv_kept (countFix_kept (useLine_kept (freeVal_kept (w := 26) hg)))))

theorem replayCache_kept {window : Nat} {high : Nat} {pn : Nat} {s : State} (hg : Kept qu s) : Kept qu (replayCache window high pn s) := by
  unfold replayCache
  repeat' first
    | with_reducible assumption | extract_lets | with_reducible apply countRead_kept | with_reducible apply replayWrites_kept | split
    | with_reducible (refine kept_snd (by with_reducible assumption) ?_) | with_reducible (refine kept_mk ?_ rfl rfl rfl)

theorem replayCommit_kept {f : Frame} {s : State} (hg : Kept qu s) : Kept qu (replayCommit f s) := by
  unfold replayCommit
  repeat' first
    | with_reducible assumption | extract_lets | with_reducible apply putReplay_kept | with_reducible apply replayCache_kept | split
    | with_reducible (refine kept_snd (by with_reducible assumption) ?_) | with_reducible (refine kept_mk ?_ rfl rfl rfl)

theorem leaveCluster_kept {c : Nat} {fid : Nat} {s : State} (hg : Kept qu s) : Kept qu (leaveCluster c fid s) := by
  unfold leaveCluster
  repeat' first
    | with_reducible assumption | extract_lets | with_reducible apply setCluster_kept | with_reducible apply feedAll_kept
    | with_reducible apply emptied_kept | split | with_reducible (refine kept_snd (by with_reducible assumption) ?_)
    | with_reducible (refine kept_mk ?_ rfl rfl rfl)

theorem result_kept {c : Nat} {fid : Nat} {f : Frame} {s : State} (hg : Kept qu s) : Kept qu (result c fid f s) := by
  unfold result
  repeat' first
    | with_reducible assumption | with_reducible apply discard_kept | with_reducible apply countEv_kept
    | with_reducible apply replayCommit_kept | with_reducible apply putFrame_kept | with_reducible (refine kept_ite ?_ ?_) | split

theorem passedCtl_kept {p : Nat} {x : CtlSeg} {plain : Bytes} {s : State} (hg : Kept qu s) : Kept qu (passedCtl p x plain s) := by
  unfold passedCtl
  repeat' first
    | with_reducible assumption | extract_lets | with_reducible apply onRx_kept | with_reducible apply setDefect_kept | split
    | with_reducible (refine kept_snd (by with_reducible assumption) ?_) | with_reducible (refine kept_mk ?_ rfl rfl rfl)

theorem reqResult_kept {r : Req} {s : State} (hg : Kept qu s) : Kept qu (reqResult r s) := by
  unfold reqResult
  repeat' first
    | with_reducible assumption | extract_lets | with_reducible apply putWork_kept | with_reducible apply ctlFail_kept
    | with_reducible apply passedCtl_kept | with_reducible apply onTx_kept | split
    | with_reducible (refine kept_snd (by with_reducible assumption) ?_) | with_reducible (refine kept_mk ?_ rfl rfl rfl)

theorem execRequestComplete_kept {req : Met Nat Errs} {s : State} (hg : Kept qu s) : KeptR qu (execRequestComplete req s) := by
  unfold execRequestComplete
  repeat' first
    | with_reducible assumption | extract_lets | with_reducible apply keptR_next | with_reducible apply dropReq_kept
    | with_reducible apply reqResult_kept | with_reducible apply result_kept | with_reducible apply leaveCluster_kept
    | with_reducible (refine withEcc_kept ?_ (fun _ _ => ?_)) | with_reducible apply halt_kept | split
    | with_reducible (refine kept_snd (by with_reducible assumption) ?_) | with_reducible (refine kept_mk ?_ rfl rfl rfl)

theorem putReplacing_kept {l : List (Nat × Nat)} {s : State} (hg : Kept qu s) : Kept qu (putReplacing l s) := by
  unfold putReplacing
  with_reducible repeat' first | assumption | apply onMaint_kept

theorem endStep_kept {r : Reply} {s : State} (hg : Kept qu s) : Kept qu (endStep r s) := by
  unfold endStep
  repeat' first
    | with_reducible assumption | with_reducible apply onMaint_kept | with_reducible apply answer_kept | split

theorem retirementDone_kept {s : State} (hg : Kept qu s) : Kept qu (retirementDone s) := by
  unfold retirementDone
  repeat' first
    | with_reducible assumption | extract_lets | with_reducible apply onMaint_kept | split
    | with_reducible (refine kept_snd (by with_reducible assumption) ?_) | with_reducible (refine kept_mk ?_ rfl rfl rfl)

theorem retire_kept {row c : Nat} {s : State} (hg : Kept qu s) : Kept qu (retire row c s) := by
  unfold retire
  extract_lets x served s1 s2 s3
  have h1 : Kept qu s1 := kept_ite (endStep_kept hg) hg
  have h3 : Kept qu s3 := logFault_kept (countFault_kept (setRole_kept (putReplacing_kept h1)))
  clear_value s3 served
  split
  · have h4 : Kept qu (retirementDone (degrade 10 c 1 (raise evRetire (leBytes 1 c ++ leBytes 1 0xFF) s3))) :=
      retirementDone_kept (degrade_kept (raise_kept h3))
    split
    · exact kept_ite (endStep_kept h4) h4
    · exact h4
  · split
    · exact retirementDone_kept (raise_kept h3)
    · exact raise_kept (wake_kept (putReplacing_kept h3))

theorem abandon_kept {c : Nat} {s : State} (hg : Kept qu s) : Kept qu (abandon c s) := by
  unfold abandon
  repeat' first
    | with_reducible assumption | with_reducible (refine kept_foldl ?_ (fun _ _ _ => ?_)) | with_reducible apply setRole_kept
    | with_reducible apply putReplacing_kept | with_reducible apply onMaint_kept | with_reducible apply endStep_kept
    | with_reducible (refine kept_ite ?_ ?_) | split

theorem faultFlag_kept {c : Nat} {s : State} (hg : Kept qu s) : Kept qu (faultFlag c s) := by
  unfold faultFlag
  repeat' first
    | with_reducible assumption | extract_lets | with_reducible apply retire_kept | with_reducible apply settle_kept
    | with_reducible apply discardAll_kept | with_reducible apply loseReqs_kept | with_reducible apply setCluster_kept
    | with_reducible apply abandon_kept | with_reducible apply countFault_kept | with_reducible apply logFault_kept | split
    | with_reducible (refine kept_snd (by with_reducible assumption) ?_) | with_reducible (refine kept_mk ?_ rfl rfl rfl)

theorem execClusterFault_kept {cluster : ClusterNo} {s : State} (hg : Kept qu s) : KeptR qu (execClusterFault cluster s) := by
  unfold execClusterFault
  with_reducible repeat' first | assumption | apply keptR_next | apply faultFlag_kept

theorem execHandshakeTimeout_kept {cluster : ClusterNo} {s : State} (hg : Kept qu s) : KeptR qu (execHandshakeTimeout cluster s) := by
  unfold execHandshakeTimeout
  with_reducible repeat' first | assumption | apply keptR_next | apply faultFlag_kept

theorem execSpareKatDone_kept {cluster : ClusterNo} {pass : Bool} {s : State} (hg : Kept qu s) :
    KeptR qu (execSpareKatDone cluster pass s) := by
  unfold execSpareKatDone
  repeat' first
    | with_reducible assumption | extract_lets | with_reducible apply keptR_next | with_reducible apply retire_kept
    | with_reducible apply retirementDone_kept | with_reducible apply settle_kept | with_reducible apply putReplacing_kept
    | with_reducible apply setRole_kept | with_reducible apply tryTest_kept | with_reducible apply countFault_kept
    | with_reducible apply logFault_kept | with_reducible apply pass_kept | split
    | with_reducible (refine kept_snd (by with_reducible assumption) ?_) | with_reducible (refine kept_mk ?_ rfl rfl rfl)

theorem beginStep_kept {c : Nat} {k : Nat} {mb : Option Mb} {s : State} (hg : Kept qu s) : Kept qu (beginStep c k mb s) := by
  unfold beginStep
  with_reducible repeat' first
    | assumption | apply onMaint_kept | apply setRole_kept | apply wake_kept | apply putReplacing_kept | refine kept_ite ?_ ?_

theorem execRotationStep_kept {s : State} (hg : Kept qu s) : KeptR qu (execRotationStep s) := by
  unfold execRotationStep
  repeat' first
    | with_reducible assumption | with_reducible apply keptR_next | with_reducible apply beginStep_kept | with_reducible apply onMaint_kept
    | split

theorem execClusterTestDone_kept {cluster : ClusterNo} {pass : Bool} {s : State} (hg : Kept qu s) :
    KeptR qu (execClusterTestDone cluster pass s) := by
  unfold execClusterTestDone
  repeat' first
    | with_reducible assumption | extract_lets | with_reducible apply keptR_next | with_reducible apply retire_kept
    | with_reducible apply setRole_kept | with_reducible apply endStep_kept | with_reducible apply settle_kept
    | with_reducible apply countFault_kept | with_reducible apply logFault_kept | with_reducible apply pass_kept | split
    | with_reducible (refine kept_snd (by with_reducible assumption) ?_) | with_reducible (refine kept_mk ?_ rfl rfl rfl)

theorem execRotationResume_kept {s : State} (hg : Kept qu s) : KeptR qu (execRotationResume s) := by
  unfold execRotationResume
  with_reducible repeat' first | assumption | apply keptR_next | apply onMaint_kept | refine kept_ite ?_ ?_

theorem execClTest_kept {mb : Mb} {cluster : Nat} {s : State} (hg : Kept qu s) : KeptR qu (execClTest mb cluster s) := by
  unfold execClTest
  repeat' first
    | with_reducible assumption | with_reducible (refine request_kept ?_ (fun _ _ _ => ?_)) | with_reducible apply deny_kept
    | with_reducible apply beginStep_kept | split

theorem occupy_kept {q : Nat} {c : Nat} {ns : Nat} {s : State} (hg : Kept qu s) : Kept qu (occupy q c ns s) := by
  unfold occupy
  with_reducible repeat' first | assumption | apply setPort_kept | apply countEv_kept | refine kept_ite ?_ ?_

theorem sendMgmt_kept {q : Nat} {m : MgmtFrame} {stamp : Stamp} {e : Errs} {s : State} (hg : Kept qu s) :
    Kept qu (sendMgmt q m stamp e s) := by
  unfold sendMgmt
  repeat' first
    | with_reducible assumption | extract_lets | with_reducible apply sampleAt_kept | with_reducible apply freeVal_kept
    | with_reducible apply pushStamp_kept | with_reducible apply countEv_kept | with_reducible apply looseError_kept
    | with_reducible apply sump_kept | with_reducible apply popMgmt_kept | with_reducible apply judgeHead_kept
    | with_reducible apply occupy_kept | with_reducible apply emit_kept | with_reducible apply shapeCharge_kept
    | with_reducible apply halt_kept | split | with_reducible (refine kept_snd (by with_reducible assumption) ?_)
    | with_reducible (refine kept_mk ?_ rfl rfl rfl)

theorem sendFrame_kept {q : Nat} {fid : Nat} {f : Frame} {e : Errs} {s : State} (hg : Kept qu s) : Kept qu (sendFrame q fid f e s) := by
  unfold sendFrame
  repeat' first
    | with_reducible assumption | extract_lets | with_reducible apply granuleError_kept | with_reducible apply frameSent_kept
    | with_reducible apply removeFrame_kept | with_reducible apply occupy_kept | with_reducible apply emit_kept
    | with_reducible apply halt_kept | with_reducible apply discard_kept | split
    | with_reducible (refine kept_snd (by with_reducible assumption) ?_) | with_reducible (refine kept_mk ?_ rfl rfl rfl)

theorem placeFrame_kept {q : Nat} {fid : Nat} {f : Frame} {e : Errs} {s : State} (hg : Kept qu s) : Kept qu (placeFrame q fid f e s) := by
  unfold placeFrame
  repeat' first
    | with_reducible assumption | extract_lets | with_reducible apply granuleError_kept | with_reducible apply removeFrame_kept
    | with_reducible apply onTx_kept | with_reducible apply halt_kept | with_reducible apply discard_kept | split
    | with_reducible (refine kept_snd (by with_reducible assumption) ?_) | with_reducible (refine kept_mk ?_ rfl rfl rfl)

theorem startNext_kept {q : Nat} {e : Errs} {s : State} (hg : Kept qu s) : Kept qu (startNext q e s) := by
  unfold startNext
  repeat' first
    | with_reducible assumption | extract_lets | with_reducible apply sendMgmt_kept | with_reducible apply sendFrame_kept
    | with_reducible apply pick_kept | split | with_reducible (refine kept_snd (by with_reducible assumption) ?_)
    | with_reducible (refine kept_mk ?_ rfl rfl rfl)

theorem placeNext_kept {q : Nat} {e : Errs} {s : State} (hg : Kept qu s) : Kept qu (placeNext q e s) := by
  unfold placeNext
  repeat' first
    | with_reducible assumption | extract_lets | with_reducible apply placeFrame_kept | split

theorem placeAll_kept {q n : Nat} {s : State} (hg : Kept qu s) : Kept qu (placeAll q n s) := by
  induction n generalizing s with
  | zero => exact hg
  | succ n ih => exact ih (placeNext_kept hg)

theorem cellSlot_kept {p : Nat} {s : State} (hg : Kept qu s) : Kept qu (cellSlot p s) := by
  unfold cellSlot
  repeat' first
    | with_reducible assumption | extract_lets | with_reducible apply sendCell_kept | with_reducible apply placeAll_kept
    | with_reducible apply dropSegs_kept | with_reducible apply gateTurn_kept | split
    | with_reducible (refine kept_snd (by with_reducible assumption) ?_) | with_reducible (refine kept_mk ?_ rfl rfl rfl)

theorem execCellTransmit_kept {wport : WPort} {s : State} (hg : Kept qu s) : KeptR qu (execCellTransmit wport s) := by
  unfold execCellTransmit
  repeat' first
    | with_reducible assumption | extract_lets | with_reducible apply keptR_next | with_reducible apply cellSlot_kept
    | with_reducible apply halt_kept | split | with_reducible (refine kept_snd (by with_reducible assumption) ?_)
    | with_reducible (refine kept_mk ?_ rfl rfl rfl)

theorem execTransmitStart_kept {q : Port} {errs : Errs} {s : State} (hg : Kept qu s) : KeptR qu (execTransmitStart q errs s) := by
  unfold execTransmitStart
  repeat' first
    | with_reducible assumption | extract_lets | with_reducible apply keptR_next | with_reducible apply gateTurn_kept
    | with_reducible apply startNext_kept | with_reducible apply placeNext_kept | split
    | with_reducible (refine kept_snd (by with_reducible assumption) ?_) | with_reducible (refine kept_mk ?_ rfl rfl rfl)

theorem launch_kept {q : Nat} {e : Errs} {s : State} (hg : Kept qu s) : Kept qu (launch q e s) := by
  unfold launch
  repeat' first
    | with_reducible assumption | extract_lets | with_reducible apply countEv_kept | with_reducible apply sendMgmt_kept
    | with_reducible apply freeVal_kept | with_reducible apply lateLaunch_kept | with_reducible apply judgeHead_kept | split
    | with_reducible (refine kept_snd (by with_reducible assumption) ?_) | with_reducible (refine kept_mk ?_ rfl rfl rfl)

theorem execLaunch_kept {q : Met Port Errs} {s : State} (hg : Kept qu s) : KeptR qu (execLaunch q s) := by
  unfold execLaunch
  repeat' first
    | with_reducible assumption | extract_lets | with_reducible apply keptR_next | with_reducible apply gateTurn_kept
    | with_reducible apply launch_kept | split | with_reducible (refine kept_snd (by with_reducible assumption) ?_)
    | with_reducible (refine kept_mk ?_ rfl rfl rfl)

theorem execGateEntry_kept {q : Port} {s : State} (hg : Kept qu s) : KeptR qu (execGateEntry q s) := by
  unfold execGateEntry
  repeat' first
    | with_reducible assumption | extract_lets | with_reducible apply keptR_next | with_reducible apply gateTurn_kept | split
    | with_reducible (refine kept_snd (by with_reducible assumption) ?_) | with_reducible (refine kept_mk ?_ rfl rfl rfl)

theorem execGateSwap_kept {q : Port} {s : State} (hg : Kept qu s) : KeptR qu (execGateSwap q s) := by
  unfold execGateSwap
  repeat' first
    | with_reducible assumption | extract_lets | with_reducible apply keptR_next | with_reducible apply gateTurn_kept | split
    | with_reducible (refine kept_snd (by with_reducible assumption) ?_) | with_reducible (refine kept_mk ?_ rfl rfl rfl)

theorem spillPut_kept {l : List Nat} {b : Bytes} {s : State} (hg : Kept qu s) : Kept qu (spillPut l b s) := by
  induction l generalizing b s with
  | nil => exact hg
  | cons i r ih => exact ih (writeLine_kept hg)

theorem spillOut_kept {fid : Nat} {f : Frame} {s : State} (hg : Kept qu s) : Kept qu (spillOut fid f s) := by
  unfold spillOut
  repeat' first
    | with_reducible assumption | extract_lets | with_reducible apply spillPut_kept | with_reducible apply countFix_kept
    | with_reducible apply putFrame_kept | with_reducible apply pick_kept | split
    | with_reducible (refine kept_snd (by with_reducible assumption) ?_) | with_reducible (refine kept_mk ?_ rfl rfl rfl)

theorem execSpillWrite_kept {fid : Nat} {errs : Errs} {s : State} (hg : Kept qu s) : KeptR qu (execSpillWrite fid errs s) := by
  unfold execSpillWrite
  repeat' first
    | with_reducible assumption | extract_lets | with_reducible apply keptR_next | with_reducible apply spillOut_kept
    | with_reducible (refine withEcc_kept ?_ (fun _ _ => ?_)) | with_reducible apply granuleError_kept
    | with_reducible apply discard_kept | with_reducible apply halt_kept | split
    | with_reducible (refine kept_snd (by with_reducible assumption) ?_) | with_reducible (refine kept_mk ?_ rfl rfl rfl)

theorem spillBack_kept {fid : Nat} {f : Frame} {s : State} (hg : Kept qu s) : Kept qu (spillBack fid f s) := by
  unfold spillBack
  repeat' first
    | with_reducible assumption | extract_lets | with_reducible apply putFrame_kept | with_reducible apply takeGranules_kept
    | with_reducible apply countRead_kept | with_reducible apply countFix_kept | with_reducible apply countEv_kept
    | with_reducible (refine kept_foldl ?_ (fun _ _ _ => ?_)) | split
    | with_reducible (refine kept_snd (by with_reducible assumption) ?_) | with_reducible (refine kept_mk ?_ rfl rfl rfl)

theorem spillReturns_kept {c : Nat} {d : Dir} {fuel : Nat} {s : State} (hg : Kept qu s) : Kept qu (spillReturns c d fuel s) := by
  induction fuel generalizing s with
  | zero => exact hg
  | succ n ih =>
    unfold spillReturns
    split
    · split
      · exact ih (spillBack_kept hg)
      · exact hg
    · exact hg

theorem execSpillReturn_kept {chan : Nat} {dir : Met Dir Ecc} {s : State} (hg : Kept qu s) :
    KeptR qu (execSpillReturn chan dir s) := by
  unfold execSpillReturn
  repeat' first
    | with_reducible assumption | extract_lets | with_reducible apply keptR_next | with_reducible apply spillReturns_kept
    | with_reducible (refine withEcc_kept ?_ (fun _ _ => ?_)) | split
    | with_reducible (refine kept_snd (by with_reducible assumption) ?_) | with_reducible (refine kept_mk ?_ rfl rfl rfl)

theorem execQuarantineTest_kept {granule : Nat} {pass : Bool} {s : State} (hg : Kept qu s) :
    KeptR qu (execQuarantineTest granule pass s) := by
  unfold execQuarantineTest
  repeat' first
    | with_reducible assumption | extract_lets | with_reducible apply keptR_next | with_reducible apply quarantineLimit_kept
    | with_reducible apply settle_kept | with_reducible apply pass_kept | with_reducible (refine onMem_kept ?_ rfl) | split
    | with_reducible (refine kept_snd (by with_reducible assumption) ?_) | with_reducible (refine kept_mk ?_ rfl rfl rfl)

theorem execLinkUp_kept {q : Port} {s : State} (hg : Kept qu s) : KeptR qu (execLinkUp q s) := by
  unfold execLinkUp
  with_reducible repeat' first | assumption | apply keptR_next | apply setPort_kept | refine kept_ite ?_ ?_

theorem execLinkDown_kept {q : Port} {s : State} (hg : Kept qu s) : KeptR qu (execLinkDown q s) := by
  unfold execLinkDown
  repeat' first
    | with_reducible assumption | extract_lets | with_reducible apply keptR_next | with_reducible apply linkLost_kept | split
    | with_reducible (refine kept_snd (by with_reducible assumption) ?_) | with_reducible (refine kept_mk ?_ rfl rfl rfl)

theorem execPreemptVerify_kept {q : Port} {ok : Bool} {s : State} (hg : Kept qu s) : KeptR qu (execPreemptVerify q ok s) := by
  unfold execPreemptVerify
  with_reducible repeat' first | assumption | apply keptR_next | apply regulate_kept | apply setPort_kept | refine kept_ite ?_ ?_

end Sys2Proof.Machine
end

