-- ==== Sys2Proof/Laws/InvariantHost.lean ====
section
/-! SUPPORT. Operations that keep `StepInv` and the queue: memory, entropy, the lookaside engine, the rings, the views, I2C and the doorbell. -/

namespace Sys2Proof.Machine

open Sys2Proof Sys2Proof.Safety

variable {qu : List Instr}

theorem runAccess_kept {a : Access} {s : State} (hg : Kept qu s) : Kept qu (runAccess a s) := by
  unfold runAccess
  repeat' first
    | with_reducible assumption | with_reducible apply eccReport_kept | with_reducible apply masterWrite_kept
    | with_reducible apply masterRead_kept | with_reducible apply emit_kept | with_reducible (refine kept_ite ?_ ?_) | split

theorem execMasterAccess_kept {acc : Access} {ecc : Ecc} {s : State} (hg : Kept qu s) : KeptR qu (execMasterAccess acc ecc s) := by
  unfold execMasterAccess
  repeat' first
    | with_reducible assumption | extract_lets | with_reducible apply keptR_next | with_reducible apply runAccess_kept
    | with_reducible (refine withEcc_kept ?_ (fun _ _ => ?_)) | with_reducible apply keepWaiting_kept | split
    | with_reducible (refine kept_snd (by with_reducible assumption) ?_) | with_reducible (refine kept_mk ?_ rfl rfl rfl)

theorem maskedLine_kept {k : Nat} {a : Nat} {d : MaskedBytes} {s : State} (hg : Kept qu s) : Kept qu (maskedLine k a d s) := by
  unfold maskedLine
  repeat' first
    | with_reducible assumption | with_reducible apply memWrite_kept | with_reducible apply countRead_kept
    | with_reducible (refine kept_ite ?_ ?_) | split

theorem dpFail_kept {colour : Nat} {world : Nat} {a : Nat} {write : Bool} {c : Nat} {s : State} (hg : Kept qu s) :
    Kept qu (dpFail colour world a write c s) := by
  unfold dpFail
  with_reducible repeat' first | assumption | apply onDp_kept | apply mpuFault_kept

theorem dpCount_kept {colour : Nat} {world : Nat} {a : Nat} {write : Bool} {c : Nat} {s : State} (hg : Kept qu s) :
    Kept qu (dpCount colour world a write c s) := by
  unfold dpCount
  repeat' first
    | with_reducible assumption | extract_lets | with_reducible apply countEv_kept | with_reducible apply sampleMem_kept | split
    | with_reducible (refine kept_snd (by with_reducible assumption) ?_) | with_reducible (refine kept_mk ?_ rfl rfl rfl)

theorem dpReadPiece_kept {colour : Nat} {world : Nat} {a : Nat} {n : Nat} {s : State} (hg : Kept qu s) :
    Kept qu (dpReadPiece colour world a n s).2 := by
  unfold dpReadPiece
  repeat' first
    | with_reducible assumption | extract_lets | with_reducible apply dpCount_kept | with_reducible apply countRead_kept
    | with_reducible apply dpFail_kept | split

theorem dpWritePiece_kept {colour : Nat} {world : Nat} {a : Nat} {d : MaskedBytes} {s : State} (hg : Kept qu s) :
    Kept qu (dpWritePiece colour world a d s) := by
  unfold dpWritePiece
  with_reducible repeat' first
    | assumption | refine kept_foldl ?_ (fun _ _ _ => ?_) | apply dpCount_kept | apply maskedLine_kept | apply dpFail_kept
    | refine kept_ite ?_ ?_

theorem dpRead_kept {a n colour world : Nat} {s : State} (hg : Kept qu s) : Kept qu (dpRead a n colour world s) := by
  have key : ∀ (l : List (Nat × Nat)) (x : Bytes × State), Kept qu x.2 → Kept qu (l.foldl (fun (x : Bytes × State) p =>
      let (d, s) := dpReadPiece colour world p.1 p.2 x.2
      (x.1 ++ d, s)) x).2 := by
    intro l
    induction l with
    | nil => exact fun _ h => h
    | cons p r ih => exact fun x h => ih _ (dpReadPiece_kept h)
  exact emit_kept (key _ _ hg)

theorem dpWrite_kept {a : Nat} {d : MaskedBytes} {colour : Nat} {world : Nat} {s : State} (hg : Kept qu s) :
    Kept qu (dpWrite a d colour world s) := by
  unfold dpWrite
  with_reducible repeat' first | assumption | refine kept_foldl ?_ (fun _ _ _ => ?_) | apply dpWritePiece_kept

theorem dpTake_kept {offset : Nat} {n : Nat} {s : State} (hg : Kept qu s) : Kept qu (dpTake offset n s).2 := by
  unfold dpTake
  repeat' first
    | with_reducible assumption | extract_lets | with_reducible apply countEv_kept | with_reducible apply onDp_kept | split

theorem execDpWindowRead_kept {offset : Nat} {len : Met Nat Ecc} {s : State} (hg : Kept qu s) :
    KeptR qu (execDpWindowRead offset len s) := by
  unfold execDpWindowRead
  repeat' first
    | with_reducible assumption | extract_lets | with_reducible apply keptR_next | with_reducible apply dpRead_kept
    | with_reducible (refine withEcc_kept ?_ (fun _ _ => ?_)) | with_reducible apply keepWaiting_kept | with_reducible apply dpTake_kept
    | with_reducible apply emit_kept | split | with_reducible (refine kept_snd (by with_reducible assumption) ?_)
    | with_reducible (refine kept_mk ?_ rfl rfl rfl)

theorem execDpWindowWrite_kept {offset : Nat} {data : Met MaskedBytes Ecc} {s : State} (hg : Kept qu s) :
    KeptR qu (execDpWindowWrite offset data s) := by
  unfold execDpWindowWrite
  repeat' first
    | with_reducible assumption | extract_lets | with_reducible apply keptR_next | with_reducible apply dpWrite_kept
    | with_reducible (refine withEcc_kept ?_ (fun _ _ => ?_)) | with_reducible apply keepWaiting_kept | with_reducible apply dpTake_kept
    | split | with_reducible (refine kept_snd (by with_reducible assumption) ?_) | with_reducible (refine kept_mk ?_ rfl rfl rfl)

theorem execMpuHold_kept {by_ : Option Pf} {s : State} (hg : Kept qu s) : KeptR qu (execMpuHold by_ s) := by
  unfold execMpuHold
  repeat' first
    | with_reducible assumption | extract_lets | with_reducible apply keptR_next | with_reducible (refine onMem_kept ?_ rfl)
    | with_reducible apply begun_kept | split | with_reducible (refine kept_snd (by with_reducible assumption) ?_)
    | with_reducible (refine kept_mk ?_ rfl rfl rfl)

theorem execMpuDrained_kept {s : State} (hg : Kept qu s) : KeptR qu (execMpuDrained s) := by
  unfold execMpuDrained
  with_reducible repeat' first | assumption | apply keptR_next | refine onMem_kept ?_ rfl | refine kept_ite ?_ ?_

theorem serve_kept {w : Waiter} {s : State} (hg : Kept qu s) : Kept qu (serve w s) := by
  unfold serve
  repeat' first
    | with_reducible assumption | extract_lets | with_reducible apply txFlush_kept | with_reducible apply ringRecord_kept
    | with_reducible apply dpWrite_kept | with_reducible apply dpRead_kept | with_reducible apply runAccess_kept
    | with_reducible (refine withEcc_kept ?_ (fun _ _ => ?_)) | split
    | with_reducible (refine kept_snd (by with_reducible assumption) ?_) | with_reducible (refine kept_mk ?_ rfl rfl rfl)

theorem endHold_kept {s : State} (hg : Kept qu s) : Kept qu (endHold s) := by
  unfold endHold
  with_reducible repeat' first
    | assumption | refine kept_foldl ?_ (fun _ _ _ => ?_) | apply onIrq_kept | refine onMem_kept ?_ rfl | apply serve_kept
    | apply ringRecord_kept | apply txFlush_kept

theorem updateRegion_kept {x : RegionSet} {s : State} (hg : Kept qu s) : Kept qu (updateRegion x s) := by
  unfold updateRegion
  repeat' first
    | with_reducible assumption | extract_lets | with_reducible (refine onMem_kept ?_ rfl) | split
    | with_reducible (refine kept_snd (by with_reducible assumption) ?_) | with_reducible (refine kept_mk ?_ rfl rfl rfl)

theorem releaseHold_kept {s : State} (hg : Kept qu s) : Kept qu (releaseHold s) := by
  unfold releaseHold
  repeat' first
    | with_reducible assumption | extract_lets | with_reducible apply endHold_kept | with_reducible (refine onMem_kept ?_ rfl) | split
    | with_reducible (refine kept_snd (by with_reducible assumption) ?_) | with_reducible (refine kept_mk ?_ rfl rfl rfl)

theorem execMpuRelease_kept {by_ : Releaser} {s : State} (hg : Kept qu s) : KeptR qu (execMpuRelease by_ s) := by
  unfold execMpuRelease
  repeat' first
    | with_reducible assumption | extract_lets | with_reducible apply keptR_next | with_reducible apply updateRegion_kept
    | with_reducible (refine onMem_kept ?_ rfl) | with_reducible apply releaseHold_kept
    | with_reducible (refine kept_foldl ?_ (fun _ _ _ => ?_)) | split
    | with_reducible (refine kept_snd (by with_reducible assumption) ?_) | with_reducible (refine kept_mk ?_ rfl rfl rfl)

theorem execMpuHoldLong_kept {s : State} (hg : Kept qu s) : KeptR qu (execMpuHoldLong s) := by
  unfold execMpuHoldLong
  repeat' first
    | with_reducible assumption | extract_lets | with_reducible apply keptR_next | with_reducible (refine onMem_kept ?_ rfl)
    | with_reducible apply raise_kept | split | with_reducible (refine kept_snd (by with_reducible assumption) ?_)
    | with_reducible (refine kept_mk ?_ rfl rfl rfl)

theorem execImeSweepRequest_kept {by_ : Option Pf} {index : Nat} {s : State} (hg : Kept qu s) :
    KeptR qu (execImeSweepRequest by_ index s) := by
  unfold execImeSweepRequest
  repeat' first
    | with_reducible assumption | extract_lets | with_reducible apply keptR_next | with_reducible apply pendSweep_kept
    | with_reducible (refine onMem_kept ?_ rfl) | split | with_reducible (refine kept_snd (by with_reducible assumption) ?_)
    | with_reducible (refine kept_mk ?_ rfl rfl rfl)

theorem execImeSweepStart_kept {s : State} (hg : Kept qu s) : KeptR qu (execImeSweepStart s) := by
  unfold execImeSweepStart
  repeat' first
    | with_reducible assumption | with_reducible apply keptR_next | with_reducible (refine onMem_kept ?_ rfl) | split

theorem resealLine_kept {w : Sweep} {a : Nat} {s : State} (hg : Kept qu s) : Kept qu (resealLine w a s) := by
  unfold resealLine
  repeat' first
    | with_reducible assumption | extract_lets | with_reducible apply countFix_kept | with_reducible apply countEv_kept
    | with_reducible (refine onMem_kept ?_ rfl) | with_reducible apply putLine_kept | split
    | with_reducible (refine kept_snd (by with_reducible assumption) ?_) | with_reducible (refine kept_mk ?_ rfl rfl rfl)

theorem passLine_kept {w : Sweep} {a : Nat} {s : State} (hg : Kept qu s) : Kept qu (passLine w a s) := by
  unfold passLine
  repeat' first
    | with_reducible assumption | extract_lets | with_reducible (refine onMem_kept ?_ rfl) | split
    | with_reducible (refine kept_snd (by with_reducible assumption) ?_) | with_reducible (refine kept_mk ?_ rfl rfl rfl)

theorem sweepCount_kept {w : Sweep} {a : Nat} {c : Nat} {write : Bool} {s : State} (hg : Kept qu s) :
    Kept qu (sweepCount w a c write s) := by
  unfold sweepCount
  repeat' first
    | with_reducible assumption | extract_lets | with_reducible apply countEv_kept | with_reducible apply sampleMem_kept | split
    | with_reducible (refine kept_snd (by with_reducible assumption) ?_) | with_reducible (refine kept_mk ?_ rfl rfl rfl)

theorem sweepLine_kept {w : Sweep} {a : Nat} {s : State} (hg : Kept qu s) : Kept qu (sweepLine w a s) := by
  unfold sweepLine
  repeat' first
    | with_reducible assumption | extract_lets | with_reducible apply mpuFault_kept | with_reducible apply sweepCount_kept
    | with_reducible apply resealLine_kept | with_reducible apply passLine_kept | split
    | with_reducible (refine kept_snd (by with_reducible assumption) ?_) | with_reducible (refine kept_mk ?_ rfl rfl rfl)

theorem execImeSweepLine_kept {ecc : Ecc} {s : State} (hg : Kept qu s) : KeptR qu (execImeSweepLine ecc s) := by
  unfold execImeSweepLine
  repeat' first
    | with_reducible assumption | extract_lets | with_reducible apply keptR_next | with_reducible apply sweepLine_kept
    | with_reducible (refine withEcc_kept ?_ (fun _ _ => ?_)) | split
    | with_reducible (refine kept_snd (by with_reducible assumption) ?_) | with_reducible (refine kept_mk ?_ rfl rfl rfl)

theorem renewIme_kept {k : Nat} {g : Bool} {s : State} (hg : Kept qu s) : Kept qu (renewIme k g s) := by
  unfold renewIme
  repeat' first
    | with_reducible assumption | extract_lets | with_reducible apply newImeKey_kept | with_reducible apply onKeys_kept
    | with_reducible apply defer_kept | split | with_reducible (refine kept_snd (by with_reducible assumption) ?_)
    | with_reducible (refine kept_mk ?_ rfl rfl rfl)

theorem execImeSweepDone_kept {s : State} (hg : Kept qu s) : KeptR qu (execImeSweepDone s) := by
  unfold execImeSweepDone
  repeat' first
    | with_reducible assumption | extract_lets | with_reducible apply keptR_next | with_reducible apply raise_kept
    | with_reducible apply renewIme_kept | with_reducible (refine onMem_kept ?_ rfl) | split
    | with_reducible (refine kept_snd (by with_reducible assumption) ?_) | with_reducible (refine kept_mk ?_ rfl rfl rfl)

theorem execImeCeClear_kept {pf : Pf} {s : State} (hg : Kept qu s) : KeptR qu (execImeCeClear pf s) := by
  unfold execImeCeClear
  with_reducible repeat' first | assumption | apply keptR_next | refine onMem_kept ?_ rfl | refine kept_ite ?_ ?_

theorem execZeroizeComplete_kept {s : State} (hg : Kept qu s) : KeptR qu (execZeroizeComplete s) := by
  unfold execZeroizeComplete
  repeat' first
    | with_reducible assumption | with_reducible apply keptR_next | with_reducible apply raise_kept | with_reducible apply halt_kept
    | with_reducible apply stpRecord_kept | with_reducible apply onKeys_kept | split

theorem execLockstepMismatch_kept {s : State} (hg : Kept qu s) : KeptR qu (execLockstepMismatch s) := by
  unfold execLockstepMismatch
  with_reducible repeat' first | assumption | apply keptR_next | apply halt_kept

theorem execMaskReseed_kept {cluster : ClusterNo} {s : State} (hg : Kept qu s) : KeptR qu (execMaskReseed cluster s) := by
  unfold execMaskReseed
  with_reducible repeat' first | assumption | apply keptR_next | apply draw_kept | apply setCluster_kept | refine kept_ite ?_ ?_

theorem execDrbgReseed_kept {s : State} (hg : Kept qu s) : KeptR qu (execDrbgReseed s) := by
  unfold execDrbgReseed
  with_reducible repeat' first | assumption | apply keptR_next | apply draw_kept | apply onKeys_kept | refine kept_ite ?_ ?_

theorem execEntropyFail_kept {s : State} (hg : Kept qu s) : KeptR qu (execEntropyFail s) := by
  unfold execEntropyFail
  repeat' first
    | with_reducible assumption | extract_lets | with_reducible apply keptR_next | with_reducible apply degrade_kept
    | with_reducible apply settle_kept | with_reducible apply countFault_kept | with_reducible apply logFault_kept
    | with_reducible apply onKeys_kept | with_reducible apply halt_kept | split
    | with_reducible (refine kept_snd (by with_reducible assumption) ?_) | with_reducible (refine kept_mk ?_ rfl rfl rfl)

theorem execEntropyHoldExpire_kept {s : State} (hg : Kept qu s) : KeptR qu (execEntropyHoldExpire s) := by
  unfold execEntropyHoldExpire
  with_reducible repeat' first | assumption | apply keptR_next | apply halt_kept | refine kept_ite ?_ ?_

theorem resume_kept {d : Deferred} {s : State} (hg : Kept qu s) : Kept qu (resume d s) := by
  unfold resume
  repeat' first
    | with_reducible assumption | extract_lets | with_reducible apply newImeKey_kept | with_reducible apply beginExchange_kept
    | with_reducible apply startMate_kept | with_reducible apply portUp_kept | split
    | with_reducible (refine kept_snd (by with_reducible assumption) ?_) | with_reducible (refine kept_mk ?_ rfl rfl rfl)

theorem execEntropyRecover_kept {s : State} (hg : Kept qu s) : KeptR qu (execEntropyRecover s) := by
  unfold execEntropyRecover
  repeat' first
    | with_reducible assumption | extract_lets | with_reducible apply keptR_next | with_reducible apply resume_kept
    | with_reducible apply settle_kept | with_reducible apply onKeys_kept | with_reducible apply degrade_kept
    | with_reducible apply onMaint_kept | with_reducible (refine kept_foldl ?_ (fun _ _ _ => ?_)) | split
    | with_reducible (refine kept_snd (by with_reducible assumption) ?_) | with_reducible (refine kept_mk ?_ rfl rfl rfl)

theorem countRemask_kept {bank : Nat} {s : State} (hg : Kept qu s) : Kept qu (countRemask bank s) := by
  unfold countRemask
  with_reducible repeat' first | assumption | apply countEv_kept

theorem reshare_kept {l : Line} {s : State} (hg : Kept qu s) : Kept qu (reshare l s).2 := by
  unfold reshare
  repeat' first
    | with_reducible assumption | with_reducible apply draw_kept | split
    | with_reducible (refine kept_snd (by with_reducible assumption) ?_)

theorem remaskAt_kept {space : KeySpace} {i : Nat} {s : State} (hg : Kept qu s) : Kept qu (remaskAt space i s) := by
  unfold remaskAt
  repeat' first
    | with_reducible assumption | with_reducible apply reshare_kept | with_reducible apply countRemask_kept
    | with_reducible apply putK_kept | with_reducible apply halt_kept | with_reducible apply putG_kept | with_reducible apply readG_kept
    | with_reducible apply onKeys_kept | split | with_reducible (refine kept_snd (by with_reducible assumption) ?_)

theorem execRemaskLine_kept {space : KeySpace} {index : Nat} {s : State} (hg : Kept qu s) : KeptR qu (execRemaskLine space index s) := by
  unfold execRemaskLine
  with_reducible repeat' first | assumption | apply keptR_next | apply remaskAt_kept | refine kept_ite ?_ ?_

theorem execDrkRemask_kept {s : State} (hg : Kept qu s) : KeptR qu (execDrkRemask s) := by
  unfold execDrkRemask
  repeat' first
    | with_reducible assumption | extract_lets | with_reducible apply keptR_next | with_reducible apply onStp_kept
    | with_reducible apply onKeys_kept | with_reducible apply draw_kept | split
    | with_reducible (refine kept_snd (by with_reducible assumption) ?_) | with_reducible (refine kept_mk ?_ rfl rfl rfl)

theorem setLa_kept {n : Nat} {q : LaQ} {s : State} (hg : Kept qu s) : Kept qu (setLa n q s) := by
  unfold setLa
  repeat' first
    | with_reducible assumption | refine kept_mk ?_ rfl rfl rfl

theorem execLaDescProdWrite_kept {pf : Pf} {queue : LaNo} {value : W32} {s : State} (hg : Kept qu s) :
    KeptR qu (execLaDescProdWrite pf queue value s) := by
  unfold execLaDescProdWrite
  with_reducible repeat' first | assumption | apply keptR_next | apply setLa_kept | refine kept_ite ?_ ?_

theorem laRingErr_kept {n : Nat} {s : State} (hg : Kept qu s) : Kept qu (laRingErr n s) := by
  unfold laRingErr
  with_reducible repeat' first | assumption | apply setLa_kept

theorem laUse_kept {n : Nat} {w : LaWork} {s : State} (hg : Kept qu s) : Kept qu (laUse n w s).2 := by
  unfold laUse
  repeat' first
    | with_reducible assumption | with_reducible apply useG_kept | with_reducible apply raise_kept | split
    | with_reducible (refine kept_snd (by with_reducible assumption) ?_)

theorem laContext_kept {n : Nat} {w : LaWork} {s : State} (hg : Kept qu s) : Kept qu (laContext n w s).2 := by
  unfold laContext
  repeat' first
    | with_reducible assumption | with_reducible apply bufRead_kept | with_reducible apply readInternal_kept | split
    | with_reducible (refine kept_snd (by with_reducible assumption) ?_)

theorem laCheck_kept {n : Nat} {w : LaWork} {s : State} (hg : Kept qu s) : Kept qu (laCheck n w s).2 := by
  unfold laCheck
  repeat' first
    | with_reducible assumption | extract_lets | with_reducible apply draw_kept | with_reducible apply laUse_kept
    | with_reducible apply laContext_kept | with_reducible apply done_kept | split
    | with_reducible (refine kept_snd (by with_reducible assumption) ?_) | with_reducible (refine kept_mk ?_ rfl rfl rfl)

theorem laFetch_kept {n : Nat} {s : State} (hg : Kept qu s) : Kept qu (laFetch n s) := by
  unfold laFetch
  repeat' first
    | with_reducible assumption | extract_lets | with_reducible apply setLa_kept | with_reducible apply takeGranules_kept
    | with_reducible apply laCheck_kept | with_reducible apply laRingErr_kept | with_reducible apply bufRead_kept | split
    | with_reducible (refine kept_snd (by with_reducible assumption) ?_) | with_reducible (refine kept_mk ?_ rfl rfl rfl)

theorem execLaDescriptorFetch_kept {queue : Met LaNo Ecc} {s : State} (hg : Kept qu s) :
    KeptR qu (execLaDescriptorFetch queue s) := by
  unfold execLaDescriptorFetch
  repeat' first
    | with_reducible assumption | extract_lets | with_reducible apply keptR_next | with_reducible apply laFetch_kept
    | with_reducible (refine withEcc_kept ?_ (fun _ _ => ?_)) | split
    | with_reducible (refine kept_snd (by with_reducible assumption) ?_) | with_reducible (refine kept_mk ?_ rfl rfl rfl)

theorem enterChunk_kept {n : Nat} {c : Nat} {a : Nat} {t : Nat} {w : LaWork} {key : Line} {s : State} (hg : Kept qu s) :
    Kept qu (enterChunk n c a t w key s) := by
  unfold enterChunk
  repeat' first
    | with_reducible assumption | extract_lets | with_reducible apply countRequest_kept | with_reducible apply addReq_kept
    | with_reducible apply enqueue_kept | split | with_reducible (refine kept_snd (by with_reducible assumption) ?_)
    | with_reducible (refine kept_mk ?_ rfl rfl rfl)

theorem startChunk_kept {n : Nat} {c : Nat} {w : LaWork} {e : Errs} {s : State} (hg : Kept qu s) : Kept qu (startChunk n c w e s) := by
  unfold startChunk
  repeat' first
    | with_reducible assumption | extract_lets | with_reducible apply enterChunk_kept | with_reducible apply maskOut_kept
    | with_reducible apply looseError_kept | with_reducible apply halt_kept | with_reducible apply countFault_kept
    | with_reducible apply logFault_kept | with_reducible apply readG_kept | with_reducible apply countFix_kept
    | with_reducible apply countEv_kept | with_reducible apply putWork_kept | with_reducible apply bufRead_kept | split
    | with_reducible (refine kept_snd (by with_reducible assumption) ?_) | with_reducible (refine kept_mk ?_ rfl rfl rfl)

theorem execLaChunk_kept {queue : Met LaNo Errs} {s : State} (hg : Kept qu s) : KeptR qu (execLaChunk queue s) := by
  unfold execLaChunk
  repeat' first
    | with_reducible assumption | extract_lets | with_reducible apply keptR_next | with_reducible apply startChunk_kept
    | with_reducible (refine withEcc_kept ?_ (fun _ _ => ?_)) | split
    | with_reducible (refine kept_snd (by with_reducible assumption) ?_) | with_reducible (refine kept_mk ?_ rfl rfl rfl)

theorem laWrite_kept {n : Nat} {w : LaWork} {s : State} (hg : Kept qu s) : Kept qu (laWrite n w s).2 := by
  unfold laWrite
  repeat' first
    | with_reducible assumption | extract_lets | with_reducible apply draw_kept | with_reducible apply readInternal_kept
    | with_reducible apply mpuFault_kept | with_reducible apply bufWrite_kept | split
    | with_reducible (refine kept_snd (by with_reducible assumption) ?_)

theorem laDone_kept {n : Nat} {w : LaWork} {s : State} (hg : Kept qu s) : Kept qu (laDone n w s) := by
  unfold laDone
  with_reducible repeat' first
    | assumption | apply setLa_kept | apply countEv_kept | apply countFix_kept | apply sample_kept | apply raise_kept
    | refine kept_ite ?_ ?_

theorem laFinish_kept {n : Nat} {w : LaWork} {s : State} (hg : Kept qu s) : Kept qu (laFinish n w s) := by
  unfold laFinish
  repeat' first
    | with_reducible assumption | extract_lets | with_reducible apply laRingErr_kept | with_reducible apply laDone_kept
    | with_reducible apply masterWrite_kept | with_reducible apply setLa_kept | with_reducible apply laWrite_kept | split
    | with_reducible (refine kept_snd (by with_reducible assumption) ?_) | with_reducible (refine kept_mk ?_ rfl rfl rfl)

theorem execLaComplete_kept {queue : Met LaNo Errs} {s : State} (hg : Kept qu s) : KeptR qu (execLaComplete queue s) := by
  unfold execLaComplete
  repeat' first
    | with_reducible assumption | extract_lets | with_reducible apply keptR_next | with_reducible apply looseError_kept
    | with_reducible apply laFinish_kept | with_reducible (refine withEcc_kept ?_ (fun _ _ => ?_)) | with_reducible apply halt_kept
    | split | with_reducible (refine kept_snd (by with_reducible assumption) ?_) | with_reducible (refine kept_mk ?_ rfl rfl rfl)

theorem reserve_kept {colour base mask n i need : Nat} {acc : List Slotted} {s : State} (hg : Kept qu s) :
    Kept qu (reserve colour base mask n i need acc s).2 := by
  induction n generalizing i need acc s with
  | zero => exact hg
  | succ n ih =>
    have h1 := masterRead_kept (master := mDma) (colour := colour) (world := 3) (a := base + 16 * i) (n := 16) hg
    simp only [reserve]
    split
    · exact hg
    · split
      · next e => rw [e] at h1; exact ih h1
      · next e => rw [e] at h1; exact h1

theorem reserveFor_kept {r : Nat} {p : Punt} {s : State} (hg : Kept qu s) : Kept qu (reserveFor r p s).2 := by
  unfold reserveFor
  with_reducible repeat' first | assumption | apply reserve_kept

theorem fillBuffers_kept {colour : Nat} {l : List Slotted} {d : Bytes} {s : State} (hg : Kept qu s) :
    Kept qu (fillBuffers colour l d s).2 := by
  induction l generalizing d s with
  | nil => exact hg
  | cons b r ih =>
    have h1 := bufWrite_kept (master := mDma) (colour := colour) (world := 3) (a := b.addr) (d := d.take b.len) hg
    simp only [fillBuffers]
    split
    · next e => rw [e] at h1; exact h1
    · next e =>
      rw [e] at h1
      have h2 := ih (d := d.drop b.len) h1
      split
      · next e2 => rw [e2] at h2; exact h2
      · next e2 => rw [e2] at h2; exact h2

theorem writeBack_kept {colour base first last : Nat} {l : List (Nat × Nat)} {s : State} (hg : Kept qu s) :
    Kept qu (writeBack colour base first last l s).2 := by
  induction l generalizing s with
  | nil => exact hg
  | cons p r ih =>
    have h1 := masterWrite_kept (master := mDma) (colour := colour) (world := 3) (a := base + 16 * p.1 + 10)
      (d := leBytes 2 p.2 ++ leBytes 2 (b01 (p.1 == first) + 2 * b01 (p.1 == last) + 0x8000)) hg
    simp only [writeBack]
    split
    · next e => rw [e] at h1; exact ih h1
    · next e => rw [e] at h1; exact h1

theorem popPunt_kept {r : Nat} {s : State} (hg : Kept qu s) : Kept qu (popPunt r s) := by
  unfold popPunt
  with_reducible repeat' first | assumption | apply setRing_kept

theorem deliverPunt_kept {r : Nat} {p : Punt} {l : List Slotted} {s : State} (hg : Kept qu s) : Kept qu (deliverPunt r p l s) := by
  unfold deliverPunt
  repeat' first
    | with_reducible assumption | extract_lets | with_reducible apply fillBuffers_kept | with_reducible apply ringRefused_kept
    | with_reducible apply popPunt_kept | with_reducible apply writeBack_kept | with_reducible apply ringAdvance_kept
    | with_reducible apply countEv_kept | with_reducible apply countFix_kept | split
    | with_reducible (refine kept_snd (by with_reducible assumption) ?_)

theorem puntParity_kept {r : Nat} {p : Punt} {e : Errs} {s : State} (hg : Kept qu s) : Kept qu (puntParity r p e s) := by
  unfold puntParity
  repeat' first
    | with_reducible assumption | extract_lets | with_reducible apply looseError_kept | with_reducible apply popPunt_kept
    | with_reducible apply sump_kept | split | with_reducible (refine kept_snd (by with_reducible assumption) ?_)
    | with_reducible (refine kept_mk ?_ rfl rfl rfl)

theorem puntReserve_kept {r : Nat} {p : Punt} {s : State} (hg : Kept qu s) : Kept qu (puntReserve r p s) := by
  unfold puntReserve
  repeat' first
    | with_reducible assumption | extract_lets | with_reducible apply popPunt_kept | with_reducible apply ringRefused_kept
    | with_reducible apply setRing_kept | with_reducible apply reserveFor_kept | split
    | with_reducible (refine kept_snd (by with_reducible assumption) ?_) | with_reducible (refine kept_mk ?_ rfl rfl rfl)

theorem puntNext_kept {r : Nat} {p : Punt} {s : State} (hg : Kept qu s) : Kept qu (puntNext r p s) := by
  unfold puntNext
  repeat' first
    | with_reducible assumption | extract_lets | with_reducible apply deliverPunt_kept | with_reducible apply puntReserve_kept | split
    | with_reducible (refine kept_snd (by with_reducible assumption) ?_) | with_reducible (refine kept_mk ?_ rfl rfl rfl)

theorem execRingProdWrite_kept {pf : Pf} {ring : RingNo} {value : W32} {s : State} (hg : Kept qu s) :
    KeptR qu (execRingProdWrite pf ring value s) := by
  unfold execRingProdWrite
  repeat' first
    | with_reducible assumption | extract_lets | with_reducible apply keptR_next | with_reducible apply puntReserve_kept
    | with_reducible apply setRing_kept | split | with_reducible (refine kept_snd (by with_reducible assumption) ?_)
    | with_reducible (refine kept_mk ?_ rfl rfl rfl)

theorem execPuntDeliver_kept {ring : RingNo} {errs : Errs} {s : State} (hg : Kept qu s) : KeptR qu (execPuntDeliver ring errs s) := by
  unfold execPuntDeliver
  repeat' first
    | with_reducible assumption | extract_lets | with_reducible apply keptR_next | with_reducible apply puntNext_kept
    | with_reducible (refine withEcc_kept ?_ (fun _ _ => ?_)) | with_reducible apply puntParity_kept | with_reducible apply halt_kept
    | split | with_reducible (refine kept_snd (by with_reducible assumption) ?_) | with_reducible (refine kept_mk ?_ rfl rfl rfl)

theorem execRingStarve_kept {ring : RingNo} {s : State} (hg : Kept qu s) : KeptR qu (execRingStarve ring s) := by
  unfold execRingStarve
  repeat' first
    | with_reducible assumption | extract_lets | with_reducible apply keptR_next | with_reducible apply countFix_kept
    | with_reducible apply ringDrop_kept | with_reducible apply popPunt_kept | with_reducible apply raise_kept | split

theorem takeTx_kept {r : Nat} {s : State} (hg : Kept qu s) : Kept qu (takeTx r s) := by
  unfold takeTx
  with_reducible repeat' first | assumption | apply setRing_kept

theorem sendTx_kept {r : Nat} {i : Nat} {d : Bytes} {b : Bytes} {s : State} (hg : Kept qu s) : Kept qu (sendTx r i d b s) := by
  unfold sendTx
  with_reducible repeat' first
    | assumption | apply takeTx_kept | apply txDone_kept | apply sump_kept | apply queueCtl_kept | apply addMgmt_kept
    | refine kept_ite ?_ ?_

theorem txTake_kept {r : Nat} {s : State} (hg : Kept qu s) : Kept qu (txTake r s) := by
  unfold txTake
  repeat' first
    | with_reducible assumption | extract_lets | with_reducible apply sendTx_kept | with_reducible apply ringRefused_kept
    | with_reducible apply bufRead_kept | with_reducible apply takeTx_kept | with_reducible apply txDone_kept
    | with_reducible apply masterRead_kept | split | with_reducible (refine kept_snd (by with_reducible assumption) ?_)
    | with_reducible (refine kept_mk ?_ rfl rfl rfl)

theorem execTxDescriptor_kept {ring : Met RingNo Ecc} {s : State} (hg : Kept qu s) : KeptR qu (execTxDescriptor ring s) := by
  unfold execTxDescriptor
  repeat' first
    | with_reducible assumption | extract_lets | with_reducible apply keptR_next | with_reducible apply txTake_kept
    | with_reducible (refine withEcc_kept ?_ (fun _ _ => ?_)) | split
    | with_reducible (refine kept_snd (by with_reducible assumption) ?_) | with_reducible (refine kept_mk ?_ rfl rfl rfl)

theorem execIrqRearm_kept {pf : Pf} {vector : VecNo} {s : State} (hg : Kept qu s) : KeptR qu (execIrqRearm pf vector s) := by
  unfold execIrqRearm
  with_reducible repeat' first | assumption | apply keptR_next | apply sendIfDue_kept | apply onIrq_kept | refine kept_ite ?_ ?_

theorem execIrqMapWrite_kept {pf : Pf} {event : Nat} {value : W32} {s : State} (hg : Kept qu s) :
    KeptR qu (execIrqMapWrite pf event value s) := by
  unfold execIrqMapWrite
  with_reducible repeat' first | assumption | apply keptR_next | apply onIrq_kept | apply sendIfDue_kept | refine kept_ite ?_ ?_

theorem unmask_kept {v : Nat} {s : State} (hg : Kept qu s) : Kept qu (unmask v s) := by
  unfold unmask
  with_reducible repeat' first | assumption | apply onIrq_kept | apply emit_kept | refine kept_ite ?_ ?_

theorem execMsixUnmask_kept {vector : VecNo} {s : State} (hg : Kept qu s) : KeptR qu (execMsixUnmask vector s) := by
  unfold execMsixUnmask
  with_reducible repeat' first | assumption | apply keptR_next | apply unmask_kept | refine kept_ite ?_ ?_

theorem execMsixEnable_kept {s : State} (hg : Kept qu s) : KeptR qu (execMsixEnable s) := by
  unfold execMsixEnable
  with_reducible repeat' first
    | assumption | refine kept_foldl ?_ (fun _ _ _ => ?_) | apply keptR_next | apply sendIfDue_kept | apply onIrq_kept
    | refine kept_ite ?_ ?_

theorem writeMbx_kept {o : Nat} {v : Nat} {s : State} (hg : Kept qu s) : Kept qu (writeMbx o v s) := by
  unfold writeMbx
  with_reducible repeat' first | assumption | apply setMbx_kept | refine kept_ite ?_ ?_

theorem writeDp_kept {o : Nat} {v : Nat} {s : State} (hg : Kept qu s) : Kept qu (writeDp o v s) := by
  unfold writeDp
  repeat' first
    | with_reducible assumption | extract_lets | with_reducible apply onDp_kept | split

theorem writeIrq_kept {o : Nat} {v : Nat} {s : State} (hg : Kept qu s) : Kept qu (writeIrq o v s) := by
  unfold writeIrq
  with_reducible repeat' first | assumption | apply onIrq_kept | refine kept_ite ?_ ?_

theorem writeTime_kept {o : Nat} {v : Nat} {s : State} (hg : Kept qu s) : Kept qu (writeTime o v s) := by
  unfold writeTime
  repeat' first
    | with_reducible assumption | with_reducible (refine onTime_kept ?_ rfl) | split

theorem writePmu_kept {o : Nat} {v : Nat} {s : State} (hg : Kept qu s) : Kept qu (writePmu o v s) := by
  unfold writePmu
  repeat' first
    | with_reducible assumption | with_reducible apply putWake_kept | with_reducible apply onPmu_kept | split

theorem writeStp_kept {o : Nat} {v : Nat} {s : State} (hg : Kept qu s) : Kept qu (writeStp o v s) := by
  unfold writeStp
  with_reducible repeat' first | assumption | apply onStp_kept | refine kept_ite ?_ ?_

theorem writeRegion_kept {n : Nat} {f : Nat} {v : Nat} {s : State} (hg : Kept qu s) : Kept qu (writeRegion n f v s) := by
  unfold writeRegion
  with_reducible repeat' first | assumption | refine onMem_kept ?_ rfl | refine kept_ite ?_ ?_

theorem writeMpu_kept {o : Nat} {v : Nat} {s : State} (hg : Kept qu s) : Kept qu (writeMpu o v s) := by
  unfold writeMpu
  repeat' first
    | with_reducible assumption | with_reducible apply writeRegion_kept | with_reducible (refine onMem_kept ?_ rfl) | split

theorem writeIme_kept {o : Nat} {v : Nat} {s : State} (hg : Kept qu s) : Kept qu (writeIme o v s) := by
  unfold writeIme
  with_reducible repeat' first | assumption | refine onMem_kept ?_ rfl | refine kept_ite ?_ ?_

theorem writeRing_kept {r : Nat} {o : Nat} {v : Nat} {s : State} (hg : Kept qu s) : Kept qu (writeRing r o v s) := by
  unfold writeRing
  repeat' first
    | with_reducible assumption | extract_lets | with_reducible apply ringStopped_kept | with_reducible apply setRing_kept | split

theorem writeLa_kept {o : Nat} {v : Nat} {s : State} (hg : Kept qu s) : Kept qu (writeLa o v s) := by
  unfold writeLa
  repeat' first
    | with_reducible assumption | extract_lets | with_reducible apply setLa_kept | split

theorem writePerf_kept {o : Nat} {v : Nat} {s : State} (hg : Kept qu s) : Kept qu (writePerf o v s) := by
  unfold writePerf
  with_reducible repeat' first | assumption | apply onPerf_kept | refine kept_ite ?_ ?_

theorem writeTsq_kept {q : Nat} {o : Nat} {v : Nat} {s : State} (hg : Kept qu s) : Kept qu (writeTsq q o v s) := by
  unfold writeTsq
  repeat' first
    | with_reducible assumption | with_reducible apply setTsq_kept | split

theorem writeOn_kept {o : Nat} {v : Nat} {s : State} (hg : Kept qu s) : Kept qu (writeOn o v s) := by
  unfold writeOn
  with_reducible repeat' first
    | assumption | apply writeMbx_kept | apply writeDp_kept | apply writeIrq_kept | apply writeTime_kept | apply writePmu_kept
    | apply writeStp_kept | apply writeMpu_kept | apply writeIme_kept | apply writeRing_kept | apply writeLa_kept | apply writePerf_kept
    | apply writeTsq_kept | refine kept_ite ?_ ?_

theorem execRegisterWrite_kept {pf : Pf} {offset : Nat} {value : W32} {s : State} (hg : Kept qu s) :
    KeptR qu (execRegisterWrite pf offset value s) := by
  unfold execRegisterWrite
  with_reducible repeat' first | assumption | apply keptR_next | apply writeOn_kept | refine kept_ite ?_ ?_

theorem execOffDomainAccess_kept {pf : Pf} {offset : Nat} {write : Bool} {s : State} (hg : Kept qu s) :
    KeptR qu (execOffDomainAccess pf offset write s) := by
  unfold execOffDomainAccess
  repeat' first
    | with_reducible assumption | extract_lets | with_reducible apply keptR_next | with_reducible apply emit_kept
    | with_reducible apply countFault_kept | with_reducible apply logFault_kept | with_reducible apply onPmu_kept | split
    | with_reducible (refine kept_snd (by with_reducible assumption) ?_) | with_reducible (refine kept_mk ?_ rfl rfl rfl)

theorem execI2cWrite_kept {bytes : Bytes} {s : State} (hg : Kept qu s) : KeptR qu (execI2cWrite bytes s) := by
  unfold execI2cWrite
  repeat' first
    | with_reducible assumption | with_reducible apply keptR_next | with_reducible apply onI2c_kept | split

theorem execI2cRead_kept {count : Nat} {s : State} (hg : Kept qu s) : KeptR qu (execI2cRead count s) := by
  unfold execI2cRead
  with_reducible repeat' first | assumption | apply keptR_next | apply emit_kept | apply onI2c_kept | refine kept_ite ?_ ?_

theorem execI2cSnapshot_kept {s : State} (hg : Kept qu s) : KeptR qu (execI2cSnapshot s) := by
  unfold execI2cSnapshot
  with_reducible repeat' first | assumption | apply keptR_next | apply onI2c_kept | refine kept_ite ?_ ?_

theorem ring_kept {mb : Mb} {s : State} (hg : Kept qu s) : Kept qu (ring mb s) := by
  unfold ring
  repeat' first
    | with_reducible assumption | extract_lets | with_reducible apply useSession_kept | with_reducible apply setMbx_kept
    | with_reducible apply refuse_kept | with_reducible apply answer_kept | with_reducible apply done_kept
    | with_reducible apply onGlb_kept | split | with_reducible (refine kept_snd (by with_reducible assumption) ?_)
    | with_reducible (refine kept_mk ?_ rfl rfl rfl)

theorem execMailboxDoorbell_kept {pf : Pf} {mb : Mb} {s : State} (hg : Kept qu s) : KeptR qu (execMailboxDoorbell pf mb s) := by
  unfold execMailboxDoorbell
  with_reducible repeat' first | assumption | apply keptR_next | apply setMbx_kept | apply ring_kept | refine kept_ite ?_ ?_

end Sys2Proof.Machine
end

