-- ==== Sys2Proof/Laws/InvariantExec.lean ====
section
/-! SUPPORT. Every command keeps `StepInv`, and leaves the queue as it finds it. -/

namespace Sys2Proof.Machine

open Sys2Proof Sys2Proof.Safety

variable {qu : List Instr}

theorem exec_kept {i : Instr} {s : State} (hg : Kept qu s) : KeptR qu (exec i s) := by
  cases i with
  | sysStatus x0 => exact show KeptR qu (execSysStatus x0 s) from execSysStatus_kept hg
  | sysMode x0 x1 => exact show KeptR qu (execSysMode x0 x1 s) from execSysMode_kept hg
  | sysLifecycle x0 x1 x2 => exact show KeptR qu (execSysLifecycle x0 x1 x2 s) from execSysLifecycle_kept hg
  | sysReset x0 x1 => exact show KeptR qu (execSysReset x0 x1 s) from execSysReset_kept hg
  | sysHalt x0 x1 => exact show KeptR qu (execSysHalt x0 x1 s) from execSysHalt_kept hg
  | sysTimeStep x0 x1 x2 x3 => exact show KeptR qu (execSysTimeStep x0 x1 x2 x3 s) from execSysTimeStep_kept hg
  | sysPatchLoad x0 x1 x2 x3 => exact show KeptR qu (execSysPatchLoad x0 x1 x2 x3 s) from execSysPatchLoad_kept hg
  | sysPatchInfo x0 => exact show KeptR qu (execSysPatchInfo x0 s) from execSysPatchInfo_kept hg
  | authOpen x0 x1 x2 => exact show KeptR qu (execAuthOpen x0 x1 x2 s) from execAuthOpen_kept hg
  | authProve x0 x1 => exact show KeptR qu (execAuthProve x0 x1 s) from execAuthProve_kept hg
  | authClose x0 => exact show KeptR qu (execAuthClose x0 s) from execAuthClose_kept hg
  | objGet x0 x1 => exact show KeptR qu (execObjGet x0 x1 s) from execObjGet_kept hg
  | objSet x0 x1 => exact show KeptR qu (execObjSet x0 x1 s) from execObjSet_kept hg
  | objBulkRead x0 x1 => exact show KeptR qu (execObjBulkRead x0 x1 s) from execObjBulkRead_kept hg
  | objBulkWrite x0 x1 => exact show KeptR qu (execObjBulkWrite x0 x1 s) from execObjBulkWrite_kept hg
  | keyIdentity x0 x1 x2 => exact show KeptR qu (execKeyIdentity x0 x1 x2 s) from execKeyIdentity_kept hg
  | keyImport x0 x1 x2 x3 => exact show KeptR qu (execKeyImport x0 x1 x2 x3 s) from execKeyImport_kept hg
  | keyGenerate x0 x1 x2 x3 => exact show KeptR qu (execKeyGenerate x0 x1 x2 x3 s) from execKeyGenerate_kept hg
  | keyDerive x0 x1 => exact show KeptR qu (execKeyDerive x0 x1 s) from execKeyDerive_kept hg
  | keyWrap x0 x1 x2 x3 x4 => exact show KeptR qu (execKeyWrap x0 x1 x2 x3 x4 s) from execKeyWrap_kept hg
  | keyUnwrap x0 x1 x2 x3 x4 => exact show KeptR qu (execKeyUnwrap x0 x1 x2 x3 x4 s) from execKeyUnwrap_kept hg
  | keyRestrict x0 x1 x2 x3 => exact show KeptR qu (execKeyRestrict x0 x1 x2 x3 s) from execKeyRestrict_kept hg
  | keyDestroy x0 x1 x2 => exact show KeptR qu (execKeyDestroy x0 x1 x2 s) from execKeyDestroy_kept hg
  | keyZeroize x0 x1 => exact show KeptR qu (execKeyZeroize x0 x1 s) from execKeyZeroize_kept hg
  | chanCreate x0 x1 => exact show KeptR qu (execChanCreate x0 x1 s) from execChanCreate_kept hg
  | chanSet x0 x1 => exact show KeptR qu (execChanSet x0 x1 s) from execChanSet_kept hg
  | chanEnable x0 x1 => exact show KeptR qu (execChanEnable x0 x1 s) from execChanEnable_kept hg
  | chanDisable x0 x1 => exact show KeptR qu (execChanDisable x0 x1 s) from execChanDisable_kept hg
  | chanSwitch x0 x1 => exact show KeptR qu (execChanSwitch x0 x1 s) from execChanSwitch_kept hg
  | chanMap x0 x1 x2 => exact show KeptR qu (execChanMap x0 x1 x2 s) from execChanMap_kept hg
  | chanUnmap x0 x1 => exact show KeptR qu (execChanUnmap x0 x1 s) from execChanUnmap_kept hg
  | caCreate x0 x1 x2 x3 => exact show KeptR qu (execCaCreate x0 x1 x2 x3 s) from execCaCreate_kept hg
  | caSet x0 x1 => exact show KeptR qu (execCaSet x0 x1 s) from execCaSet_kept hg
  | caRekey x0 x1 x2 => exact show KeptR qu (execCaRekey x0 x1 x2 s) from execCaRekey_kept hg
  | caDelete x0 x1 => exact show KeptR qu (execCaDelete x0 x1 s) from execCaDelete_kept hg
  | linkSet x0 x1 => exact show KeptR qu (execLinkSet x0 x1 s) from execLinkSet_kept hg
  | linkRestart x0 x1 => exact show KeptR qu (execLinkRestart x0 x1 s) from execLinkRestart_kept hg
  | schedPolicer x0 x1 => exact show KeptR qu (execSchedPolicer x0 x1 s) from execSchedPolicer_kept hg
  | schedShaper x0 x1 => exact show KeptR qu (execSchedShaper x0 x1 s) from execSchedShaper_kept hg
  | schedWeight x0 x1 => exact show KeptR qu (execSchedWeight x0 x1 s) from execSchedWeight_kept hg
  | schedGateLoad x0 x1 x2 x3 x4 x5 => exact show KeptR qu (execSchedGateLoad x0 x1 x2 x3 x4 x5 s) from execSchedGateLoad_kept hg
  | schedGateCommit x0 x1 x2 x3 => exact show KeptR qu (execSchedGateCommit x0 x1 x2 x3 s) from execSchedGateCommit_kept hg
  | schedGateCancel x0 x1 => exact show KeptR qu (execSchedGateCancel x0 x1 s) from execSchedGateCancel_kept hg
  | pairBind x0 x1 x2 => exact show KeptR qu (execPairBind x0 x1 x2 s) from execPairBind_kept hg
  | pairUnbind x0 => exact show KeptR qu (execPairUnbind x0 s) from execPairUnbind_kept hg
  | pairSolo x0 => exact show KeptR qu (execPairSolo x0 s) from execPairSolo_kept hg
  | pairHandover x0 => exact show KeptR qu (execPairHandover x0 s) from execPairHandover_kept hg
  | pairSet x0 x1 => exact show KeptR qu (execPairSet x0 x1 s) from execPairSet_kept hg
  | clTest x0 x1 => exact show KeptR qu (execClTest x0 x1 s) from execClTest_kept hg
  | pmuSet x0 x1 => exact show KeptR qu (execPmuSet x0 x1 s) from execPmuSet_kept hg
  | calRead x0 x1 x2 => exact show KeptR qu (execCalRead x0 x1 x2 s) from execCalRead_kept hg
  | calWrite x0 x1 x2 => exact show KeptR qu (execCalWrite x0 x1 x2 s) from execCalWrite_kept hg
  | calHbmTest x0 x1 => exact show KeptR qu (execCalHbmTest x0 x1 s) from execCalHbmTest_kept hg
  | calSerdes x0 x1 => exact show KeptR qu (execCalSerdes x0 x1 s) from execCalSerdes_kept hg
  | logTamper x0 x1 x2 => exact show KeptR qu (execLogTamper x0 x1 x2 s) from execLogTamper_kept hg
  | logFaults x0 x1 x2 => exact show KeptR qu (execLogFaults x0 x1 x2 s) from execLogFaults_kept hg
  | laReset x0 x1 => exact show KeptR qu (execLaReset x0 x1 s) from execLaReset_kept hg
  | perfSet x0 x1 => exact show KeptR qu (execPerfSet x0 x1 s) from execPerfSet_kept hg
  | perfSumpRead x0 x1 x2 x3 => exact show KeptR qu (execPerfSumpRead x0 x1 x2 x3 s) from execPerfSumpRead_kept hg
  | dpClaim x0 => exact show KeptR qu (execDpClaim x0 s) from execDpClaim_kept hg
  | dpRelease x0 => exact show KeptR qu (execDpRelease x0 s) from execDpRelease_kept hg
  | mailboxDoorbell x0 x1 => exact show KeptR qu (execMailboxDoorbell x0 x1 s) from execMailboxDoorbell_kept hg
  | mailboxReqWrite x0 x1 x2 x3 => exact show KeptR qu (execMailboxReqWrite x0 x1 x2 x3 s) from execMailboxReqWrite_kept hg
  | mailboxResponse x0 => exact show KeptR qu (execMailboxResponse x0 s) from execMailboxResponse_kept hg
  | sessionIdleExpire x0 => exact show KeptR qu (execSessionIdleExpire x0 s) from execSessionIdleExpire_kept hg
  | timeNowRead x0 => exact show KeptR qu (execTimeNowRead x0 s) from execTimeNowRead_kept hg
  | rtcRead x0 => exact show KeptR qu (execRtcRead x0 s) from execRtcRead_kept hg
  | timeIncrWrite x0 x1 => exact show KeptR qu (execTimeIncrWrite x0 x1 s) from execTimeIncrWrite_kept hg
  | stepGo x0 x1 => exact show KeptR qu (execStepGo x0 x1 s) from execStepGo_kept hg
  | stepArm x0 x1 => exact show KeptR qu (execStepArm x0 x1 s) from execStepArm_kept hg
  | stepCancel x0 x1 => exact show KeptR qu (execStepCancel x0 x1 s) from execStepCancel_kept hg
  | stepLapse => exact show KeptR qu (execStepLapse s) from execStepLapse_kept hg
  | tsqPop x0 x1 => exact show KeptR qu (execTsqPop x0 x1 s) from execTsqPop_kept hg
  | ppsInEdge => exact show KeptR qu (execPpsInEdge s) from execPpsInEdge_kept hg
  | todReceive x0 x1 => exact show KeptR qu (execTodReceive x0 x1 s) from execTodReceive_kept hg
  | secondBoundary => exact show KeptR qu (execSecondBoundary s) from execSecondBoundary_kept hg
  | ppsOutFall => exact show KeptR qu (execPpsOutFall s) from execPpsOutFall_kept hg
  | todSend => exact show KeptR qu (execTodSend s) from execTodSend_kept hg
  | pmuDomReqRet x0 x1 x2 x3 => exact show KeptR qu (execPmuDomReqRet x0 x1 x2 x3 s) from execPmuDomReqRet_kept hg
  | pmuDomReqOff x0 x1 x2 x3 => exact show KeptR qu (execPmuDomReqOff x0 x1 x2 x3 s) from execPmuDomReqOff_kept hg
  | pmuDomReqOn x0 x1 x2 => exact show KeptR qu (execPmuDomReqOn x0 x1 x2 s) from execPmuDomReqOn_kept hg
  | domainChangeDone x0 => exact show KeptR qu (execDomainChangeDone x0 s) from execDomainChangeDone_kept hg
  | domainWakeDone x0 => exact show KeptR qu (execDomainWakeDone x0 s) from execDomainWakeDone_kept hg
  | offDomainAccess x0 x1 x2 => exact show KeptR qu (execOffDomainAccess x0 x1 x2 s) from execOffDomainAccess_kept hg
  | paceLimitWrite x0 x1 => exact show KeptR qu (execPaceLimitWrite x0 x1 s) from execPaceLimitWrite_kept hg
  | avsTargetWrite x0 x1 x2 => exact show KeptR qu (execAvsTargetWrite x0 x1 x2 s) from execAvsTargetWrite_kept hg
  | avsLowerIssue x0 => exact show KeptR qu (execAvsLowerIssue x0 s) from execAvsLowerIssue_kept hg
  | avsConfirm => exact show KeptR qu (execAvsConfirm s) from execAvsConfirm_kept hg
  | avsTelemetry x0 x1 x2 x3 => exact show KeptR qu (execAvsTelemetry x0 x1 x2 x3 s) from execAvsTelemetry_kept hg
  | meterRound x0 => exact show KeptR qu (execMeterRound x0 s) from execMeterRound_kept hg
  | paceDispFollow => exact show KeptR qu (execPaceDispFollow s) from execPaceDispFollow_kept hg
  | downshiftEval x0 => exact show KeptR qu (execDownshiftEval x0 s) from execDownshiftEval_kept hg
  | sagWarn x0 => exact show KeptR qu (execSagWarn x0 s) from execSagWarn_kept hg
  | sagWarnClear => exact show KeptR qu (execSagWarnClear s) from execSagWarnClear_kept hg
  | sagReset => exact show KeptR qu (execSagReset s) from execSagReset_kept hg
  | mainPowerLost => exact show KeptR qu (execMainPowerLost s) from execMainPowerLost_kept hg
  | mainPowerBack => exact show KeptR qu (execMainPowerBack s) from execMainPowerBack_kept hg
  | powerOn => exact show KeptR qu (execPowerOn s) from execPowerOn_kept hg
  | resetNRecognised => exact show KeptR qu (execResetNRecognised s) from execResetNRecognised_kept hg
  | resetEffect => exact show KeptR qu (execResetEffect s) from execResetEffect_kept hg
  | resetRelease x0 => exact show KeptR qu (execResetRelease x0 s) from execResetRelease_kept hg
  | bootEnd => exact show KeptR qu (execBootEnd s) from execBootEnd_kept hg
  | serviceEntry => exact show KeptR qu (execServiceEntry s) from execServiceEntry_kept hg
  | glbResetCold x0 x1 => exact show KeptR qu (execGlbResetCold x0 x1 s) from execGlbResetCold_kept hg
  | glbResetWarm x0 x1 => exact show KeptR qu (execGlbResetWarm x0 x1 s) from execGlbResetWarm_kept hg
  | pcieFlr x0 => exact show KeptR qu (execPcieFlr x0 s) from execPcieFlr_kept hg
  | pcieHotReset => exact show KeptR qu (execPcieHotReset s) from execPcieHotReset_kept hg
  | fuseProgramDone => exact show KeptR qu (execFuseProgramDone s) from execFuseProgramDone_kept hg
  | refclkSysLost => exact show KeptR qu (execRefclkSysLost s) from execRefclkSysLost_kept hg
  | refclkSgLost x0 => exact show KeptR qu (execRefclkSgLost x0 s) from execRefclkSgLost_kept hg
  | hostFrameReceive x0 x1 x2 x3 => exact show KeptR qu (execHostFrameReceive x0 x1 x2 x3 s) from execHostFrameReceive_kept hg
  | lineFrameReceive x0 x1 x2 => exact show KeptR qu (execLineFrameReceive x0 x1 x2 s) from execLineFrameReceive_kept hg
  | replayRecheck x0 => exact show KeptR qu (execReplayRecheck x0 s) from execReplayRecheck_kept hg
  | cellReceive x0 x1 => exact show KeptR qu (execCellReceive x0 x1 s) from execCellReceive_kept hg
  | sealedFrameClose x0 => exact show KeptR qu (execSealedFrameClose x0 s) from execSealedFrameClose_kept hg
  | announceReceive x0 => exact show KeptR qu (execAnnounceReceive x0 s) from execAnnounceReceive_kept hg
  | heartbeatReceive x0 => exact show KeptR qu (execHeartbeatReceive x0 s) from execHeartbeatReceive_kept hg
  | rdiReceive x0 => exact show KeptR qu (execRdiReceive x0 s) from execRdiReceive_kept hg
  | ptpSegmentReceive x0 => exact show KeptR qu (execPtpSegmentReceive x0 s) from execPtpSegmentReceive_kept hg
  | dlodSet x0 => exact show KeptR qu (execDlodSet x0 s) from execDlodSet_kept hg
  | dlodClear x0 => exact show KeptR qu (execDlodClear x0 s) from execDlodClear_kept hg
  | dlhbSet x0 => exact show KeptR qu (execDlhbSet x0 s) from execDlhbSet_kept hg
  | drdiClear x0 => exact show KeptR qu (execDrdiClear x0 s) from execDrdiClear_kept hg
  | cellTransmit x0 => exact show KeptR qu (execCellTransmit x0 s) from execCellTransmit_kept hg
  | epochKeyDerive x0 => exact show KeptR qu (execEpochKeyDerive x0 s) from execEpochKeyDerive_kept hg
  | epochChange x0 => exact show KeptR qu (execEpochChange x0 s) from execEpochChange_kept hg
  | epochEnd x0 => exact show KeptR qu (execEpochEnd x0 s) from execEpochEnd_kept hg
  | announceSend x0 => exact show KeptR qu (execAnnounceSend x0 s) from execAnnounceSend_kept hg
  | heartbeatSend x0 => exact show KeptR qu (execHeartbeatSend x0 s) from execHeartbeatSend_kept hg
  | rdiSend x0 => exact show KeptR qu (execRdiSend x0 s) from execRdiSend_kept hg
  | pumpRelease x0 => exact show KeptR qu (execPumpRelease x0 s) from execPumpRelease_kept hg
  | requestDispatch x0 x1 x2 => exact show KeptR qu (execRequestDispatch x0 x1 x2 s) from execRequestDispatch_kept hg
  | expressSuspend x0 => exact show KeptR qu (execExpressSuspend x0 s) from execExpressSuspend_kept hg
  | requestComplete x0 => exact show KeptR qu (execRequestComplete x0 s) from execRequestComplete_kept hg
  | clusterFault x0 => exact show KeptR qu (execClusterFault x0 s) from execClusterFault_kept hg
  | handshakeTimeout x0 => exact show KeptR qu (execHandshakeTimeout x0 s) from execHandshakeTimeout_kept hg
  | spareKatDone x0 x1 => exact show KeptR qu (execSpareKatDone x0 x1 s) from execSpareKatDone_kept hg
  | rotationStep => exact show KeptR qu (execRotationStep s) from execRotationStep_kept hg
  | clusterTestDone x0 x1 => exact show KeptR qu (execClusterTestDone x0 x1 s) from execClusterTestDone_kept hg
  | rotationResume => exact show KeptR qu (execRotationResume s) from execRotationResume_kept hg
  | transmitStart x0 x1 => exact show KeptR qu (execTransmitStart x0 x1 s) from execTransmitStart_kept hg
  | gateEntry x0 => exact show KeptR qu (execGateEntry x0 s) from execGateEntry_kept hg
  | gateSwap x0 => exact show KeptR qu (execGateSwap x0 s) from execGateSwap_kept hg
  | launch x0 => exact show KeptR qu (execLaunch x0 s) from execLaunch_kept hg
  | spillWrite x0 x1 => exact show KeptR qu (execSpillWrite x0 x1 s) from execSpillWrite_kept hg
  | spillReturn x0 x1 => exact show KeptR qu (execSpillReturn x0 x1 s) from execSpillReturn_kept hg
  | linkDown x0 => exact show KeptR qu (execLinkDown x0 s) from execLinkDown_kept hg
  | quarantineTest x0 x1 => exact show KeptR qu (execQuarantineTest x0 x1 s) from execQuarantineTest_kept hg
  | classEntryRewrite x0 => exact show KeptR qu (execClassEntryRewrite x0 s) from execClassEntryRewrite_kept hg
  | chanDrainDone x0 => exact show KeptR qu (execChanDrainDone x0 s) from execChanDrainDone_kept hg
  | slotRetire x0 => exact show KeptR qu (execSlotRetire x0 s) from execSlotRetire_kept hg
  | mkpduReceive x0 x1 => exact show KeptR qu (execMkpduReceive x0 x1 s) from execMkpduReceive_kept hg
  | mkpduSend x0 => exact show KeptR qu (execMkpduSend x0 s) from execMkpduSend_kept hg
  | peerLifeExpire x0 x1 => exact show KeptR qu (execPeerLifeExpire x0 x1 s) from execPeerLifeExpire_kept hg
  | rekeyInterval x0 => exact show KeptR qu (execRekeyInterval x0 s) from execRekeyInterval_kept hg
  | rekeyStart x0 => exact show KeptR qu (execRekeyStart x0 s) from execRekeyStart_kept hg
  | zeroizeComplete => exact show KeptR qu (execZeroizeComplete s) from execZeroizeComplete_kept hg
  | lockstepMismatch => exact show KeptR qu (execLockstepMismatch s) from execLockstepMismatch_kept hg
  | masterAccess x0 x1 => exact show KeptR qu (execMasterAccess x0 x1 s) from execMasterAccess_kept hg
  | mpuHold x0 => exact show KeptR qu (execMpuHold x0 s) from execMpuHold_kept hg
  | mpuDrained => exact show KeptR qu (execMpuDrained s) from execMpuDrained_kept hg
  | mpuRelease x0 => exact show KeptR qu (execMpuRelease x0 s) from execMpuRelease_kept hg
  | mpuHoldLong => exact show KeptR qu (execMpuHoldLong s) from execMpuHoldLong_kept hg
  | imeSweepRequest x0 x1 => exact show KeptR qu (execImeSweepRequest x0 x1 s) from execImeSweepRequest_kept hg
  | imeSweepStart => exact show KeptR qu (execImeSweepStart s) from execImeSweepStart_kept hg
  | imeSweepLine x0 => exact show KeptR qu (execImeSweepLine x0 s) from execImeSweepLine_kept hg
  | imeSweepDone => exact show KeptR qu (execImeSweepDone s) from execImeSweepDone_kept hg
  | imeCeClear x0 => exact show KeptR qu (execImeCeClear x0 s) from execImeCeClear_kept hg
  | maskReseed x0 => exact show KeptR qu (execMaskReseed x0 s) from execMaskReseed_kept hg
  | drbgReseed => exact show KeptR qu (execDrbgReseed s) from execDrbgReseed_kept hg
  | entropyFail => exact show KeptR qu (execEntropyFail s) from execEntropyFail_kept hg
  | entropyHoldExpire => exact show KeptR qu (execEntropyHoldExpire s) from execEntropyHoldExpire_kept hg
  | entropyRecover => exact show KeptR qu (execEntropyRecover s) from execEntropyRecover_kept hg
  | remaskLine x0 x1 => exact show KeptR qu (execRemaskLine x0 x1 s) from execRemaskLine_kept hg
  | drkRemask => exact show KeptR qu (execDrkRemask s) from execDrkRemask_kept hg
  | laDescProdWrite x0 x1 x2 => exact show KeptR qu (execLaDescProdWrite x0 x1 x2 s) from execLaDescProdWrite_kept hg
  | laDescriptorFetch x0 => exact show KeptR qu (execLaDescriptorFetch x0 s) from execLaDescriptorFetch_kept hg
  | laChunk x0 => exact show KeptR qu (execLaChunk x0 s) from execLaChunk_kept hg
  | laComplete x0 => exact show KeptR qu (execLaComplete x0 s) from execLaComplete_kept hg
  | ringProdWrite x0 x1 x2 => exact show KeptR qu (execRingProdWrite x0 x1 x2 s) from execRingProdWrite_kept hg
  | puntDeliver x0 x1 => exact show KeptR qu (execPuntDeliver x0 x1 s) from execPuntDeliver_kept hg
  | ringStarve x0 => exact show KeptR qu (execRingStarve x0 s) from execRingStarve_kept hg
  | txDescriptor x0 => exact show KeptR qu (execTxDescriptor x0 s) from execTxDescriptor_kept hg
  | irqRearm x0 x1 => exact show KeptR qu (execIrqRearm x0 x1 s) from execIrqRearm_kept hg
  | irqMapWrite x0 x1 x2 => exact show KeptR qu (execIrqMapWrite x0 x1 x2 s) from execIrqMapWrite_kept hg
  | msixUnmask x0 => exact show KeptR qu (execMsixUnmask x0 s) from execMsixUnmask_kept hg
  | dpWindowRead x0 x1 => exact show KeptR qu (execDpWindowRead x0 x1 s) from execDpWindowRead_kept hg
  | dpWindowWrite x0 x1 => exact show KeptR qu (execDpWindowWrite x0 x1 s) from execDpWindowWrite_kept hg
  | tmpLogSelWrite x0 x1 => exact show KeptR qu (execTmpLogSelWrite x0 x1 s) from execTmpLogSelWrite_kept hg
  | registerWrite x0 x1 x2 => exact show KeptR qu (execRegisterWrite x0 x1 x2 s) from execRegisterWrite_kept hg
  | tamperAssert x0 => exact show KeptR qu (execTamperAssert x0 s) from execTamperAssert_kept hg
  | tamperClear x0 => exact show KeptR qu (execTamperClear x0 s) from execTamperClear_kept hg
  | suppressedFlush => exact show KeptR qu (execSuppressedFlush s) from execSuppressedFlush_kept hg
  | timeLink => exact show KeptR qu (execTimeLink s) from execTimeLink_kept hg
  | backupCellsLost => exact show KeptR qu (execBackupCellsLost s) from execBackupCellsLost_kept hg
  | i2cWrite x0 => exact show KeptR qu (execI2cWrite x0 s) from execI2cWrite_kept hg
  | i2cRead x0 => exact show KeptR qu (execI2cRead x0 s) from execI2cRead_kept hg
  | i2cSnapshot => exact show KeptR qu (execI2cSnapshot s) from execI2cSnapshot_kept hg
  | leaseRenewSend => exact show KeptR qu (execLeaseRenewSend s) from execLeaseRenewSend_kept hg
  | leaseRenew x0 x1 => exact show KeptR qu (execLeaseRenew x0 x1 s) from execLeaseRenew_kept hg
  | leaseAck x0 x1 => exact show KeptR qu (execLeaseAck x0 x1 s) from execLeaseAck_kept hg
  | leaseExpire => exact show KeptR qu (execLeaseExpire s) from execLeaseExpire_kept hg
  | leaseTakeover => exact show KeptR qu (execLeaseTakeover s) from execLeaseTakeover_kept hg
  | leaseFirstTake => exact show KeptR qu (execLeaseFirstTake s) from execLeaseFirstTake_kept hg
  | halting x0 => exact show KeptR qu (execHalting x0 s) from execHalting_kept hg
  | handover x0 => exact show KeptR qu (execHandover x0 s) from execHandover_kept hg
  | handoverDrainEnd => exact show KeptR qu (execHandoverDrainEnd s) from execHandoverDrainEnd_kept hg
  | watermarkSend => exact show KeptR qu (execWatermarkSend s) from execWatermarkSend_kept hg
  | watermark x0 x1 => exact show KeptR qu (execWatermark x0 x1 s) from execWatermark_kept hg
  | wmAck x0 => exact show KeptR qu (execWmAck x0 s) from execWmAck_kept hg
  | mirror x0 x1 x2 => exact show KeptR qu (execMirror x0 x1 x2 s) from execMirror_kept hg
  | mirrorAck x0 x1 x2 => exact show KeptR qu (execMirrorAck x0 x1 x2 s) from execMirrorAck_kept hg
  | mirrorAckTimeout x0 => exact show KeptR qu (execMirrorAckTimeout x0 s) from execMirrorAckTimeout_kept hg
  | state x0 x1 x2 x3 => exact show KeptR qu (execState x0 x1 x2 x3 s) from execState_kept hg
  | timeCmpSend => exact show KeptR qu (execTimeCmpSend s) from execTimeCmpSend_kept hg
  | timeCmp x0 x1 x2 => exact show KeptR qu (execTimeCmp x0 x1 x2 s) from execTimeCmp_kept hg
  | pairPart x0 x1 x2 => exact show KeptR qu (execPairPart x0 x1 x2 s) from execPairPart_kept hg
  | pairConfirm x0 => exact show KeptR qu (execPairConfirm x0 s) from execPairConfirm_kept hg
  | pairingRetry => exact show KeptR qu (execPairingRetry s) from execPairingRetry_kept hg
  | linkUp x0 => exact show KeptR qu (execLinkUp x0 s) from execLinkUp_kept hg
  | preemptVerify x0 x1 => exact show KeptR qu (execPreemptVerify x0 x1 s) from execPreemptVerify_kept hg
  | refclkSgRestored x0 => exact show KeptR qu (execRefclkSgRestored x0 s) from execRefclkSgRestored_kept hg
  | serviceEntryTimeout => exact show KeptR qu (execServiceEntryTimeout s) from execServiceEntryTimeout_kept hg
  | msixEnable => exact show KeptR qu (execMsixEnable s) from execMsixEnable_kept hg
  | fillDrbgReseed x0 => exact show KeptR qu (execFillDrbgReseed x0 s) from execFillDrbgReseed_kept hg
  | boundaryScan x0 => exact show KeptR qu (execBoundaryScan x0 s) from execBoundaryScan_kept hg

end Sys2Proof.Machine
end

