-- ==== Sys2Proof/Laws/Mailbox.lean ====
section
/-! SUPPORT. What a mailbox command does once its checks pass: one lemma for `request`, one for `openRequest`, and what an answer
changes. -/

namespace Sys2Proof.Machine

open Sys2Proof Sys2Proof.Safety

/-- The checks of a command that may run pass in the state in which it begins. -/
theorem gate_ok {worlds : List World} {modes : List Mode} {mb : Mb} {w : World} {s : State} (h : MayRun worlds modes mb w s) :
    gate worlds modes mb.val (begun mb.val s) = .ok w := by
  obtain ⟨x, hx, rfl⟩ := h.session
  have hw := h.world
  have hm : ¬modes = [] → s.glb.mode ∈ modes := fun hn => h.modeOk.resolve_left hn
  unfold begun
  split
  · simpa [gate, h.notHalted, h.notBoot, hx, hw] using hm
  · have hh : halted (useSession mb.val s) = halted s := rfl
    have hg : (useSession mb.val s).glb = s.glb := rfl
    have hs : (mbxOf (useSession mb.val s) mb.val).session = some { x with lastAt := s.time.ticks } := by
      have h1 : mbxOf (useSession mb.val s) mb.val = { mbxOf s mb.val with
          session := (mbxOf s mb.val).session.map (fun w => { w with lastAt := s.time.ticks }) } := tget_tset_same ..
      rw [h1, hx]
      rfl
    simpa [gate, hh, hg, h.notHalted, h.notBoot, hs, hw] using hm

/-- A request whose checks pass answers what its own part gives. -/
theorem request_next {worlds : List World} {modes : List Mode} {mb : Mb} {w : World} {s t : State} {r : Reply}
    {run : World → State → Option Reply × State} (h : MayRun worlds modes mb w s) (hr : run w (begun mb.val s) = (some r, t)) :
    request worlds modes mb.val run s = .next (answer mb.val r t) := by
  simp [request, h.awake, h.free, h.notHeld, gate_ok h, hr]

/-- A request whose own part must wait leaves the state that part gives. -/
theorem request_wait {worlds : List World} {modes : List Mode} {mb : Mb} {w : World} {s t : State}
    {run : World → State → Option Reply × State} (h : MayRun worlds modes mb w s) (hr : run w (begun mb.val s) = (none, t)) :
    request worlds modes mb.val run s = .next t := by
  simp [request, h.awake, h.free, h.notHeld, gate_ok h, hr]

theorem openRequest_next {mb : Mb} {s : State} {inBoot : Bool} {run : State → Reply × State} (h : MayOpen mb s) :
    openRequest inBoot mb.val run s = .next (answer mb.val (run s).1 (run s).2) := by
  simp [openRequest, h.awake, h.free, h.notHeld, h.notHalted, h.notBoot]

/-- A refused command's answer changes its mailbox alone. -/
theorem answer_refused {mb : Nat} {r : Reply} {s : State} (h : r.1 ≠ .ok) (ho : (mbxOf s mb).orphan = false) :
    answer mb r s = setMbx mb { mbxOf s mb with answer := some { status := r.1, body := r.2 }, started := none } s := by
  simp [answer, h, ho]

end Sys2Proof.Machine
end

