-- ==== Sys2Proof/Tests/Slice0.lean ====
section
/-! SUPPORT. Small tests: ill-formed commands refused, worked examples of the spec, and for every statement of Obligations.lean states that
meet its hypotheses, clause by clause. -/

namespace Sys2Proof.Tests

open Sys2Proof Sys2Proof.Machine Sys2Proof.Safety

set_option Elab.async false
set_option maxRecDepth 4000

/-! Well-formed commands: each check refuses a term -/

theorem test_wf_refuses_mailbox :
    ([.sysMode 0 256, .sysLifecycle 0 256 0x4C43, .sysLifecycle 0 2 65536, .sysReset 0 256, .sysHalt 0 65536,
      .sysTimeStep 0 (2 ^ 48) 0 0, .sysTimeStep 0 0 (2 ^ 32) 0, .sysTimeStep 0 0 0 256, .sysPatchLoad 0 (2 ^ 64) 4803 0,
      .sysPatchLoad 0 0 (2 ^ 32) 0, .sysPatchLoad 0 0 4803 256, .authOpen 0 256 0, .authOpen 0 0 65536, .authProve 0 (2 ^ 128),
      .objGet 0 [2 ^ 32], .objSet 0 { list := [] }, .objSet 0 { list := List.replicate 31 { id := 0, len := 1, value := 0 } },
      .objSet 0 { list := [{ id := 2 ^ 32, len := 1, value := 0 }] }, .objSet 0 { list := [{ id := 0, len := 256, value := 0 }] },
      .objSet 0 { list := [{ id := 0, len := 1, value := 256 }] },
      .keyIdentity 0 (2 ^ 64) 0, .keyImport 0 0 (2 ^ 32) 0, .keyGenerate 0 256 0 0, .keyGenerate 0 0 65536 0, .keyGenerate 0 0 0 (2 ^ 64),
      .keyWrap 0 65536 0 0 0, .keyUnwrap 0 0 65536 0 0, .keyRestrict 0 0 (2 ^ 32) 0, .keyDestroy 0 256 0, .keyZeroize 0 65536] : List Instr).all
      (fun i => !i.wf) = true := by decide

theorem test_wf_refuses_bodies :
    ([.objBulkRead 0 { cls := 256, codes := [1], first := 0, count := 1, addr := 0, colour := 0 },
      .objBulkWrite 0 { cls := 4, codes := [256], first := 0, count := 1, addr := 0, colour := 0 },
      .objBulkWrite 0 { cls := 4, codes := [1], first := 65536, count := 1, addr := 0, colour := 0 },
      .keyDerive 0 { space := 1, slot := 0, source := 65536, attr := 0, label := [1], context := [] },
      .keyDerive 0 { space := 1, slot := 0, source := 0, attr := 0, label := List.replicate 256 1, context := [] },
      .chanCreate 0 65536, .chanSet 0 { list := [] }, .chanEnable 0 65536, .chanDisable 0 65536, .chanSwitch 0 65536,
      .chanMap 0 0 { hport := 256, outer := none, inner := none }, .chanUnmap 0 { hport := 0, outer := some 65536, inner := none },
      .caCreate 0 0 0 65536, .caSet 0 { list := [] }, .caRekey 0 0 (2 ^ 32), .caDelete 0 65536, .linkSet 0 { list := [] }, .linkRestart 0 256,
      .schedPolicer 0 { list := [] }, .schedShaper 0 { list := [] }, .schedWeight 0 { list := [] }, .schedGateLoad 0 256 1 64 0 0,
      .schedGateCommit 0 0 (2 ^ 48) 0, .schedGateCancel 0 256, .pairBind 0 0 256, .pairSet 0 { list := [] }, .clTest 0 256,
      .pmuSet 0 { list := [] }, .calRead 0 0 256, .calWrite 0 (2 ^ 64) 0, .calHbmTest 0 ⟨[0x1000000020], false⟩, .calSerdes 0 256,
      .logTamper 0 (2 ^ 32) 1, .logFaults 0 0 256, .laReset 0 256, .perfSet 0 { list := [] }, .perfSumpRead 0 256 0 0] : List Instr).all
      (fun i => !i.wf) = true := by decide

theorem test_wf_refuses_registers :
    ([.mailboxReqWrite .pf0 0 512 0, .mailboxReqWrite .pf0 0 2 0, .todReceive (List.replicate 17 0) true, .offDomainAccess .pf0 2 false,
      .avsTelemetry 65536 0 0 true, .meterRound [], .meterRound (List.replicate 34 { meter := 65536, temp := 0, vdd := 0 }),
      .meterRound (List.replicate 34 { meter := 0, temp := 32768, vdd := 0 }), .downshiftEval [], .sagWarn 8, .glbResetCold .pf0 65536,
      .glbResetWarm .pf0 65536, .resetRelease { badGranules := [393216] }, .resetRelease { badClusters := [34] },
      .resetRelease { badGroups := [16] }, .resetRelease { avsReading := some 65536 }, .irqMapWrite .pf0 56 0, .dpWindowRead 0 ⟨4097, .ok⟩,
      .dpWindowRead 1048575 ⟨2, .ok⟩, .dpWindowWrite 0 ⟨[], .ok⟩, .dpWindowRead 0 ⟨1, .corrected 2⟩, .registerWrite .pf0 0x4000000 0,
      .imeSweepRequest (some .pf0) 64, .imeSweepRequest none 64, .mpuRelease (.gydom [{ n := 12, lo := 0, hi := 0, attr := 0 }]), .i2cWrite []] : List Instr).all
      (fun i => !i.wf) = true := by decide

theorem test_wf_refuses_traffic :
    ([.spillReturn 65536 ⟨.enc, .ok⟩, .launch ⟨0, { data := [257] }⟩, .txDescriptor ⟨8, .corrected 2⟩, .quarantineTest 393216 true,
      .classEntryRewrite { hport := 256, outer := none, inner := none }, .chanDrainDone 65536, .slotRetire 65536, .mkpduSend 65536,
      .mkpduReceive 65536 false,
      .peerLifeExpire 0 (2 ^ 96), .rekeyInterval 65536, .rekeyStart 65536, .remaskLine .chan 65536,
      .masterAccess { master := 7, colour := 0, world := 0, addr := 0, write := none, len := 1 } .ok,
      .masterAccess { master := 1, colour := 0, world := 0, addr := 0, write := some [1], len := 2 } .ok,
      .masterAccess { master := 1, colour := 0, world := 0, addr := 0, write := none, len := 257 } .ok,
      .tamperAssert [], .tamperAssert [13], .leaseRenew (2 ^ 32) 0, .leaseAck 0 256, .halting 256, .handover 256, .watermark 0 [],
      .watermark 0 [(65536, 0)], .wmAck (2 ^ 32), .mirror 0 0 (List.replicate 961 0), .mirror 0 (2 ^ 64) [], .mirrorAck 0 0 256,
      .mirrorAckTimeout (2 ^ 32), .state 256 0 0 0, .timeCmp (2 ^ 48) 0 0, .pairPart 1 2 (List.replicate 961 0),
      .pairConfirm (2 ^ 128)] : List Instr).all (fun i => !i.wf) = true := by decide

theorem test_wf_refuses_long_frames :
    (Instr.hostFrameReceive 0 (List.replicate 65536 0) true true).wf = false
    ∧ (Instr.lineFrameReceive 0 (List.replicate 65536 0) true).wf = false ∧ (Instr.cellReceive 0 (List.replicate 65536 0)).wf = false := by
  refine ⟨?_, ?_, ?_⟩ <;> simp only [Instr.wf, List.length_replicate] <;> decide

theorem test_wf_accepts :
    ([.sysHalt 0 0x4854, .keyImport 0 0x1040000000 1281 12, .objSet 0 { list := [{ id := 0x04001113, len := 8, value := 2 ^ 40 }] },
      .irqMapWrite .pf0 55 0x13F, .mirror 0x04000000 (2 ^ 64 - 1) [], .tamperAssert [0, 2], .dpWindowRead 0 ⟨4096, .ok⟩] : List Instr).all
      Instr.wf = true := by decide

/-- The table gives no row bits, so no word spells a command. -/
theorem test_no_word_is_a_command : decodeTableWord 32 0x0101 = none := rfl

/-! Worked examples -/

/-- The example of chapter 3: SEQ 0x000F424000, KP 1. -/
theorem test_cell_header : cellHeader 0x000F424000 1 = [0x00, 0x0F, 0x42, 0x40, 0x00, 0x80, 0x30, 0x14] := by decide

/-- The segments of the worked cell of chapter 3, and the fill-to-end marker. -/
theorem test_segment_headers :
    segHead 300 false true false 600 = 0x02588258 ∧ segHead chanLink true true true 33 = 0xFFFDC021
    ∧ segHead 12 true true false 84 = 0x00198054 ∧ segHead chanFill false false false 0 = 0xFFFE0000 := by decide

/-- R103: slots of a 64-byte, a 1,500-byte and a 16,000-byte host frame with conf_offset 0, and in sealed mode. -/
theorem test_slots : slotsOf 28 48 = 6 ∧ slotsOf 28 1484 = 96 ∧ slotsOf 28 15984 = 1002 ∧ slotsOf 10 60 = 6 := by decide

/-- Chapter 5 and chapter 11: the requested words of the worked imports pass R151, and read back with ORIGIN 2. -/
theorem test_requested_words :
    checkWord 0x2710C204 true = none ∧ withOrigin 0x2710C204 2 = 0x000000022710C204
    ∧ checkWord 0x000000202F808842 true = none ∧ withOrigin 0x000000202F808842 2 = 0x000000222F808842 := by decide

/-- Chapter 7: the gate words of the example, and S for a base in the past. -/
theorem test_gate_words :
    (entryGates 0xF020000000007530, entryOp 0xF020000000007530, entryNs 0xF020000000007530) = (0xF0, 2, 30000)
    ∧ (entryGates 0x8010000000004E20, entryOp 0x8010000000004E20, entryNs 0x8010000000004E20) = (0x80, 1, 20000)
    ∧ gateStart (1000 * 10 ^ 9 + 250000) 10000 (1000 * 10 ^ 9) 200000 = 1000 * 10 ^ 9 + 400000 := by decide

/-- Chapter 14: sampling record 17 of the example. -/
theorem test_sampling_record :
    smpRecord { sec := 1000, sub := 400002000 * 2 ^ 32 }
      { kind := 1, tc := some 7, port := 56, chan := 40, req := 0x08531A2F, addr := 123456, latency := 1702 }
    = [0xD0, 0x8B, 0xD7, 0x17, 0xE8, 0x03, 0, 0, 1, 0, 0x0E, 0, 0x38, 0, 0x28, 0, 0x2F, 0x1A, 0x53, 0x08, 0x40, 0xE2, 0x01, 0, 0, 0, 0, 0,
       0xA6, 0x06, 0, 0] := by decide

/-- A block awake in a mode, with a session of a world on MB0. -/
def rig (m : Mode := .service) (w : World := .officer) : State :=
  { State.reset with glb := { mode := m, inReset := false }, mbx := [(0, { session := some { id := 5, world := w } })] }

/-- The state a command goes to. -/
def after (i : Instr) (s : State) : State := match exec i s with | .next t => t | _ => s

/-- Chapter 8: TSQ_53 after the Delay_Req of L5, and after the POP. -/
theorem test_tsq_53 :
    (let s := setTsq 53 { entries := [{ ident := 0x42, time := { sec := 5000, sub := 200521400 * 2 ^ 32 + 2 ^ 30 } }] } rig
     (regRead s .pf0 0x300D40, regRead s .pf0 0x300D44, regRead s .pf0 0x300D48, regRead s .pf0 0x300D4C, regRead s .pf0 0x300D54)
       = (1, 0x42, 0x0BF3B6B8, 0x1388, 0x4000)
     ∧ regRead (after (.tsqPop .pf0 53) s) .pf0 0x300D40 = 0) := by decide

/-- Chapter 9: region 14 of the example and the four accesses that meet it; the captured fault reads 0x810D0005. -/
theorem test_region_14 :
    (let held : State := { rig with mem := { rig.mem with mpuEn := false, held := true } }
     let put (o : Nat) (v : W32) (s : State) : State := after (.registerWrite .pf0 o v) s
     let s := after (.mpuRelease (.host .pf0)) (put 0x701E8 0xE302E01A (put 0x701E4 0x10 (put 0x701E0 0x40000000 held)))
     checkCause s mDp 12 0x1040001000 true = 0 ∧ checkCause s mDp 13 0x1040001000 false = 5 ∧ checkCause s mDp 12 0x1043800040 true = 1
     ∧ checkCause s mDbg 12 0x1040001000 false = 3
     ∧ regRead (captureFault mDp 13 1 0x1040001000 false 5 s) .pf0 0x70018 = 0x810D0005) := by decide

/-- Chapter 12: PMU_DOM_69 after the sleep request that a wake of the same tick defeats. -/
theorem test_pmu_dom_69 : regRead (after (.pmuDomReqOff .pf0 69 true true) rig) .pf0 0x50114 = 0x00020230 := by decide

/-- Chapter 13: sources 0 and 2 recognised in one tick are logged in source order, and byte 8 of the record is RTC_SUB. -/
theorem test_table_13_6 :
    (let s : State := { rig with stp := { rig.stp with nextSeq := 731, rtcSub := 0x1234 } }
     let t := after (.tamperAssert [0, 2]) s
     (t.stp.log.map (fun r => (r.seq, r.source, r.kind))) = [(731, 0, 1), (732, 2, 1)]
     ∧ regRead (after (.tmpLogSelWrite .pf0 731) t) .pf0 0x60048 &&& 0xFFFF7FFF = 0x01001234) := by decide

/-- Chapter 15: the response header of the retry. -/
theorem test_retry_response :
    (let s := setMbx 4 { seq := 0x2A10, answer := some { status := .ok, dup := true, elapsed := some 28 } } rig
     (mbxOf (after (.mailboxResponse 4) s) 4).rsp = [0x10, 0x2A, 0, 0, 1, 0, 0, 0, 1, 0, 0x1C, 0, 0, 0, 0, 0]) := by decide

/-- Chapter 16: the body of the worked CHAN.SET reads as its two entries, and a code of no command as none. -/
theorem test_chan_set_body :
    (match readCmd 4 0x0502 [2, 0, 0, 0, 0x13, 0x11, 0, 4, 8, 0, 0, 0, 0, 0, 0, 0, 0, 1, 0, 0, 0x12, 0x11, 0, 4, 8, 0, 0, 0, 0, 0, 0, 0,
        0x80, 0, 0, 0] with
     | some { form := .ok (.chanSet m e), .. } => m == 4 && e.reservedZero && e.list.map (fun x => (x.id, x.len, x.value, x.clean))
         == [(0x04001113, 8, 2 ^ 40, true), (0x04001112, 8, 2 ^ 39, true)]
     | _ => false) = true
    ∧ (readCmd 4 0x0508 []).isNone = true := by decide

/-- Chapter 18: the registers of L30, and the access to its domain while it is OFF. -/
theorem test_port_l30 :
    (let s := setDom rig 67 { state := .off }
     regDomain 0x2007AC = some 67 ∧ regDomain 0x3013A0 = some 67 ∧ regRead rig .pf0 0x2007AC = 0 ∧ regRead s .pf0 0x2007AC = 0xFFFFFFFF
     ∧ regRead (after (.offDomainAccess .pf0 0x2007AC false) s) .pf0 0x50204 &&& 0xFF00FFFF = 0x80000043) := by decide


/-! What follows shows, for each statement of Obligations.lean, states and operands that meet its hypotheses, clause by clause -/

/-- MayRun as a check. -/
def mayB (worlds : List World) (modes : List Mode) (mb : Mb) (w : World) (s : State) : Bool :=
  !asleep s && !halted s && s.glb.mode != .boot && (modes.isEmpty || modes.contains s.glb.mode) && (mbxOf s mb.val).answer.isNone
  && !Sys2Proof.Machine.held s mb.val && !(mbxOf s mb.val).orphan && (mbxOf s mb.val).session.map (·.world) == some w && worlds.contains w

theorem mayRun_of_mayB {worlds : List World} {modes : List Mode} {mb : Mb} {w : World} {s : State}
    (h : mayB worlds modes mb w s = true) : MayRun worlds modes mb w s := by
  simp only [mayB, Bool.and_eq_true, Bool.or_eq_true, Bool.not_eq_true', bne_iff_ne, beq_iff_eq, List.isEmpty_iff, List.contains_iff_mem,
    Option.isNone_iff_eq_none, Option.map_eq_some_iff] at h
  obtain ⟨⟨⟨⟨⟨⟨⟨⟨h1, h2⟩, h3⟩, h4⟩, h5⟩, h6⟩, h7⟩, x, hx, hw⟩, h8⟩ := h
  exact ⟨h1, h2, h3, h4, h5, h6, h7, ⟨x, hx, hw⟩, h8⟩

theorem witness_StepRunsFrontCommand : ({ State.reset with pending := [.sagReset, .bootEnd] } : State).pending = .sagReset :: [.bootEnd] := rfl

/-- The last tick of a second, with the slowest and the fastest increment. -/
theorem witness_EmptyQueueRunsTheClock :
    (∀ a ∈ ([-4294967, 4294967] : List Int), let s : State := { rig with time := { adj := BitVec.ofInt 32 a, now := { sec := 5, sub := 999999998 * 2 ^ 32 } } }
      s.pending = [] ∧ asleep s = false ∧ s.time.stepGo = none ∧ s.time.now.sub + tickUnits s < 10 ^ 9 * 2 ^ 32
      ∧ (∀ x ∈ s.traffic.tsq, x.2.waiting = []) ∧ (∀ x ∈ s.traffic.chans, x.2.switching = false)) := by decide

theorem witness_ObserverFunction :
    (domOn rig 74 = true ∧ pcieUp rig = true ∧ (0xFFFC < 0x10000 ∧ ¬ (0x40004 ≤ 0xFFFC ∧ 0xFFFC ≤ 0x4000C)) ∧ (0x18000 ≤ 0x40000 ∧ ¬ (0x40004 ≤ 0x40000))
     ∧ (0x10000 ≤ 0x16FFC ∧ 0x16FFC < 0x17000) ∧ (0x17000 ≤ 0x17FFC ∧ 0x17FFC < 0x18000) ∧ (13 : Mb).val < 14) := by decide

theorem witness_RegisterWrites :
    (asleep rig = false ∧ pcieUp rig = true ∧ domOn rig 75 = true ∧ domOn rig 74 = true
     ∧ (2 : W32).getLsbD 0 = false ∧ (2 : W32).getLsbD 2 = false
     ∧ (let s : State := { rig with mem := { rig.mem with mpuEn := false, held := true } }
        asleep s = false ∧ domOn s 74 = true ∧ 12 ≤ (12 : Fin 32).val ∧ s.mem.mpuEn = false ∧ s.mem.held = true)
     ∧ (11 : Fin 32).val < 12 ∧ rig.mem.mpuEn = true
     ∧ domOn rig (portDom (95 : Port).val) = true ∧ (0x80000000 : W32).getLsbD 31 = true ∧ 0x40022 % 4 ≠ 0) := by decide

theorem witness_OffDomainAccess :
    (([(0, false), (3, true)] : List (Nat × Bool)).all fun (h, v) =>
      let s := onTime (fun t => { t with ticks := 9 }) <| onGlb (fun g => { g with haltCause := h }) (onPmu (fun p => { p with errValid := v, errCount := 255 }) (setDom rig 66 { state := .off }))
      !asleep s && pcieUp s && 0x2005E4 % 4 == 0 && regDomain 0x2005E4 == some 66 && !domOn s 66 && haltOver s == decide (h = 3)) = true := by decide

theorem witness_BusyMailboxDrops :
    (let s := setMbx 15 { busy := true } rig
     asleep s = false ∧ pcieUp s = true ∧ (mbxOf s (15 : Mb).val).busy = true ∧ 508 < 512 ∧ 508 % 4 = 0) := by decide

/-- A request of the mailbox: the first 16 bytes of a request buffer. -/
def asked (h : Bytes) (x : Mbx) (s : State) : State := setMbx 4 { x with req := putBytes [] 0 h } s

theorem witness_RequestsAndDoorbells :
    (asleep rig = false ∧ pcieUp rig = true ∧ (mbxOf rig 4).busy = false ∧ 508 < 512 ∧ 508 % 4 = 0
     ∧ halted (onGlb (fun g => { g with haltCause := 9 }) rig) = true
     ∧ (let buf (h : Bytes) (x : Mbx) := (upFrom 0 512).map (tget 0 (mbxOf (asked h x rig) 4).req)
        496 < leAt (buf [0, 0, 0, 0, 0, 0, 0xF1, 1] {}) 6 2
        ∧ (let b := buf [0, 0, 0, 0, 0, 0, 0xF0, 1, 2] {}; leAt b 6 2 ≤ 496 ∧ 2 ≤ leAt b 8 2)
        ∧ (let b := buf [0, 0, 0, 0, 0, 0, 0xF0, 1, 1, 0, 0, 0, 0, 0, 0, 1] {}; leAt b 6 2 ≤ 496 ∧ leAt b 14 2 ≠ 0)
        ∧ (let b := buf [7, 0, 0, 0, 0x01, 0x01, 0, 0, 0, 0, 5] {}; leAt b 6 2 ≤ 496 ∧ leAt b 8 2 < 2 ∧ leAt b 14 2 = 0
            ∧ BitVec.ofNat 32 (leAt b 0 4) = (7 : W32) ∧ BitVec.ofNat 32 (leAt b 10 4) = (5 : W32)
            ∧ (mbxOf (asked [7] { last := some (7, 5), cache := some { status := .ok } } rig) 4).last = some (7, 5)
            ∧ (mbxOf (asked [7] {} rig) 4).last ≠ some (7, 5))
        ∧ (let b := buf [7, 0, 0, 0, 0x02, 0x01] {}; (rig .boot).glb.mode = .boot ∧ leAt b 4 2 ≠ 0x0101))) := by decide

theorem witness_AnswersAndResponses :
    (halted rig = false ∧ (mbxOf rig 4).orphan = false ∧ (mbxOf (setMbx 4 { orphan := true } rig) 4).orphan = true ∧ ((.busy, []) : Reply).1 ≠ .ok ∧ ((.ok, [1]) : Reply).1 = .ok
     ∧ (let s := setMbx 15 { answer := some { status := .ok, dup := true, elapsed := some 28 } } rig
        asleep s = false ∧ (mbxOf s (15 : Mb).val).answer = some { status := .ok, dup := true, elapsed := some 28 } ∧ (mbxOf s 15).irq = false)
     ∧ (mbxOf (setMbx 15 { irq := true, answer := some { status := .denied } } rig) 15).irq = true) := by decide

/-- A valid general slot and a valid channel slot under some key. -/
def held (v : Key) (attr : W64 := 0) : Slot := { state := .valid, line := plainLine v 0, attr := attr }

theorem witness_Sessions :
    MayOpen 15 rig ∧ MayOpen 13 rig ∧ MayRun [.officer, .operator, .observer] [] 0 .observer (rig .recovery .observer)
    ∧ (let s := onTime (fun t => { t with ticks := 7 + 10 ^ 9 }) (putG 1023 (held 1) (setMbx 3 { challenge := some (9, 1023, 7) } rig))
       (mbxOf s (15 : Mb).val).usedIds.length + 2 < 2 ^ 32
       ∧ asleep s = false ∧ (mbxOf s 0).session = some { id := 5, world := .officer } ∧ passed s 0 (attr s clsDev 0 0x0C * 10 ^ 9) = false
       ∧ (onDp (fun d => { d with claim := some (0, 5) }) s).dp.claim = some ((0 : Mb).val, 5)
       ∧ (mbxOf s (3 : Mb).val).challenge = some (9, 1023, 7) ∧ s.time.ticks ≤ 7 + 10 ^ 9
       ∧ (gslotOf s 1023).state ≠ .empty ∧ (gslotOf s 1023).state ≠ .invalid
       ∧ (readG 1023 (setMbx 3 { mbxOf s 3 with challenge := none } s)).1.isSome = true ∧ halted s = false ∧ s.glb.mode ≠ .boot
       ∧ (mbxOf s 3).answer = none ∧ Sys2Proof.Machine.held s 3 = false ∧ (mbxOf s 3).orphan = false) :=
  ⟨⟨by decide, by decide, by decide, by decide, by decide, by decide⟩, ⟨by decide, by decide, by decide, by decide, by decide, by decide⟩, mayRun_of_mayB (by decide), by decide +kernel⟩

theorem witness_TimeRegisterCommands :
    (asleep rig = false ∧ pcieUp rig = true ∧ (tsqOf rig 95).waiting = []
     ∧ (let e : TsEntry := { ident := 1, time := {} }
        let f := setTsq 95 { entries := List.replicate 16 e, waiting := [e] } rig
        (tsqOf f 95).waiting = [e] ∧ (tsqOf f 95).entries.length = 16) ∧ domOn rig (portDom (95 : Port).val) = true ∧ fusedQ rig (95 : Port).val = false
     ∧ fusedQ (onNvm (fun n => { n with part9624 := true }) rig) (23 : Port).val = false
     ∧ domOn (onNvm (fun n => { n with part9624 := true }) rig) (portDom (23 : Port).val) = true) := by decide

theorem witness_OneStepOfNetworkTime :
    (let s := onTime (fun t => { t with stepSec := 2 ^ 48 - 1, stepNs := 999999999 }) rig
     let a := onTime (fun t => { t with armed := some (1, 0), armedAt := 7, ticks := 7 + 2 * 10 ^ 9 }) s
     asleep s = false ∧ pcieUp s = true ∧ stepLapsed s = false ∧ s.time.spent = false ∧ s.time.armed = none ∧ s.time.stepNs < 10 ^ 9
     ∧ halted s = false ∧ (onTime (fun t => { t with spent := true }) s).time.spent = true
     ∧ (onTime (fun t => { t with armed := some (1, 0) }) s).time.armed.isSome = true ∧ stepLapsed (onTime (fun t => { t with armed := some (1, 0) }) s) = false
     ∧ a.time.armed = some (1, 0) ∧ a.time.armedAt + 2 * 10 ^ 9 ≤ a.time.ticks
     ∧ s.pending = [] ∧ (onTime (fun t => { t with stepGo := some (1, 0) }) s).time.stepGo = some (1, 0)
     ∧ 10 ^ 9 ≤ (onTime (fun t => { t with stepNs := 10 ^ 9 }) s).time.stepNs) := by decide

theorem witness_StepByCommandAndByEdge :
    MayRun [.officer, .operator] [] 0 .operator (rig .enrol .operator)
    ∧ (let s := rig .enrol .operator
       s.time.spent = false ∧ s.time.armed = none ∧ stepLapsed s = false ∧ 999999999 < 10 ^ 9 ∧ 2 < 3 ∧ 1 < 2 ∧ asleep s = false
       ∧ MayRun [.officer, .operator] [] 0 .operator (onTime (fun t => { t with armed := some (1, 0) }) s)
       ∧ (onTime (fun t => { t with armed := some (1, 0) }) s).time.armed.isSome = true
       ∧ (onTime (fun t => { t with armed := some (1, 0), ppsInEn := true }) s).time.armed = some (1, 0)
       ∧ (onTime (fun t => { t with ppsInEn := true }) s).time.ppsInEn = true ∧ s.time.ppsInEn = false) :=
  ⟨mayRun_of_mayB (by decide), by decide, by decide, by decide, by decide, by decide, by decide, by decide, mayRun_of_mayB (by decide), by decide⟩

theorem witness_SecondBoundaryLatches :
    (let s := setAttr (onTime (fun t => { t with now := { sec := 2 ^ 48 - 1, sub := 10 ^ 9 * 2 ^ 32 - 1 }, ppsOutEn := true }) rig) clsLport 47 0x20 1
     live s = true ∧ s.stp.suppressed = [] ∧ s.time.now.sub < 10 ^ 9 * 2 ^ 32 ∧ 0 < tickUnits s ∧ s.time.stepGo = none
     ∧ (∀ x ∈ s.traffic.tsq, x.2.waiting = []) ∧ (∀ x ∈ s.traffic.chans, x.2.switching = false) ∧ domOn s (portDom 95) = true ∧ s.glb.mode ≠ .boot
     ∧ sealedQ s (48 + (47 : LPort).val) = true ∧ sealedQ s (48 + (0 : LPort).val) = false ∧ s.time.ppsOutEn = true) := by decide

theorem witness_PulseAndTimeOfDay :
    (let s := onTime (fun t => { t with todCtrl := 3, todAt := some 5, ticks := 5 + 2 * 10 ^ 8 }) rig
     let m : Bytes := [0x58, 0x54, 1, 0, 0, 0, 0, 0, 0, 9, 0, 37, 0, 0]
     let n := m ++ beBytes 2 (todCheck m)
     asleep s = false ∧ halted s = false ∧ s.time.todAt = some 5 ∧ 5 + 2 * 10 ^ 8 ≤ s.time.ticks ∧ s.glb.mode ≠ .boot ∧ rig.time.todAt = none
     ∧ s.time.ppsFallAt ≤ s.time.ticks ∧ rig.time.ticks < (onTime (fun t => { t with ppsFallAt := 1 }) rig).time.ppsFallAt
     ∧ s.time.todCtrl.getLsbD 0 = true ∧ s.time.todCtrl.getLsbD 1 = true
     ∧ rig.time.todCtrl.getLsbD 0 = false ∧ rig.time.todCtrl.getLsbD 1 = false
     ∧ n.length = 16 ∧ beAt n 0 2 = 0x5854 ∧ beAt n 2 1 = 1 ∧ beAt n 14 2 = todCheck n
     ∧ beAt (m ++ beBytes 2 (todCheck m + 1)) 14 2 ≠ todCheck (m ++ beBytes 2 (todCheck m + 1))) := by decide

theorem witness_Standpipe :
    (let on := setAttr (setAttr rig clsTamper 7 1 1) clsTamper 7 4 0
     let s := onStp (fun p => { p with written := [(7, 7)] }) on
     let f := onStp (fun p => { p with written := [(7, 8)], alarm := [7] }) on
     let d := onStp (fun p => { p with main := false }) rig
     (7 : SrcNo).val ≠ 0 ∧ sampled s (7 : SrcNo).val = true ∧ attr s clsTamper 7 4 = 0 ∧ s.stp.alarm.contains 7 = false
     ∧ tget 0 s.stp.written 7 < 8 ∧ 8 ≤ tget 0 f.stp.written 7 ∧ sampled f 7 = true ∧ attr f clsTamper 7 4 = 0 ∧ f.stp.alarm.contains 7 = true
     ∧ (onStp (fun p => { p with alarm := [] }) f).stp.alarm.contains 7 = false
     ∧ s.stp.suppressed = [] ∧ s.stp.rtcSub < 32768
     ∧ s.stp.main = true ∧ d.stp.main = false ∧ linkDue s = false ∧ linkDue (onStp (fun p => { p with rtcSec := 86400 }) s) = true ∧ asleep s = false ∧ s.stp.alarm.contains 0 = false) := by decide

/-- A mebibyte at 0x01000000 that every master may read and write under colour 0. -/
def roomy (s : State) : State := onMem (fun m => { m with regions := [(3, { lo := 0x01000000, hi := 0, attr := regionAttr 0 0x7F 20 })] }) s

/-- Bytes put at an address of it. -/
def poke (a : Nat) (d : Bytes) (s : State) : State := onMem (fun m => { m with bytes := (indexed a d).filter (fun x => x.2 != 0) }) s

theorem witness_PowerDomains :
    (let off (n : Nat) := setDom rig n { state := .off }
     let dis (n : Nat) := setAttr (setAttr rig clsHport n 1 0) clsLport n 1 0
     asleep rig = false ∧ pcieUp rig = true ∧ hostSwitched (34 : DomNo).val = true ∧ hostSwitched (78 : DomNo).val = true ∧ hostSwitched (69 : DomNo).val = true
     ∧ (rig.nvm.part9624 && fusedDom 78) = false ∧ (domOf rig 78).state = .on ∧ (domOf rig 78).woken ≠ some rig.time.ticks ∧ sleepOk rig 78 = true
     ∧ offersRet 41 = true ∧ (domOf rig 41).state = .on ∧ (domOf rig 41).woken ≠ some rig.time.ticks ∧ sleepOk rig 41 = true
     ∧ (let up := setAttr rig clsLport 47 1 1; (domOf up 69).state = .on ∧ sleepOk up 69 = false ∧ offersRet 69 = true)
     ∧ (domOf (setDom rig 69 { state := .changing, toward := .ret }) 69).state = .changing
     ∧ (domOf (setDom rig 69 { state := .changing, toward := .ret }) 69).toward ≠ .on
     ∧ (domOf (off 42) 42).state = .off ∧ offersRet 42 = false ∧ (domOf (off 42) 42).state = .off
     ∧ (domOf (setDom rig 69 { state := .ret }) 69).state = .ret
     ∧ (let w := setDom rig 0 { state := .changing, toward := .on, fromOff := true }
        let w := setCluster 0 { clusterOf w 0 with role := .idle } w
        (domOf w 0).state = .changing ∧ (domOf w 0).toward = .on ∧ (clusterOf w 0).role = .idle)
     ∧ (let w := setDom rig 69 { state := .changing, toward := .on, fromOff := true }
        (domOf w 69).state = .changing ∧ (domOf w 69).toward = .on ∧ 58 ≤ 69 ∧ (domOf w 69).fromOff = true ∧ portDom (95 : Port).val = 69)
     ∧ (let w := setDom rig 34 { state := .changing, toward := .on }; (domOf w 34).fromOff = false ∧ 34 ≤ (34 : DomNo).val)
     ∧ sleepOk (dis 47) 69 = true) := by decide

theorem witness_PaceAndSag :
    (let f : Frame := { chan := 0, dir := .enc, tc := 0, tint := .green, flen := 64, slots := 6, ingress := 0, egress := 48, ebytes := 84, data := [], tr := 0, deadline := none, tag := 0, stage := .released }
     let w : Drain := { fid := 3, pace := 900, since := 0 }
     let d := onPmu (fun p => { p with drains := [w] }) rig
     let r := onPmu (fun p => { p with roundAt := some 0, pAdm := 1800 }) rig
     asleep rig = false ∧ pcieUp rig = true ∧ (0xFFFFF800 : W32).toNat % 2048 < 800 ∧ 1800 < (1801 : W32).toNat % 2048
     ∧ 800 ≤ (0xFFFFFB20 : W32).toNat % 2048 ∧ (1800 : W32).toNat % 2048 ≤ 1800 ∧ rig.pmu.roundAt ≠ some rig.time.ticks
     ∧ r.pmu.roundAt = some r.time.ticks ∧ (1799 : W32).toNat % 2048 < r.pmu.pAdm ∧ rig.pmu.drains = []
     ∧ (putFrame 2 f d).pmu.drains = w :: [] ∧ drained1 (putFrame 2 f d) w = false ∧ d.pmu.drains = [w] ∧ drained1 d w = true
     ∧ roundDue r = false ∧ roundDue rig = true
     ∧ halted rig = false ∧ (List.replicate 34 ({ meter := 1, temp := 600, vdd := 750 } : Reading))[33]? = some { meter := 1, temp := 600, vdd := 750 }
     ∧ (domOf rig 33).state ≠ .off ∧ (onPmu (fun p => { p with sagWarn := true }) rig).pmu.sagWarn = true
     ∧ (onTime (fun t => { t with ticks := 10000 }) rig).pmu.sagAt + 10000 ≤ 10000 ∧ rig.time.ticks < rig.pmu.sagAt + 10000
     ∧ (clusterOf rig 0).role = .active ∧ attr (setAttr rig clsPmu 0 4 0) clsPmu 0 4 = 0) := by decide

theorem witness_CoreVoltage :
    (let c (b : Bool) : AvsChange := { target := 700, old := 750, issued := b }
     let down (b : Bool) := onPmu (fun p => { p with avsChange := some (c b) }) rig
     let w : Drain := { fid := 3, pace := 900, since := 0 }
     let late := onTime (fun t => { t with ticks := 10000 }) (down true)
     live rig = true ∧ pcieUp rig = true ∧ attr rig clsPmu 0 7 = 0 ∧ 650 ≤ (850 : W32).toNat % 1024 ∧ (850 : W32).toNat % 1024 ≤ 850 ∧ 850 % 5 = 0
     ∧ rig.pmu.avsChange = none ∧ rig.pmu.rail < 850 ∧ 650 < rig.pmu.rail ∧ 650 ≤ (650 : W32).toNat % 1024 ∧ (down false).pmu.avsChange.isSome = true
     ∧ attr (setAttr rig clsPmu 0 7 1) clsPmu 0 7 = 1 ∧ (649 : W32).toNat % 1024 < 650 ∧ 850 < (855 : W32).toNat % 1024 ∧ (651 : W32).toNat % 1024 % 5 ≠ 0
     ∧ (down false).pmu.avsChange = some (c false) ∧ (c false).issued = false ∧ (down false).pmu.drains = [] ∧ live (down false) = true
     ∧ (let f : Frame := { chan := 0, dir := .enc, tc := 0, tint := .green, flen := 64, slots := 6, ingress := 0, egress := 48, ebytes := 84, data := [], tr := 0, deadline := none, tag := 0, stage := .released }
        let d := putFrame 2 f (onPmu (fun p => { p with drains := [w] }) (down false)); d.pmu.drains = w :: [] ∧ drained1 d w = false)
     ∧ late.pmu.avsChange = some (c true) ∧ (c true).issued = true ∧ late.pmu.avsNext = none ∧ (c true).since + 10000 ≤ late.time.ticks
     ∧ (down true).time.ticks < (c true).since + 10000 ∧ rig.pmu.teleAt.all (fun t => passed rig t (10 ^ 6)) = true) := by decide

theorem witness_ResetsRecognised :
    (asleep rig = false ∧ pcieUp rig = true ∧ rig.pair.linkUp = false ∧ (onGlb (fun g => { g with pendingReset := some { code := 2, cold := true } }) rig).glb.pendingReset.isSome = true
     ∧ (onPair (fun p => { p with linkUp := true }) rig).pair.linkUp = true ∧ rig.glb.pendingReset = none ∧ 0xA5C2 ≠ 0xA5C3) := by decide

theorem witness_ResetLeaves :
    (let r (c now : Nat) (h f : Option Nat) := onTime (fun t => { t with ticks := now })
       (onGlb (fun g => { g with pendingReset := some { code := c, cold := true, hard := h, soft := f } }) rig)
     (r 1 5000 (some 0) none).glb.pendingReset = some { code := 1, cold := true, hard := some 0, soft := none } ∧ asleep (r 1 5000 (some 0) none) = false
     ∧ 0 + 5000 ≤ (r 1 5000 (some 0) none).time.ticks
     ∧ (r 2 5000 none (some 0)).glb.pendingReset = some { code := 2, cold := true, hard := none, soft := some 0 }
     ∧ (r 2 5000 none (some 0)).keys.line = none ∧ (r 2 5000 none (some 0)).nvm.programming = none ∧ 0 + 5000 ≤ (r 2 5000 none (some 0)).time.ticks
     ∧ (r 1 4999 (some 0) none).time.ticks < 0 + 5000
     ∧ (onNvm (fun n => { n with programming := some (.debug, some 3) }) (r 1 5000 (some 0) none)).nvm.programming = some (.debug, some 3)
     ∧ (onKeys (fun k => { k with line := some 0 }) (r 2 5000 none (some 0))).keys.line.isSome = true ∧ State.reset.stp.main = true
     ∧ (gslotOf (putG 0 (held 1 (BitVec.ofNat 64 (2 ^ 34))) rig) 0).state = .valid) := by decide

theorem witness_StartUp :
    (State.reset.glb.inReset = true ∧ State.reset.stp.main = true ∧ halted State.reset = false ∧ State.reset.keys.line = none
     ∧ (let s := onGlb (fun g => { g with booted := true }) (rig .boot); live s = true ∧ s.glb.booted = true)
     ∧ (let s := onGlb (fun g => { g with serviceWait := some 0, serviceRound := true }) (rig .provision)
        live s = true ∧ s.glb.serviceWait = some (0 : Mb) ∧ s.glb.serviceRound = true ∧ s.glb.pendingReset = none ∧ paired s = false
        ∧ (mbxOf s 0).orphan = false ∧ s.time.ticks < s.glb.serviceAt + 50000000 ∧ s.glb.serviceAt + 50000000 ≤ (onTime (fun t => { t with ticks := 50000000 }) s).time.ticks)
     ∧ (onGlb (fun g => { g with serviceWait := some 0 }) (rig .provision)).glb.serviceRound = false) := by decide

theorem witness_ClocksFusesAndScan :
    (live rig = true ∧ rig.traffic.sgLost.contains (15 : SgNo).val = false ∧ portSg (95 : Port).val = 15
     ∧ (onTraffic (fun t => { t with sgLost := [15] }) rig).traffic.sgLost.contains 15 = true ∧ asleep rig = false
     ∧ ([Lifecycle.sealed, .debug, .retired].all fun l =>
         (onNvm (fun n => { n with programming := some (l, some 0) }) rig).nvm.programming == some (l, some 0)) = true
     ∧ (mbxOf rig 0).orphan = false ∧ paired rig = false ∧ rig.glb.pendingReset = none
     ∧ (onGlb (fun g => { g with pendingReset := some { code := 5, cold := true } }) rig).glb.pendingReset.isSome = true) := by decide

/-- An officer slot that enrols on a BLANK or a SEALED device: VALID, AUTH, OFFICER, PERSIST and both lifecycle bits. -/
def officerKey : Slot := held 7 0x000000202F808842

theorem witness_SystemCommands :
    (asleep (rig .boot) = false ∧ halted (rig .boot) = false ∧ (mbxOf (rig .boot) 0).answer = none ∧ Sys2Proof.Machine.held (rig .boot) 0 = false
     ∧ rig.glb.pendingReset = none ∧ executing rig 0 = false
     ∧ mayB [.officer, .operator, .observer] [] 0 .operator (rig .recovery .operator) = true ∧ World.operator ≠ .observer ∧ 5 < 6
     ∧ mayB [.officer, .operator, .observer] [] 0 .observer (rig .service .observer) = true
     ∧ (rig .recovery).glb.mode = .recovery ∧ rig.glb.serviceWait = none ∧ rig.nvm.programming = none
     ∧ (rig .maintenance .operator).glb.mode = .maintenance ∧ (rig .enrol).glb.mode = .enrol ∧ (rig .enrol).glb.lifecycle = .blank
     ∧ (onGlb (fun g => { g with lifecycle := .sealed }) (rig .enrol)).glb.lifecycle = .sealed
     ∧ (putG 0 officerKey (rig .enrol)).keys.gslot.any (fun p => enrolSlot .sealed p.2) = true
     ∧ rig.glb.mode = .service ∧ rig.glb.mode ≠ .recovery
     ∧ mayB [.officer] [.maintenance, .recovery] 0 .officer (rig .recovery) = true ∧ 0x4C44 ≠ 0x4C43 ∧ (rig .recovery).glb.lifecycle ≠ .retired) := by
  decide +kernel

/-- An image of 16 bytes of body whose fields pass R398. -/
def image : Bytes :=
  [0x58, 0x50, 0x54, 0x31, 0, 1, 0, 0, 0x96, 0x48, 0xB0, 0, 0, 0, 0, 9, 0, 0, 0, 16] ++ zeros 44 ++ zeros 16 ++ zeros 4627 ++ zeros 96

theorem witness_ResetHaltAndPatch :
    (mayB [.officer, .operator] [] 0 .operator (rig .enrol .operator) = true ∧ 1 < 2 ∧ rig.glb.pendingReset = none
     ∧ mayB [.officer] [.service, .maintenance] 0 .officer (rig .maintenance) = true ∧ 0x4853 ≠ 0x4854
     ∧ (let s := roomy (rig .recovery)
        mayB [.officer] [.enrol, .maintenance, .recovery] 0 .officer s = true ∧ patchBusy s 0 = false ∧ 4802 < 4803 ∧ 2097139 < 2097140
        ∧ patchBusy (setMbx 1 { started := some (.sysPatchLoad 1 0 0 0) } s) 0 = true ∧ holding s = false
        ∧ (bufRead mCp 0 0 0x01000000 4803 s).1.isSome = true ∧ patchCheck (zeros 4803) 0 = none
        ∧ (bufRead mCp 0 0 0x01000000 4803 (poke 0x01000000 image s)).1.map (fun b => b.take 24) = some (image.take 24))) := by decide +kernel

/-- Whether the signatures of an image verify is Config's; where they do, the image passes. -/
theorem witness_ResetHaltAndPatch_image
    (h : mldsaVerify (octets ((upFrom 0 2592).map Config.romMldsa)) (octets (image.take (64 + 16))) (octets (bsub image (64 + 16) 4627)) = true)
    (k : ecdsaVerify Config.romEcdsa (octets (image.take (64 + 16))) (octets (bsub image (4691 + 16) 96)) = true) : patchCheck image 9 = some 9 := by
  have e : patchField image 16 4 = 16 := by decide +kernel
  have f8 : patchField image 12 4 = 9 := by decide +kernel
  have f : image.length = 4787 + 16 ∧ 16 % 16 = 0 ∧ 16 ≤ 16 ∧ 16 ≤ 2092352 ∧ patchField image 0 4 = 0x58505431 ∧ patchField image 4 2 = 1
      ∧ patchField image 6 2 = 0 ∧ patchField image 8 2 = 0x9648 ∧ patchField image 10 1 = 0xB0 ∧ patchField image 11 1 = 0
      ∧ 1 ≤ patchField image 12 4 ∧ allZero (bsub image 20 44) = true ∧ 9 ≤ patchField image 12 4 := by decide +kernel
  obtain ⟨f1, f2, f3, f4, f5, f6, f7, f9, f10, f11, f12, f13, f14⟩ := f
  unfold patchCheck
  rw [e]
  exact (if_pos ⟨f1, f2, f3, f4, f5, f6, f7, f9, f10, f11, f12, f13, f14, h, k⟩).trans (congrArg some f8)

theorem witness_CellHeaderCorrection : (2 ^ 40 - 1 < 2 ^ 40 ∧ 63 < 64) := by decide

/-- Line port L47 up and sealed, its Wellhead as given. -/
def wellhead (w : Wh) (s : State := rig) : State := setWh 47 w (setAttr (setAttr s clsLport 47 0x20 1) clsLport 47 1 1)

theorem witness_CellsSent :
    (let s (n e : Nat) (nx : Bool := false) := wellhead { tx := { running := true, seq := n, epoch := e, next := nx }, rx := { keyed := true, seq := 2 ^ 39 } }
     sending (s (2 ^ 40 - 1) 0) (47 : WPort).val = true ∧ (whOf (s (2 ^ 40 - 1) 0) 47).tx.seq < 2 ^ 40
     ∧ linkGood (s (2 ^ 40 - 1) 0) 47 false (oddEpoch 0) = true
     ∧ sending (s (2 ^ 40) 5) 47 = true ∧ 2 ^ 40 ≤ (whOf (s (2 ^ 40) 5) 47).tx.seq ∧ (whOf (s (2 ^ 40) (2 ^ 32 - 2)) 47).tx.epoch < 2 ^ 32 - 1
     ∧ (whOf (s (2 ^ 40) 5) 47).tx.next = false ∧ (whOf (s (2 ^ 40) 5 true) 47).tx.next = true ∧ (s (2 ^ 40) 5).keys.line = none
     ∧ sending (s (2 ^ 40) (2 ^ 32 - 1)) 47 = true ∧ 2 ^ 32 - 1 ≤ (whOf (s (2 ^ 40) (2 ^ 32 - 1)) 47).tx.epoch ∧ live (s 0 0) = true
     ∧ (whOf (s (2 ^ 39) 0) 47).tx.running = true ∧ 2 ^ 39 ≤ (whOf (s (2 ^ 39) 0) 47).tx.seq ∧ (whOf (s 0 0) 47).rx.keyed = true
     ∧ 2 ^ 39 ≤ (whOf (s 0 0) 47).rx.seq
     ∧ sending (setWh 48 { tx := { running := true } } rig) (48 : WPort).val = true
     ∧ (let b := onKeys (fun k => { k with internal := tset {} k.internal (handleLink 47 false false true) { c0 := 1 } }) (s 0 0)
        linkGood b 47 false (oddEpoch 0) = false)) := by decide +kernel

theorem witness_ControlMessagesSent :
    (let s (a b : Bool) (n : Nat := 10000) := onTime (fun t => { t with ticks := n }) (wellhead { tx := { running := true, rdiAt := some 0 }, rx := { lod := a, lhb := b } })
     sending (s false true) 47 = true ∧ (whOf (s false true) 47).rx.lhb = true ∧ sending (s true false) 47 = true
     ∧ (∀ a, (whOf (s true true) 47).tx.rdiAt = some a → a + 10000 ≤ (s true true).time.ticks)
     ∧ (whOf (s true false 9999) 47).tx.rdiAt = some 0 ∧ (s true false 9999).time.ticks < 0 + 10000
     ∧ (whOf (s true false) 47).rx.lod = true ∧ (whOf (s false false) 47).rx.lod = false ∧ (whOf (s false false) 47).rx.lhb = false
     ∧ sending rig 47 = false) := by
  refine ⟨by decide, by decide, by decide, ?_, by decide, by decide, by decide, by decide, by decide, by decide⟩
  intro a h
  cases h
  decide

theorem witness_WellheadDefects :
    (let s (r : WhRx) (n : Nat := 0) := onTime (fun t => { t with ticks := n }) (wellhead { rx := r })
     listening (s {}) (47 : WPort).val = true ∧ (whOf (s {}) 47).rx.state ≠ .sync ∧ (whOf (s {}) 47).rx.since + 125000 ≤ (s {} 125000).time.ticks
     ∧ (s {} 124999).time.ticks < (whOf (s {} 124999) 47).rx.since + 125000
     ∧ listening (s { state := .sync }) 47 = true ∧ (whOf (s { state := .sync }) 47).rx.state = .sync ∧ (whOf (s { state := .sync }) 47).rx.lhb = false
     ∧ (whOf (s { state := .sync }) 47).rx.lastCtl + 100000 ≤ (s { state := .sync } 100000).time.ticks
     ∧ (s {} 99999).time.ticks < (whOf (s {} 99999) 47).rx.lastCtl + 100000
     ∧ (whOf (s { state := .sync, keyed := true }) 47).rx.keyed = true
     ∧ (whOf (s { keyed := true }) 47).rx.lastRdi + 100000 ≤ (s { keyed := true } 100000).time.ticks
     ∧ (s {} 99999).time.ticks < (whOf (s {} 99999) 47).rx.lastRdi + 100000
     ∧ (let x : CtlSeg := { data := [2, 0, 0, 0, 0, 0, 0, 1], seq := 0, kp := false, time := {} }
        (whOf (s { inbox := [x] }) 47).rx.inbox = [x] ∧ isOther x = true)
     ∧ (let x : CtlSeg := { data := [3, 1, 0, 0], seq := 0, kp := false, time := {} }
        (whOf (s { inbox := [x] }) 47).rx.inbox = [x] ∧ isType 3 x = true ∧ (whOf (s { inbox := [x] }) 47).rx.rdi = false
        ∧ (whOf (s { inbox := [x], rdi := true }) 47).rx.rdi = true ∧ 48 ≤ (48 : WPort).val ∧ (47 : WPort).val < 48)
     ∧ listening (setWh 48 {} { rig with nvm := { rig.nvm with binding := some { id := 1, ek := [], point := [] } } }) (48 : WPort).val = true) := by decide +kernel

theorem witness_CellsReceived :
    (let s (r : WhRx) := onKeys (fun k => { k with internal := [(handleMaster 47, plainLine 3 0)] })
       (wellhead { tx := { running := true, linkId := 9 }, rx := { r with state := .sync } })
     let c (n : Nat) : Bytes := cellHeader n 0 ++ zeros 1016
     (47 : WPort).val < 48 ∧ listening (s {}) 47 = true ∧ (whOf (s {}) 47).rx.state = .sync ∧ (whOf (s {}) 47).rx.buf = []
     ∧ (c 7).length = 1024 ∧ annWaits (whOf (s {}) 47).rx = false
     ∧ (whOf (s { keyed := true }) 47).rx.keyed = true ∧ linkGood (s { keyed := true }) 47 true (oddEpoch 0) = true
     ∧ correctHead ((c (2 ^ 40 - 1)).take 8) = some (cellHeader (2 ^ 40 - 1) 0, false) ∧ headSeq (cellHeader (2 ^ 40 - 1) 0) = (whOf (s { seq := 2 ^ 40 - 1 }) 47).rx.seq
     ∧ headKp (cellHeader 7 0) = (whOf (s { seq := 7 }) 47).rx.kp ∧ (correctHead (flipBit ((c 7).take 8) 63)).isSome = true
     ∧ headSeq (cellHeader 7 0) ≠ (whOf (s { seq := 8 }) 47).rx.seq
     ∧ attr (s {}) clsLink 47 6 ≤ (whOf (s { bad := 7 }) 47).rx.bad + 1 ∧ (whOf (s {}) 47).rx.bad + 1 < attr (s {}) clsLink 47 6
     ∧ (s {}).keys.line = none
     ∧ (let h : Bytes := beBytes 1 1 ++ zeros 3 ++ beBytes 8 77 ++ beBytes 4 4 ++ beBytes 5 7 ++ zeros 3
        let x : CtlSeg := { data := h ++ beBytes 16 (annTag 3 9 1 h), seq := 7, kp := false, time := {}, announce := true }
        (whOf (s { inbox := [x] }) 47).rx.inbox = [x] ∧ annWaits (whOf (s { inbox := [x] }) 47).rx = true
        ∧ hasMaster (s {}) 47 = true ∧ annTag (masterOf (s {}) 47) 9 (1 - 0) x.data = beAt x.data 24 16
        ∧ beAt x.data 16 5 = x.seq ∧ bit (beAt x.data 12 4) 0 = x.kp)) := by decide +kernel

/-- One entry of a set. -/
def ent (id len v : Nat) : Entries := { list := [{ id := id, len := len, value := v }] }

/-- How a set ends. -/
def setEnds (only : Option Nat) (e : Entries) (s : State) : Option (Status × Nat) × Bool :=
  match (applySet only false .operator e.list s).1 with | .fail st i => (some (st, i), false) | .applied => (none, false) | .waiting => (none, true)

theorem witness_SetCommandsAnswer :
    (let work : List Mode := [.provision, .service, .maintenance]
     let s := rig .service .operator
     mayB [.officer, .operator, .observer] [] 0 .operator (rig .enrol .operator) = true ∧ mayB [.officer, .operator, .observer] work 0 .observer (rig .service .observer) = true
     ∧ mayB [.officer] work 0 .officer rig = true ∧ mayB [.officer, .operator] work 0 .operator s = true ∧ mayB [.officer, .operator] [] 0 .operator s = true
     ∧ (ent 0x0F000001 1 0).reservedZero = true ∧ (∀ x ∈ (ent 0x0F000001 1 0).list, x.clean = true) ∧ (ent 0x0F000001 1 0).list ≠ []
     ∧ (List.replicate 30 ({ id := 0, len := 1, value := 0 } : SetEntry)).length ≤ 30
     ∧ setEnds (some 15) (ent 0x0F000001 1 0) s = (none, false) ∧ setEnds none (ent 0x0F000001 1 0) s = (none, false)
     ∧ setEnds (some 15) (ent 0x0F000001 4 0) s = (some (.badLength, 0), false) ∧ setEnds (some 12) (ent 0x0F000001 1 0) s = (some (.badObject, 0), false)
     ∧ setEnds none (ent 0x02000001 1 1) (setDom s 58 { state := .ret }) = (none, true)) := by
  decide +kernel

theorem witness_SetsAreWhole :
    (let s := rig .service .operator
     setEnds none (ent 0x0F000001 1 0) s = (none, false) ∧ (∀ e ∈ (ent 0x0F000001 1 0).list, idCls e.id ≠ clsGslot)
     ∧ setEnds none (ent 0x12000003 8 9) (putG 0 (held 1 0xFFFFFFFF2) s) = (none, false) ∧ (∀ e ∈ (ent 0x12000003 8 9).list, idCls e.id = clsGslot)
     ∧ setEnds none (ent 0x0F000001 4 0) s = (some (.badLength, 0), false)
     ∧ (∀ e ∈ (ent 0x0F000001 4 0).list.take 1, idCls e.id ≠ clsHport ∧ idCls e.id ≠ clsLport)) := by decide +kernel

theorem witness_ObjectReads :
    (let s := roomy rig
     let r : BulkReq := { cls := 15, codes := [1], first := 0, count := 2, addr := 0x01000000, colour := 0 }
     mayB [.officer, .operator, .observer] [] 0 .officer s = true ∧ 30 < (List.replicate 31 0x0F000001).length
     ∧ ([0x0F000001] : NatList) ≠ [] ∧ ([0x0F000001] : NatList).length ≤ 30 ∧ (readId s 0x0F000001).2.length = 1
     ∧ bulkCheck s .officer false { r with codes := [] } = some .badValue ∧ bulkCheck s .officer false { r with count := 65535 } = some .badObject
     ∧ bulkCheck s .officer false r = none ∧ holding s = false ∧ (bufWrite mCp 0 0 0x01000000 [1, 1] s).1 = true
     ∧ bulkCheck s .officer true r = none ∧ (bufRead mCp 0 0 0x01000000 (recordBytes r * 2) s).1.isSome = true
     ∧ (bufRead mCp 0 0 0x01100000 (recordBytes r * 2) s).1 = none
     ∧ (match applySet none false .officer (recordEntries r 0 r.codes (zeros (recordBytes r))) s with | (.applied, _) => true | _ => false) = true
     ∧ (match applySet none false .officer (recordEntries r 0 r.codes [255, 255, 255, 255]) s with | (.fail _ _, _) => true | _ => false) = true
     ∧ (bulkApply r .officer 2 0 (zeros 8) s).1.isSome = true) := by decide +kernel

/-- The attribute words of keys that allow every use, world, master, lifecycle and mode, with and without MATE and export. -/
def openWord : W64 := 0x1FFFFFFFF2
def plainWord : W64 := 0x00FFEFFFF2
def deriveWord : W64 := 0x1FFFFFFFF3

theorem witness_KeyInstallCommands :
    (let s := putG 1 (held 1 deriveWord) (putG 2 (held 2 openWord) (roomy rig))
     let work : List Mode := [.enrol, .provision, .service, .maintenance]
     keyGate s = none ∧ s.keys.line = none ∧ rootGood s = true
     ∧ mayB [.officer, .operator] work 0 .officer s = true ∧ mayB [.officer] work 0 .officer s = true
     ∧ slotChecks s 0 2 0 = some .badValue ∧ slotChecks s 0 1 1023 = none ∧ wordChecks 1 (BitVec.ofNat 64 0xF) .officer = some .badValue
     ∧ wordChecks 1 (BitVec.ofNat 64 0x000000202F808842) .officer = none ∧ s.keys.entropyHeld = false
     ∧ (let q : DeriveReq := { space := 1, slot := 1023, source := 1, attr := 0x000000202F808842, label := [0x41], context := [] }
        q.label ≠ [] ∧ q.label.length ≤ 64 ∧ q.context.length ≤ 255 ∧ q.label.head? ≠ some 0x58 ∧ q.source < 1024
        ∧ (useG q.source useDerive .officer mCp true s).1 = none ∧ (readG 1 (useG q.source useDerive .officer mCp true s).2).1.isSome = true
        ∧ (useG 0 useDerive .officer mCp true s).1 = some .keyInvalid)
     ∧ holding s = false ∧ 1280 ≠ 1281 ∧ (bufRead mCp 0 0 0x01000000 1281 s).1.isSome = true ∧ blobChecks s 0 .officer (zeros 1281) = some .badValue) := by decide +kernel

/-- The all-zero AES-128 key wrapping 32 octets of 5 and the word 0x202F808842 (RFC 3394). -/
def wrappedBlob : Bytes :=
  [77, 10, 139, 169, 235, 181, 252, 52, 113, 232, 241, 70, 67, 199, 244, 60, 86, 199, 142, 43, 209, 239, 32, 126, 142, 31,
   3, 83, 170, 124, 34, 121, 40, 46, 41, 155, 39, 127, 93, 112, 63, 70, 140, 29, 81, 171, 53, 62]

theorem witness_KeyInstallCommands_unwrap :
    (let s := poke 0x01000000 wrappedBlob (putG 2 (held 2 0x1FFFFFFFF1) (roomy rig))
     (bufRead mCp 0 0 0x01000000 48 s).1 = some wrappedBlob ∧ (useG 2 useUnwrap .officer mCp true s).1 = none
     ∧ (readG 2 (useG 2 useUnwrap .officer mCp true s).2).1 = some (List.replicate 16 0)
     ∧ (kwUnwrap (List.replicate 16 0) (octets wrappedBlob)).isSome = true) := by decide +kernel

/-- A blob for general slot 1023 of a DEBUG device, addressed right, whose point is on no curve. -/
def addressedBlob : Bytes :=
  beBytes 4 0x584B4931 ++ beBytes 2 1 ++ zeros 2 ++ beBytes 8 11635889062436437399 ++ beBytes 2 1 ++ zeros 2 ++ beBytes 4 1023
    ++ beBytes 8 0x000000202F808842 ++ zeros 1249

theorem witness_KeyInstallCommands_import :
    (let s := onGlb (fun g => { g with lifecycle := .debug }) (roomy rig)
     rootGood s = true ∧ addressedBlob.length = 1281 ∧ blobChecks s 0 .officer addressedBlob = none ∧ openBlob s addressedBlob = none) := by
  decide +kernel

theorem witness_KeyInstallCommands_refused : kwUnwrap (List.replicate 16 0) (List.replicate 48 0) = none := by decide +kernel

theorem witness_InstalledSlots :
    (let full := onNvm (fun n => { n with persist := (upFrom 0 32).map (fun i => (i, { a := [1] })) })
       (onGlb (fun g => { g with lifecycle := .debug }) rig)
     7 < 8 ∧ rig.keys.line = none ∧ rig.pair.state ≠ .notReady ∧ attrPersist plainWord = false ∧ attrPersist 0x000000202F808842 = true ∧ (writePersist 0 0 0 rig).1 = true ∧ rig.pair.state ≠ .ready
     ∧ (writePersist 0 0 0 full).1 = false) := by decide +kernel

theorem witness_KeyCommands :
    (let s := putG 1023 (held 1 openWord) (putG 2 (held 2 openWord) (putG 3 (held 2 (plainWord ||| 0x38000000000)) (putG 4 (held 3 plainWord) (roomy (rig .provision)))))
     mayB [.officer, .operator, .observer] [] 0 .officer s = true ∧ keyGate s = none ∧ s.keys.line = none ∧ rootGood s = true ∧ s.pair.state ≠ .notReady
     ∧ s.keys.entropyHeld = false ∧ holding s = false
     ∧ (bufWrite mCp 0 0 0x01000000 (zeros 1289) s).1 = true
     ∧ mayB [.officer] [.provision, .maintenance] 0 .officer s = true ∧ (exportCheck 1023 .officer s).1 = none
     ∧ (useG 2 useWrap .officer mCp true s).1 = none ∧ (readG 2 s).1.isSome = true ∧ (readG 1023 s).1.isSome = true
     ∧ (bufWrite mCp 0 0 0x01000000 (ofOctets (kwWrap (slotOctets (gslotOf s 2)) (keyOctets (lineKey (gslotOf s 1023).line) ++ beOct 8 (gslotOf s 1023).attr.toNat))) s).1 = true
     ∧ mayB [.officer, .operator] [.enrol, .provision, .service, .maintenance] 0 .officer s = true
     ∧ (gslotOf s 4).state = .valid ∧ attrWorld (gslotOf s 4).attr .officer = true ∧ attrMaster (gslotOf s 4).attr mMate = false
     ∧ attrUseLimit (gslotOf s 4).attr = false ∧ 0xFFFFFFF0 % 2 ^ 64 < 2 ^ 32 ∧ 0xFFFFFFF0 % 16 = 0 ∧ 2 ^ 24 - 1 < 2 ^ 24
     ∧ attrUseLimit (gslotOf s 3).attr = true ∧ attrUsesLeft (gslotOf s 3).attr = 3 ∧ attrMaster (gslotOf s 3).attr mMate = false
     ∧ 2 ^ 32 ≤ (2 ^ 32) % 2 ^ 64 ∧ 8 % 16 ≠ 0
     ∧ mayB [.officer, .operator] [] 0 .officer s = true ∧ destroyDenied s .officer (gslotOf s 4) = false
     ∧ isStandby s = false ∧ (let c := setChan 32765 { state := .config } s; chanSlotRefused c 65531 = false ∧ destroyDenied c .officer (kslotOf c 65531) = false)
     ∧ mayB [.officer] [] 0 .officer (rig .recovery) = true ∧ rig.keys.line = none ∧ 0x5A44 ≠ 0x5A45) := by decide +kernel

/-- Channel 32765 in some state, keyed as given. -/
def chan (x : Chan) (keying : Nat := 1) (s : State := rig) : State := setAttr (setChan 32765 x s) clsChan 32765 0x17 keying

theorem witness_ChannelLife :
    (let c := chan { state := .config }
     let p (s : State) := setChan 32765 { chanOf s 32765 with pendingEnable := true } s
     let bad := setAttr (setAttr c clsChan 32765 4 7) clsDev 0 8 0
     32765 < 32766 ∧ isStandby rig = false ∧ mayB [.officer, .operator] [.provision, .service, .maintenance] 0 .officer c = true
     ∧ (chanOf rig 32765).state = .free ∧ (chanOf c 32765).state ≠ .free ∧ (chanOf c 32765).state = .config ∧ (chanOf c 32765).draining = false
     ∧ (chanOf c 32765).pendingEnable = false ∧ secyFits c 32765 = true ∧ replayFits (p c) = true ∧ configOk (p c) = true ∧ cattr c 32765 0x17 ≠ 0
     ∧ (kslotOf (putK 65530 (held 1) c) (curSlot c 32765)).state = .valid ∧ (kslotOf c (curSlot c 32765)).state ≠ .valid
     ∧ cattr (chan { state := .config } 0) 32765 0x17 = 0 ∧ (chanOf c 32765).ca = 0xFFFF
     ∧ (caOf (chan { state := .config, ca := 5 } 0) 5).secured = false
     ∧ secyFits (setAttr c clsChan 32765 8 1) 32765 = false ∧ replayFits (p (setAttr c clsChan 32765 0x15 (2 ^ 34 + 1))) = false
     ∧ secyFits bad 32765 = true ∧ replayFits (p bad) = true ∧ configOk (p bad) = false
     ∧ (chanOf (chan { state := .frozen }) 32765).state = .frozen ∧ (chanOf (chan { state := .active, draining := true }) 32765).draining = true
     ∧ live rig = true ∧ (readInternal handlePairWrap c).1.isSome = true ∧ hasFrames rig 32765 = false
     ∧ hasFrames (setWh 47 { tx := { segs := [{ chan := 32765 }] } } rig) 32765 = true) := by decide +kernel

theorem witness_ChannelSwitch :
    (let a := putK 65531 { held 1 with fresh := true } (chan { state := .frozen })
     mayB [.officer, .operator] [.provision, .service, .maintenance] 0 .officer a = true ∧ isStandby a = false ∧ 32765 < 32766
     ∧ (chanOf a 32765).state = .frozen ∧ (chanOf a 32765).draining = false ∧ cattr a 32765 0x17 ≠ 0
     ∧ (kslotOf a (nextSlot a 32765)).state = .valid ∧ (kslotOf a (nextSlot a 32765)).fresh = true
     ∧ (kslotOf (chan { state := .active }) 65531).state ≠ .valid
     ∧ (chanOf (chan { state := .frozen, switching := true }) 32765).switching = true ∧ (chanOf a 32765).switching = false
     ∧ (chanOf (chan { state := .active } 0) 32765).state ≠ .free ∧ cattr (chan { state := .active } 0) 32765 0x17 = 0
     ∧ (chanOf (chan { state := .config }) 32765).state = .config ∧ (chanOf (chan { state := .active, draining := true }) 32765).draining = true
     ∧ (chanOf rig 32765).state = .free ∧ live rig = true ∧ rig.pending = []
     ∧ (let f := chan { state := .active, switching := true } 1 (putK 65531 { held 1 with fresh := true } rig)
        live f = true ∧ (chanOf f 32765).switching = true ∧ (kslotOf f (nextSlot f 32765)).state = .valid
        ∧ (kslotOf f (nextSlot f 32765)).fresh = true)
     ∧ (let s (n : Nat) := onTime (fun t => { t with ticks := n }) (chan { superseded := true })
        let ms := cattr (s 0) 32765 0x19
        live (s 0) = true ∧ (chanOf (s 0) 32765).superseded = true ∧ (readInternal handlePairWrap (s 0)).1.isSome = true
        ∧ (chanOf (s 0) 32765).switchedAt + ms * 10 ^ 6 ≤ (s (ms * 10 ^ 6)).time.ticks ∧ 0 < ms
        ∧ (s (ms * 10 ^ 6 - 1)).time.ticks < (chanOf (s 0) 32765).switchedAt + ms * 10 ^ 6)
     ∧ (chanOf rig 32765).superseded = false) := by decide +kernel

theorem witness_ClassificationEntries :
    (let k : ClassKey := { hport := 47, outer := some 4095, inner := some 4095 }
     let s := setAttr (chan { state := .config }) clsChan 32765 2 47
     let m := onTraffic (fun t => { t with classes := [{ key := k, chan := 32765 }] }) s
     mayB [.officer, .operator] [.provision, .service, .maintenance] 0 .officer s = true ∧ (chanOf s 32765).state ≠ .free ∧ keyOk s k = true
     ∧ cattr s 32765 2 = k.hport ∧ (∀ e ∈ s.traffic.classes, e.key ≠ k) ∧ (s.traffic.classes.filter (fun e => e.overflow)).length < 512
     ∧ entryFor m k = some { key := k, chan := 32765 } ∧ cattr s 32765 2 ≠ ({ k with hport := 46 } : ClassKey).hport ∧ (chanOf s 0).state = .free
     ∧ (∃ e ∈ m.traffic.classes, e.key = k) ∧ live s = true) := by decide +kernel

/-- Which keys share a bucket is Config's; where two do, a bucket and the overflow array can both be full for the second. -/
theorem witness_ClassificationEntries_full (k n : ClassKey) (h : Config.classBucket k = Config.classBucket n) (d : k ≠ n) :
    (let l : List ClassEntry := List.replicate 4 { key := k, chan := 0 } ++ List.replicate 512 { key := k, chan := 0, overflow := true }
     (∀ e ∈ l, e.key ≠ n) ∧ 4 ≤ (l.filter (fun e => !e.overflow && Config.classBucket e.key == Config.classBucket n)).length
     ∧ 512 ≤ (l.filter (fun e => e.overflow)).length) := by
  refine ⟨?_, ?_, ?_⟩
  · intro e he
    rcases List.mem_append.1 he with h | h <;> rw [(List.mem_replicate.1 h).2] <;> exact d
  · simp [h]
  · simp

/-- Two gate entries of 32 ns that keep every gate open. -/
def gateWords : Bytes := [32, 0, 0, 0, 0, 0, 0, 0xFF, 64, 0, 0, 0, 0, 0, 0, 0xFF]

theorem witness_GateListsAndLinks :
    (let s := poke 0x01000000 ([64, 0, 0, 0, 0, 0, 0, 0xFF] ++ [64, 0, 0, 0, 0, 0, 0, 0xFF]) (roomy rig)
     let g := setGate 95 { admin := gateEntries 2 ([64, 0, 0, 0, 0, 0, 0, 0xFF] ++ [64, 0, 0, 0, 0, 0, 0, 0xFF]), adminCycle := 128, loaded := true } rig
     let p := setGate 95 { pending := some 77 } rig
     let bad := setAttr (setAttr (setChan 3 { state := .active } g) clsChan 3 4 7) clsDev 0 8 0
     mayB [.officer, .operator] [.provision, .service, .maintenance] 0 .officer s = true ∧ absentQ s 95 = false ∧ isStandby s = false
     ∧ 1 ≤ 1024 ∧ (gateOf s 95).pending = none ∧ holding s = false ∧ (bufRead mCp 0 0 0x01000000 (8 * 2) s).1.isSome = true
     ∧ (bufRead mCp 0 0 0x01000000 (8 * 1024) s).1.isSome = true
     ∧ (let l := gateEntries 2 ((bufRead mCp 0 0 0x01000000 16 s).1.getD []); (∀ e ∈ l, entryGood e = true) ∧ l.foldl (fun a e => a + entryNs e) 0 = 128)
     ∧ ¬ (∀ e ∈ gateEntries 2 gateWords, entryGood e = true)
     ∧ (gateOf g 95).loaded = true ∧ 0 < (gateOf g 95).adminCycle ∧ (gateOf g 95).pending = none ∧ 999999999 < 1000000000
     ∧ configOk (setGate 95 (committed (gateOf g 95) 10000) g) = true
     ∧ configOk (setGate 95 { gateOf g 95 with pending := some 10000, loaded := false } g) = true
     ∧ configOk (setGate 95 (committed (gateOf bad 95) 10000) bad) = false
     ∧ (gateOf p 95).pending = some 77 ∧ netNs p < 77 ∧ 77 ≤ netNs (onTime (fun t => { t with now := { sec := 1 } }) p)
     ∧ (let w := putG 0 (held 1 0x1FFFFFFFF3) (wellhead {})
        47 < 48 ∧ fusedQ w (48 + 47) = false ∧ sealedQ w (48 + 47) = true ∧ adminUp w (48 + 47) = true ∧ (startSession 47 w).1 = none
        ∧ (startSession 47 (wellhead {})).1 = some .keyInvalid ∧ sealedQ rig (48 + 47) = false)) := by decide +kernel

/-- A CA of channel 5, keyed by MKA, with the peers given. -/
def inCa (x : Ca) (s : State := rig) : State :=
  setCa 4095 x (setAttr (setAttr (setChan 5 { state := .config, ca := 4095 } s) clsChan 5 0x17 0) clsCa 4095 1 5)

theorem witness_CaCommands :
    (let s := setAttr (setChan 5 { state := .config } rig) clsChan 5 0x17 0
     let e := inCa { exist := true }
     4095 < 4096 ∧ isStandby s = false ∧ mayB [.officer, .operator] [.provision, .service, .maintenance] 0 .officer s = true
     ∧ (∀ k ∈ s.cas, k.1 ≠ 4095) ∧ cattr s 5 0x17 = 0 ∧ (chanOf s 5).state = .config ∧ (chanOf s 5).ca = 0xFFFF ∧ 1023 < 1024
     ∧ helloRate s + 1000 / (attrDefault clsCa 4095 6 : Rat) ≤ 16384
     ∧ (caOf e 4095).exist = true ∧ cattr (setAttr s clsChan 5 0x17 1) 5 0x17 ≠ 0 ∧ (chanOf s 6).state ≠ .config ∧ (chanOf e 5).ca ≠ 0xFFFF ∧ 1024 ≤ 1024 ∧ 5 < 32766
     ∧ mayB [.officer, .operator] [.service, .maintenance] 0 .officer e = true ∧ 3600000 ≤ 3600000 ∧ keyServer e 4095 = true
     ∧ (caOf e 4095).stopped = false ∧ ((caOf e 4095).active && (caOf e 4095).ours) = false ∧ 3600000 < 3600001
     ∧ (caOf (inCa { exist := true, stopped := true }) 4095).stopped = true
     ∧ (let y := inCa { exist := true, active := true, ours := true }; ((caOf y 4095).active && (caOf y 4095).ours) = true)
     ∧ keyServer (inCa { exist := true, peers := [{ mi := 1, mn := 1, priority := 0, sci := 9 }] }) 4095 = false
     ∧ (chanOf e (caChan e 4095)).ca = 4095 ∧ (chanOf e (caChan e 4095)).state ≠ .active ∧ (chanOf e (caChan e 4095)).state ≠ .frozen
     ∧ (let a := setChan 5 { state := .frozen, ca := 4095 } e; (chanOf a (caChan a 4095)).ca = 4095 ∧ (chanOf a (caChan a 4095)).state = .frozen)) := by
  decide +kernel

/-- The block holding the lease with the keys of its CA. -/
def runningCa (x : Ca) : State :=
  onKeys (fun k => { k with internal := [(handleIck 4095, plainLine 6 0), (handleKek 4095, plainLine 5 0)] })
    (onPair (fun p => { p with lease := .holder }) (setAttr (setAttr (inCa { x with exist := true, kekBytes := 16 }) clsCa 4095 3 0x4101) clsChan 5 0x0B 77))

/-- The block with an MKPDU of a member waiting, its message number given. -/
def hearing (x : Ca) (mn : Nat) (s : State := runningCa x) : State :=
  let p : Peer := { mi := 1, mn := 7, priority := 200, sci := 9 }
  onTraffic (fun t => { t with mkaIn := [(4095, beBytes 6 0x0180C2000003 ++ beBytes 6 9 ++ beBytes 2 0x888E
    ++ mkpdu s 4095 mn 9 false ((keyOctets 6).take 16))] }) (runningCa { mi := 2, mn := 5, peers := [p] })

/-- What the block reads from it. -/
def heard (s : State) : Option Mkpdu := (mkaTake 4095 s).1.bind (fun m => readMkpdu ((keyOctets 6).take 16) m.1 m.2)

theorem witness_RekeysAndPeers :
    (let p : Peer := { mi := 1, mn := 7, priority := 200, sci := 9 }
     let r := runningCa { due := true, mi := 2, peers := [p] }
     let up := setAttr r clsLport (cattr r 5 3) 1 1
     caRuns r 4095 = true ∧ startable r 4095 = true ∧ rekeysNow r < 64 ∧ (∀ k ∈ r.cas, k.1 < 4095 → startable r k.1 = false)
     ∧ r.keys.line = none ∧ lineOk (tget {} r.keys.internal (handleKek 4095)) = true
     ∧ startable (runningCa { mi := 2, peers := [p] }) 4095 = false
     ∧ caRuns up 4095 = true ∧ adminUp up (48 + cattr up (caChan up 4095) 3) = true
     ∧ (sealedQ up (48 + cattr up (caChan up 4095) 3) || decide ((portOf up (48 + cattr up (caChan up 4095) 3)).mgmt.length < 64)) = true
     ∧ mkaSentNow up < 16384 ∧ helloDue up 4095 = true ∧ lineOk (tget {} up.keys.internal (handleIck 4095)) = true
     ∧ (caOf up 4095).active = false ∧ helloDue (runningCa { sentAt := some 0 }) 4095 = false
     ∧ (mkaTake 4095 r).1 = none ∧ diverted r 4095 = false ∧ diverted (hearing { mi := 3 } 1) 4095 = true ∧ caRuns (hearing { mi := 3 } 1) 4095 = true
     ∧ attr (setAttr r clsCa 4095 8 60) clsCa 4095 8 ≠ 0 ∧ keyServer (setAttr r clsCa 4095 8 60) 4095 = true ∧ attr r clsCa 4095 8 = 0
     ∧ (caOf r 4095).switchedAt + 60 * 10 ^ 9 ≤ (onTime (fun t => { t with ticks := 60 * 10 ^ 9 }) r).time.ticks
     ∧ r.time.ticks < (caOf r 4095).switchedAt + 60 * 10 ^ 9
     ∧ keyServer (runningCa { peers := [{ p with priority := 0 }] }) 4095 = false) := by decide +kernel

theorem witness_RekeysAndPeers_received :
    (let r := hearing { mi := 3, peers := [{ mi := 2, mn := 5, priority := 0, sci := 1 }] } 1
     caRuns r 4095 = true ∧ (mkaTake 4095 r).1.isSome = true ∧ caRuns (mkaTake 4095 r).2 4095 = true
     ∧ (readInternal (handleIck 4095) (mkaTake 4095 r).2).1 = some (keyOctets 6) ∧ (caOf r 4095).kekBytes = 16
     ∧ (heard r).map (fun m => (m.mi, m.mn, m.lists)) = some (3, 1, [(2, 5)]) ∧ (heard r).map (·.ckn) = some (cknOf r 4095)
     ∧ (heard (hearing { mi := 3 } 1)).map (fun m => (m.mi, m.mn, m.lists)) = some (3, 1, [])
     ∧ (heard (hearing { mi := 1 } 8)).map (fun m => (m.mi, m.mn)) = some (1, 8)
     ∧ (heard (hearing { mi := 1 } 7)).map (fun m => (m.mi, m.mn)) = some (1, 7)
     ∧ (heard (hearing { mi := 2 } 1)).map (·.mi) = some (caOf r 4095).mi
     ∧ (heard (hearing { mi := 3 } 1 (setAttr (runningCa { mi := 3 }) clsCa 4095 3 0x4107))).map (fun m => decide (m.ckn = cknOf r 4095)) = some false
     ∧ (let z := onTraffic (fun t => { t with mkaIn := [(4095, zeros 60)] }) r; (mkaTake 4095 z).1.isSome = true ∧ heard z = none)) := by
  decide +kernel

theorem witness_RekeysAndPeers_life :
    (let r (n : Nat) := onTime (fun t => { t with ticks := n }) (runningCa { peers := [{ mi := 1, mn := 7, priority := 200, sci := 9 }] })
     let life := attr (r 0) clsCa 4095 7 * 10 ^ 6
     let gone (n : Nat) (p : Peer) : Bool := p.mi == 1 && decide (p.heard + life ≤ (r n).time.ticks)
     0 < life ∧ caRuns (r life) 4095 = true ∧ (∃ q ∈ (caOf (r life) 4095).peers, gone life q = true)
     ∧ (∀ q ∈ (caOf (r (life - 1)) 4095).peers ++ (caOf (r (life - 1)) 4095).potential, gone (life - 1) q = false)) := by decide +kernel

/-- A bound device whose mated link is keyed, with a lease and a pair state. -/
def mated (l : Lease) (p : PairState := .ready) (s : State := rig) : State :=
  onPair (fun x => { x with linkUp := true, lease := l, state := p }) (onNvm (fun n => { n with binding := some { id := 1, ek := [], point := [] } }) s)

/-- The pair's two keys in place. -/
def pairKeys (s : State) : State :=
  onKeys (fun k => { k with internal := [(handlePairWrap, plainLine 5 0), (handlePairLink, plainLine 6 0)] }) s

theorem witness_PairCommands :
    (let d := onGlb (fun g => { g with lifecycle := .debug }) (roomy rig)
     let own := poke 0x01000505 [0xD0, 0, 0, 0, 0, 0, 0, 1] d
     mayB [.officer] [.provision, .maintenance] 0 .officer (rig .maintenance) = true ∧ domOn d 78 = true ∧ holding d = false
     ∧ (bufRead mCp 0 0 0x01000000 1289 (wake 78 own)).1.isSome = true
     ∧ beAt ((bufRead mCp 0 0 0x01000000 1289 (wake 78 own)).1.getD []) 1281 8 ≠ deviceId own
     ∧ (let mine := poke 0x01000501 (beBytes 8 (deviceId d)) d
        beAt ((bufRead mCp 0 0 0x01000000 1289 (wake 78 mine)).1.getD []) 1281 8 = deviceId mine)
     ∧ paired (mated .holder) = true ∧ paired rig = false
     ∧ mayB [.officer] [.provision, .service, .maintenance] 0 .officer rig = true
     ∧ (let u := onPair (fun p => { p with linkUp := false }) (mated .standby); paired u = true ∧ u.pair.linkUp = false ∧ isHolder u = false)
     ∧ (let u := onPair (fun p => { p with linkUp := false }) (mated .holder); paired u = true ∧ u.pair.linkUp = false ∧ isHolder u = true)
     ∧ (mated .holder).pair.linkUp = true
     ∧ mayB [.officer, .operator] [.service, .maintenance] 0 .officer (mated .holder) = true
     ∧ (let h := onPair (fun p => { p with partner := some (3, 1, 2, 0) }) (mated .holder)
        isHolder h = true ∧ partnerReady h = true ∧ h.pair.handover = none ∧ h.pair.linkUp = true
        ∧ (onPair (fun p => { p with handover := some (none, false, 0) }) h).pair.handover.isSome = true)
     ∧ partnerReady (mated .holder) = false ∧ isHolder (mated .standby) = false) := by decide +kernel

/-- What part an identity names is Config's; whichever it is, a device of that part and one of the other part exist. -/
theorem witness_PairCommands_part (id : W64) :
    (let u (p : Bool) := onNvm (fun n => { n with part9624 := p }) rig
     Config.partOf id = (u (Config.partOf id)).nvm.part9624 ∧ Config.partOf id ≠ (u (!Config.partOf id)).nvm.part9624) := by
  refine ⟨rfl, ?_⟩
  show Config.partOf id ≠ !Config.partOf id
  cases Config.partOf id <;> decide

/-- The base point of P-384, as a point of 97 bytes. -/
def basePoint : Bytes := 4 :: (beBytes 48 p384Gx ++ beBytes 48 p384Gy)

theorem witness_PairingExchange :
    (let m := onNvm (fun n => { n with binding := some { id := 1, ek := [], point := basePoint } }) (mated .none .pairing)
     let x (e : PairExch) := onPair (fun p => { p with exch := e }) m
     let all := zeros 1088 ++ basePoint
     let at_ (n : Nat) := onTime (fun t => { t with ticks := n }) m
     live m = true ∧ paired m = true ∧ m.pair.linkUp = true ∧ pairKeyed m = false ∧ pairKeyed (pairKeys m) = true
     ∧ m.pair.exchAt + 10 ^ 8 ≤ (at_ (10 ^ 8)).time.ticks ∧ (at_ (10 ^ 8 - 1)).time.ticks < m.pair.exchAt + 10 ^ 8
     ∧ m.keys.entropyHeld = false ∧ (onKeys (fun k => { k with entropyHeld := true }) m).keys.entropyHeld = true
     ∧ rootGood (setDefect 48 2 false m) = true ∧ m.keys.line = none
     ∧ (x { ct := [1] }).pair.exch.ct ≠ [] ∧ (x { ct := [1] }).pair.exch.parts = 0
     ∧ (x { ct := [1], theirs := all.take 960, parts := 1 }).pair.exch.parts = 1
     ∧ (x { ct := [1], theirs := all.take 960, parts := 1 }).pair.exch.theirs.length + (all.drop 960).length = 1185
     ∧ (pairKeyOf (setDefect 48 2 false (x { ct := [1], theirs := all, parts := 2 }))).isSome = true ∧ 3 ≠ 2 ∧ 2 ≠ 0 + 1
     ∧ (x { ct := [1], theirs := all, parts := 2, pairKey := some 9 }).pair.exch.pairKey = some 9
     ∧ (pairKeyOf (setDefect 48 2 false (x { ct := [1], theirs := all, parts := 2, pairKey := some 9 }))).isSome = true) := by decide +kernel

theorem witness_LeaseMessages :
    (let h := mated .holder
     let r := onPair (fun p => { p with renews := [(5, 0)] }) h
     let late := onTime (fun t => { t with ticks := 600001 }) r
     live h = true ∧ paired h = true ∧ h.pair.linkUp = true ∧ isHolder h = true ∧ h.pair.alone = false ∧ isHolder (mated .standby) = false
     ∧ (mated .standby).glb.mode ≠ .recovery ∧ (mated .standby).pair.rxRenew = none
     ∧ (onPair (fun p => { p with rxRenew := some (7, 1) }) (mated .standby)).pair.rxRenew = some (7, 1) ∧ h.glb.mode ≠ .recovery
     ∧ r.pair.renews.find? (fun x => x.1 == 5 && decide (r.time.ticks ≤ x.2 + 1000 * pairAttr r 6)) = some (5, 0)
     ∧ (∀ x ∈ late.pair.renews, x.1 = 5 → x.2 + 1000 * pairAttr late 6 < late.time.ticks)
     ∧ (let a (n : Nat) := onTime (fun t => { t with ticks := n }) (onPair (fun p => { p with renewAt := some 0 }) h)
        let due := 1000 * pairAttr h 7
        (a due).pair.renewAt = some 0 ∧ 0 + due ≤ (a due).time.ticks ∧ (a (due - 1)).time.ticks < 0 + due)
     ∧ isHolder (mated .fenced) = false ∧ (mated .fenced).pair.lease = .fenced
     ∧ (mated .none .pairing (rig .recovery)).glb.mode = .recovery ∧ live (mated .none .pairing (rig .recovery)) = true) := by decide +kernel

theorem witness_LeaseChangesHands :
    (let e (n : Nat) := onPair (fun p => { p with lastEcho := n }) (mated .holder)
     let t := onTime (fun t => { t with ticks := 600000 })
     let st := onPair (fun p => { p with rxRenew := some (4, 1) }) (t (mated .standby))
     let two := onPair (fun p => { p with partner := some (3, 1, 2, 0) }) (pairKeys <| t (mated .none .ready (onGlb (fun g => { g with lifecycle := .debug }) rig)))
     live (e 1) = true ∧ paired (e 1) = true ∧ isHolder (e 1) = true ∧ (e 1).pair.alone = false ∧ (e 1).pair.leaseEnd ≤ (e 1).time.ticks
     ∧ (e 1).pair.lastEcho = 1 ∧ (e 0).pair.lastEcho ≠ 1
     ∧ st.pair.lease = .standby ∧ st.pair.state = .ready ∧ (∃ n, n = 4 ∧ st.pair.rxRenew = some (n, 1)) ∧ st.pair.grantEnd + 20000 < st.time.ticks
     ∧ (mated .standby).time.ticks ≤ (mated .standby).pair.grantEnd + 20000
     ∧ two.pair.state = .ready ∧ two.pair.lease = .none ∧ partnerReady two = true ∧ readyKeeps two = true
     ∧ max two.pair.lastLeaseMsg two.pair.keyedAt + 1000 * pairAttr two 6 ≤ two.time.ticks
     ∧ (let k := putK 65530 (held 1) (putK 65531 (held 1) two); installedSlots k = [65530, 65531] ∨ installedSlots k = [65531, 65530])
     ∧ pairAttr (setAttr two clsPair 0 5 1) 5 = (if roleB (setAttr two clsPair 0 5 1) then 1 else 0)
     ∧ (mated .standby).pair.linkUp = true ∧ live two = true ∧ live st = true) := by
  refine ⟨by decide, by decide, by decide, by decide, by decide, by decide, by decide, by decide, by decide, ⟨4, rfl, by decide⟩, ?_⟩
  decide +kernel

theorem witness_WatermarksAndHandover :
    (let h := setPn 65530 2 (putK 65530 (held 1) (pairKeys (mated .holder)))
     let b := onPair (fun p => { p with batches := [(3, [(65530, 1)])] }) h
     let d := onPair (fun p => { p with handover := some (some 0, false, 0) }) h
     live h = true ∧ paired h = true ∧ h.pair.linkUp = true ∧ mirroring h = true ∧ (changedMarks h).take 48 = [65530]
     ∧ isHolder (mated .standby) = false ∧ b.pair.batches.find? (fun x => x.1 == 3) = some (3, [(65530, 1)]) ∧ b.pair.handover = none
     ∧ (∀ x ∈ b.pair.batches, x.1 ≠ 4) ∧ d.pair.handover = some (some 0, false, 0) ∧ isHolder d = true ∧ (mated .standby).pair.state = .ready ∧ (changedMarks h).take 48 ≠ []
     ∧ (let n := 1000 * pairAttr d 9; 0 + n ≤ (onTime (fun t => { t with ticks := n }) d).time.ticks ∧ d.time.ticks < 0 + n)
     ∧ 33 ∈ byRole (setCluster 33 { role := .idle } (setDom rig 33 { state := .ret })) .idle
     ∧ (domOf (setDom rig 33 { state := .ret }) 33).state = .ret) := by decide +kernel

theorem witness_MirroredObjects :
    (let k := pairKeys (mated .standby)
     let k' := setDefect 48 2 false k
     let o := mirObj clsPol 65531
     let old := onPair (fun p => { p with heldVer := [(o, 5)] }) k
     let h := onPair (fun p => { p with versions := [(o, 6)] }) (mated .holder)
     live k = true ∧ paired k = true ∧ k.pair.linkUp = true ∧ isHolder k = false ∧ k.glb.mode ≠ .recovery ∧ pairKeyed k' = true
     ∧ 5 ≤ tget 0 old.pair.heldVer o ∧ tget 0 k.pair.heldVer o < 1 ∧ (takeObject o (zeros (bodyLength clsPol 65531)) k').1 = .ok
     ∧ (takeObject o [] k').1 ≠ .ok ∧ isHolder h = true ∧ h.glb.mode ≠ .recovery ∧ 5 < verOf h o
     ∧ tget 0 h.pair.acked o < verOf h o ∧ tget 0 h.pair.versions o ≠ 0 ∧ h.pair.state = .ready ∧ withheld h o = false
     ∧ tget 0 h.pair.sentAt o + 200000 ≤ (onTime (fun t => { t with ticks := 200000 }) h).time.ticks ∧ h.time.ticks < tget 0 h.pair.sentAt o + 200000
     ∧ (let c (n : Nat) := onTime (fun t => { t with ticks := n }) (onPair (fun p => { p with cmpAt := some 0 }) h)
        (c 0).pair.cmpAt = some 0 ∧ 0 + 10 ^ 6 ≤ (c (10 ^ 6)).time.ticks ∧ (c 999999).time.ticks < 0 + 10 ^ 6)
     ∧ (mated .holder .notReady).pair.state = .notReady ∧ isHolder (mated .standby .notReady) = false
     ∧ verOf k o ≤ tget 0 k.pair.acked o) := by decide +kernel

theorem witness_MaintenanceCommands :
    (let s := roomy rig
     let m := roomy (rig .maintenance)
     let sg := setAttr rig clsLport 47 1 1
     mayB [.officer, .operator, .observer] [] 0 .officer s = true ∧ holding s = false
     ∧ (let k := onNvm (fun n => { n with cal := some [1, 2, 3] }) s; (bufWrite mCp 0 0 0x01000000 (calSet k) k).1 = true) ∧ 1 < 2 ∧ 2 ≤ 2 ∧ 0 < 1 ∧ 1 ≤ 15 ∧ 15 ≤ 30 ∧ 30 < 31
     ∧ (bufWrite mCp 0 0 0x01000000 (sumpHead s ++ portTable s) s).1 = true
     ∧ mayB [.officer] [.maintenance, .recovery] 0 .officer m = true ∧ holding m = false ∧ (bufRead mCp 0 0 0x01000000 65536 m).1.isSome = true
     ∧ calFits m (zeros 65536) = false
     ∧ mayB [.officer] [.maintenance] 0 .officer m = true ∧ drained m = true ∧ drained (setAttr m clsLport 47 1 1) = false
     ∧ mayB [.officer, .operator] [.provision, .service, .maintenance] 0 .officer s = true ∧ fusedQ s 95 = false
     ∧ (∃ k ∈ sgPorts (portSg 95), fusedQ sg k = false ∧ adminUp sg k = true)
     ∧ (∀ k ∈ sgPorts (portSg 95), fusedQ s k = false → adminUp s k = false) ∧ (reach [42 + portSg 95] s).1 = none
     ∧ mayB [.officer, .operator] [] 0 .officer s = true ∧ laIdle s 0 = true ∧ laIdle (setLa 0 { en := true } s) 0 = false ∧ s.dp.claim = none
     ∧ (let c := onDp (fun d => { d with claim := some (0, 5) }) s; c.dp.claim ≠ none ∧ claimedBy c 0 = true)
     ∧ claimedBy (onDp (fun d => { d with claim := some (1, 5) }) s) 0 = false) := by decide +kernel

/-- Host port H0 and line port L0 up, channel 5 ACTIVE between them and classified for untagged frames, the device the holder. -/
def flowing (s : State := rig) : State :=
  let s := setAttr (setAttr s clsHport 0 1 1) clsLport 0 1 1
  let s := setPort 48 { link := true } (setPort 0 { link := true } (setChan 5 { state := .active } s))
  onPair (fun p => { p with lease := .holder }) (onPmu (fun p => { p with pAdm := 1800, pDisp := 1800, capAct := 32, capFig := 57600 })
    (onTraffic (fun t => { t with classes := [{ key := { hport := 0, outer := none, inner := none }, chan := 5 }] }) s))

/-- An encrypt frame of channel 5 at some stage. -/
def fr (st : Stage) (tc : Nat := 0) (d : Dir := .enc) : Frame :=
  { chan := 5, dir := d, tc := tc, tint := .green, flen := 64, slots := 6, ingress := if d = .enc then 0 else 48,
    egress := if d = .enc then 48 else 0, ebytes := 84, data := zeros 60, tr := 0, deadline := none, tag := 0, stage := st, slot := 10, pn := 7 }

/-- A host frame of 60 bytes and a MACsec frame of 84, both to address zero. -/
def hostBytes : Bytes := zeros 60
def lineBytes84 : Bytes := zeros 12 ++ [0x88, 0xE5, 0x0C, 0, 0, 0, 0, 7] ++ zeros 64

theorem witness_FramesReceived :
    (let s := flowing
     let hit := setAttr s clsHport 0 0x10 (2 ^ 56 + 3 * 2 ^ 48)
     let f : Frame := { chan := 5, dir := .enc, tc := 0, tint := .green, flen := 64, slots := frameSlots s 5 64, ingress := 0, egress := egressQ s 5 .enc
                        ebytes := eBytes s (egressQ s 5 .enc) 64, data := hostBytes, tr := 0, deadline := none, tag := 0, stage := .queued }
     live s = true ∧ receives rig 0 = false ∧ receives s (0 : LPort).val = true ∧ (zeros 59).length < 60 ∧ hostBytes.length = 60
     ∧ (zeros 15997).length > 15996
     ∧ filterHit hit 0 hostBytes = some (0, 3) ∧ (ringOf (setRing 3 { en := true } hit) 3).en = true ∧ divertedGranules hit + cdiv 60 256 ≤ 12288
     ∧ filterHit s 0 hostBytes = none ∧ pattr s 0 3 = 0xFFFF ∧ entryFor (onTraffic (fun t => { t with classes := [] }) s) (hostTags 0 hostBytes).1 = none
     ∧ inTraffic s = true ∧ s.pair.handover = none
     ∧ entryFor s (hostTags 0 hostBytes).1 = some { key := { hport := 0, outer := none, inner := none }, chan := 5 } ∧ (chanOf s 5).state ≠ .free
     ∧ (police 5 .enc 64 (hostTags 0 hostBytes).2 (countRx 0 64 s)).1 = .green ∧ portTests f (countRx 0 64 s) = none
     ∧ roomFor f (countRx 0 64 s) = some .shared ∧ loadTests f (gateWait f.egress f.tc (countRx 0 64 s)).1 (countRx 0 64 s) = none
     ∧ roomFor f (setAttr (setAttr (countRx 0 64 s) clsLport 0 0x0C 0) clsLport 0 0x0D 0) = none) := by decide +kernel

theorem witness_FramesReceived_line :
    (let k := putK 10 (held 1) (setAttr flowing clsChan 5 0x15 64)
     let u := onRx 0 (fun r => { r with closed := [(5, zeros 84, 9)] }) k
     let p := setAttr (setWh 0 { rx := { inbox := [{ data := [4, 0, 0, 1, 9], seq := 0, kp := false, time := {} }] } } (setAttr (setAttr rig clsLport 0 0x20 1) clsLport 0 1 1)) clsLport 0 0x22 7
     let w (f : Frame) := putFrame 3 f k
     receives k 48 = true ∧ 16036 < (zeros 16037).length ∧ filterHit k 48 lineBytes84 = none ∧ lineBytes84.length = 84
     ∧ (clearTags (portTic k 48) lineBytes84).1 = 12 ∧ beAt (zeros 60) 12 2 ≠ 0x88E5 ∧ 32766 ≤ pattr k 48 0x21
     ∧ secTag (zeros 12 ++ [0x88, 0xE5, 0x8C] ++ zeros 69) 12 = none ∧ beAt lineBytes84 12 2 = 0x88E5
     ∧ (match secTag lineBytes84 12 with | some x => decide (x.sdl ≤ 15984 ∧ x.an = 0 ∧ x.sci = none) | none => false) = true
     ∧ secyFor k 0 0 none none = some 5 ∧ slotFor k 5 0 = some 10 ∧ k.glb.mode ≠ .provision
     ∧ (whOf u 0).rx.closed = (5, zeros 84, 9) :: [] ∧ cattr u 5 3 = 0 ∧ (chanOf u 5).state = .active
     ∧ (let v := onRx 0 (fun r => { r with closed := [] }) u; slotFor v 5 (beAt (zeros 84) 0 8 / 2 ^ 62 % 4) = some 10) ∧ u.glb.mode ≠ .provision
     ∧ frameOf (w (fr .replayWait 0 .dec)) 3 = some (fr .replayWait 0 .dec) ∧ replayRuns (w (fr .replayWait 0 .dec)) (fr .replayWait 0 .dec) = true
     ∧ pnBusy (w (fr .replayWait 0 .dec)) 3 (fr .replayWait 0 .dec) = false ∧ replayOk (w (fr .replayWait 0 .dec)) (fr .replayWait 0 .dec) = true
     ∧ replayOk (putReplay 10 { high := 7, seen := [7] } (w (fr .replayWait 0 .dec))) (fr .replayWait 0 .dec) = false
     ∧ (inboxTake 0 (isType 4) p).1.isSome = true ∧ listening p 0 = true ∧ live p = true
     ∧ attr (countEv { group := 8, code := 0, inst := 48 } 1 (setDefect 0 2 false (inboxTake 0 (isType 4) p).2)) clsLport 0 0x22 = 7) := by decide +kernel

theorem witness_RequestsInTheArray :
    (let s (f : Frame) := putK 10 { held 1 with enabled := true } (putFrame 3 f flowing)
     let e := fr .released
     let at10 : Frame := { e with slot := 10 }
     let two := putFrame 4 { e with released := 1 } (s e)
     let full := (upFrom 0 34).foldl (fun s c => setCluster c { role := .idle } s) (s e)
     let broken := putK 10 { held 1 with line := { (held 1).line with c0 := (held 1).line.c0 ^^^ 1 } } (s e)
     let c0 (q : NatList) (p : Tab Pipe) (s : State) := setCluster 0 { queue := q, pipes := p } s
     let busy : Tab Pipe := [(0, { run := some 11, left := 9 }), (1, { run := some 12, left := 9 }), (2, { run := some 13, left := 9 }), (3, { run := some 14, left := 9 })]
     let x := c0 [3] busy (s (fr (.inCluster 0) 7))
     live (s e) = true ∧ paired (s e) = false ∧ frameOf (s e) 3 = some e ∧ e.stage = .released
     ∧ mustWait two { e with released := 1 } = true ∧ mustWait (s e) e = false
     ∧ (frameOf (s { e with plain := true }) 3).any (fun f => f.plain) = true ∧ e.plain = false ∧ placeFor full e = none ∧ placeFor (s e) e = some 0
     ∧ dispatchHalt at10 { link := true } false (s e) = some haltLinkRam ∧ dispatchHalt at10 { sa := true } false (s e) = some haltSaState
     ∧ dispatchHalt at10 {} true (s e) = some haltKeyState ∧ dispatchHalt at10 {} false broken = some haltKeyState
     ∧ dispatchHalt at10 {} false (s e) = none ∧ curSlot (s e) 5 = 10
     ∧ (kslotOf flowing (curSlot flowing 5)).state ≠ .valid ∧ dispatchHalt at10 {} false flowing = none
     ∧ (kslotOf (s e) (curSlot (s e) 5)).state = .valid ∧ (kslotOf (s e) 10).enabled = true
     ∧ (clusterOf (feedAll 0 x) 0).queue = [3] ∧ isExpress (feedAll 0 x) 3 = true ∧ victim (feedAll 0 x) 0 = some 0
     ∧ (tget {} (clusterOf (feedAll 0 x) 0).pipes 0).run = some 11 ∧ (clusterOf (feedAll 0 (s e)) 0).queue = []
     ∧ (let f : Frame := { fr (.inCluster 0) 0 .dec with key := (held 1).line }
        let r (left : Nat) := c0 [] [(0, { run := some 3, left := left })] (s f)
        frameOf (r 0) 3 = some f ∧ f.stage = .inCluster 0 ∧ hasRun (r 6) 0 3 = false ∧ hasRun (r 0) 0 3 = true
        ∧ f.dir = .dec ∧ f.pass = true ∧ f.shadow = false ∧ f.doomed = none ∧ cattr (r 0) 5 0x15 ≤ 4096
        ∧ 4096 < cattr (setAttr (r 0) clsChan 5 0x15 (2 ^ 30)) 5 0x15
        ∧ (kslotOf (r 0) 10).state = .valid ∧ lineKey (kslotOf (r 0) 10).line = lineKey f.key
        ∧ ({ f with pass := false } : Frame).pass = false)) := by decide +kernel

/-- The memory keys of a block that has made none are sound. -/
theorem witness_soundMemoryKeys (n : Nat) : lineOk (tget {} flowing.keys.ime n) = true ∨ tget {} flowing.keys.ime n = {} := Or.inr rfl

theorem witness_ClustersFailAndRotate :
    (let rep := onMaint (fun m => { m with replacing := [(7, 33)] }) rig
     let rot (mb : Option Mb) := onMaint (fun m => { m with rotating := some (33, mb) }) (setCluster 33 { role := .test } rig)
     let none' := onMaint (fun m => { m with replacing := [(1, 32), (2, 33)] }) rig
     let tick (n : Nat) := onTime (fun t => { t with ticks := n })
     let gone := onMaint (fun m => { m with replacing := [(7, 33)] }) (setCluster 7 { role := .retired } rig)
     live rig = true ∧ (clusterOf rig 33).role ≠ .retired ∧ (clusterOf (setCluster 33 { role := .retired } rig) 33).role = .retired
     ∧ domOn rep 33 = true ∧ (7, 33) ∈ rep.maint.replacing ∧ rep.maint.rotating = none
     ∧ rig.glb.mode = .service ∧ attr rig clsDev 0 0x0B ≠ 0 ∧ rig.maint.rotating = none ∧ rig.maint.paused = false
     ∧ passed (tick (rotationNs rig) rig) rig.maint.stepAt (rotationNs rig) = true ∧ passed rig rig.maint.stepAt (rotationNs rig) = false
     ∧ freeSpare none' = none ∧ freeSpare rig = some 32 ∧ nextCluster rig = some 0
     ∧ nextCluster (onMaint (fun m => { m with nextTest := 33 }) rig) = some 33
     ∧ (rot (some 4)).maint.rotating = some (33, some 4) ∧ (rot none).maint.rotating = some (33, none)
     ∧ (clusterOf (rot none) 33).role = .test ∧ (mbxOf (rot (some 4)) 4).orphan = false
     ∧ rep.maint.replacing.any (fun r => (clusterOf rep r.1).role == .retired) = false ∧ passed (tick (10 ^ 9) rep) rep.maint.retiredAt (10 ^ 9) = true
     ∧ gone.maint.replacing.any (fun r => (clusterOf gone r.1).role == .retired) = true ∧ passed rep rep.maint.retiredAt (10 ^ 9) = false
     ∧ mayB [.officer, .operator] [.provision, .service, .maintenance] 0 .officer rig = true ∧ 34 ≤ 34 ∧ 33 < 34) := by decide +kernel

theorem witness_EgressAndRelease_release :
    (let e := fr .queued 7
     let a := { fr .queued 5 with tag := 4 }
     let mg (n : Nat) (s : State) := setPort 48 { link := true, mgmt := [{ data := zeros 60, tag := n }] } s
     let s (f : Frame) := gateTurn 48 (putFrame 3 f flowing)
     let m := gateTurn 48 (putFrame 3 a (setAttr flowing clsChan 5 0x1A 1000))
     let d (f : Frame) : Frame := { f with deadline := some 0 }
     let first (u : State) := u.traffic.frames.find? (fun p => p.2.egress == 48 && p.2.tc == 7 && !p.2.shadow && p.2.stage == .queued)
     let tier (u : State) := leastTag ((heads u 48 1).filter (fun p => eligible u p.2))
     let full := gateTurn 48 (putFrame 4 { fr .released with slots := 10 ^ 9 } flowing)
     live (putFrame 3 e flowing) = true ∧ first (s e) = some (3, e) ∧ tooLate (s e) e (leastPath (s e) e) = false
     ∧ first (s (d e)) = some (3, d e) ∧ tooLate (s (d e)) (d e) (leastPath (s (d e)) (d e)) = true
     ∧ first m = none ∧ mayRelease m 48 = true ∧ mgmtHead m 48 = none ∧ tier m = some (3, a) ∧ tooLate m a (leastPath m a) = false
     ∧ (mgmtHead (mg 4 m) 48).any (fun x => decide (a.tag ≤ x.tag)) = true
     ∧ first (mg 3 m) = none ∧ mayRelease (mg 3 m) 48 = true ∧ (mgmtHead (mg 3 m) 48).any (fun x => decide (x.tag < a.tag)) = true
     ∧ first full = none ∧ mayRelease full 48 = false) := by decide +kernel

theorem witness_EgressAndRelease :
    (let d (f : Frame) : Frame := { f with deadline := some 0 }
     let c := { fr .complete 7 with ebytes := 116 }
     let t (f : Frame) := putFrame 3 f flowing
     let u (f : Frame) := gateTurn 48 (t f)
     let sl (f : Frame) := putFrame 3 { f with egress := 95 } (setAttr (setAttr (wellhead { tx := { running := true } } flowing) clsLport 47 1 1) clsLport 47 0x20 1)
     let may (f g : Frame) := (mediumFree (u f) 48 || mayCut (u f) 48 g.tc) && gateAllows (u f) 48 g.tc (8 * (g.ebytes - 12 : Rat) / speedGb (u f) 48)
          && launchAllows (u f) 48 g.tc (airNs (u f) 48 g.ebytes)
     live (t c) = true ∧ frameOf (t c) 3 = some c ∧ frameOf (t (d c)) 3 = some (d c) ∧ sealedQ (t c) 48 = false ∧ sends (t c) 48 = true
     ∧ candidate (u c) 48 0 (may c) = some (3, c) ∧ candidate (u (d c)) 48 0 (may (d c)) = some (3, d c)
     ∧ tooLate (u (d c)) (d c) (8 * (c.ebytes - 12 : Rat) / speedGb (u (d c)) 48) = true ∧ tooLate (u c) c (8 * (c.ebytes - 12 : Rat) / speedGb (u c) 48) = false
     ∧ sealedQ (sl c) 95 = true ∧ adminUp (sl c) 95 = true ∧ sending (sl c) (95 - 48) = true ∧ lanesOn (sl c) 95 = true
     ∧ candidate (sl c) 95 0 (fun _ => true) = some (3, { c with egress := 95 })
     ∧ tooLate (sl c) { c with egress := 95 } (cellsNs (sl c) 95 c.outp.length) = false
     ∧ candidate (sl (d { c with outp := zeros 84 })) 95 0 (fun _ => true) = some (3, { d { c with outp := zeros 84 } with egress := 95 })
     ∧ tooLate (sl (d { c with outp := zeros 84 })) { d { c with outp := zeros 84 } with egress := 95 }
         (cellsNs (sl (d { c with outp := zeros 84 })) 95 84) = true
     ∧ ([2, 0] : NatList).min? = some 0) := by decide +kernel

theorem witness_EgressAndRelease_ports :
    (let mg : MgmtFrame := { data := zeros 60, ident := some 4, launch := some (1, 5), released := some 0 }
     let s (now : Nat) := onTime (fun t => { t with now := { sec := 1, sub := now * 2 ^ 32 } }) (setPort 48 { link := true, mgmt := [mg], launchHeld := true } flowing)
     let u (now : Nat) := gateTurn 48 (s now)
     let g := setGate 95 { oper := [0xF020000000007530], cycle := 30000, admin := [], pending := some 100 } rig
     let on := setPort 48 { link := true, preemptOper := true } (setAttr flowing clsLport 0 5 1)
     live (s 4) = true ∧ (portOf (u 4) 48).mgmt = [mg] ∧ mg.launch = some (1, 5) ∧ (portOf (u 4) 48).launchHeld = true ∧ sends (u 4) 48 = true
     ∧ launchNs (1, 5) ≤ netNs (u 4) + 1 ∧ mg.ring = none ∧ mediumFree (u 4) 48 = true ∧ launchIsLate (u 4) 48 mg (launchNs (1, 5)) 0 = false
     ∧ (tsqOf (u 4) 48).entries.length < 16 ∧ mg.ident = some 4 ∧ netNs (u 6) ≤ launchNs (1, 5) + 1
     ∧ launchIsLate (u 6) 48 mg (launchNs (1, 5)) 0 = false ∧ (portOf (u 6) 48).mgmt = [mg]
     ∧ (portOf (u 106) 48).mgmt = [mg] ∧ (portOf (u 106) 48).launchHeld = true ∧ launchNs (1, 5) ≤ netNs (u 106) + 1
     ∧ launchIsLate (u 106) 48 mg (launchNs (1, 5)) 0 = true ∧ pattr (u 106) 48 0x0F ≠ 1 ∧ mediumFree (u 106) 48 = true
     ∧ (entryAt (gatePos (gateOf g 95) (netNs g)) 0 (gateOf g 95).oper).isSome = true ∧ (gateOf g 95).pending = some 100 ∧ netNs g < 100
     ∧ preemptOn on 48 = true ∧ (gateOf on 48).cur ≠ some 0
     ∧ (gateOf g 95).pending = some 100 ∧ 100 ≤ netNs (onTime (fun t => { t with now := { sec := 1 } }) g)
     ∧ rig.glb.mode = .service ∧ adminUp flowing 48 = true ∧ lanesOn flowing 48 = true ∧ fusedQ flowing 48 = false
     ∧ sealedQ flowing 48 = false ∧ sealedQ (wellhead {}) 95 = true ∧ pattr (setAttr flowing clsLport 0 5 2) 48 5 ≠ 0
     ∧ (portOf flowing 48).link = true) := by decide +kernel

theorem witness_EgressAndRelease_spill :
    (let sp := putFrame 3 { fr .spilling with spill := true } flowing
     let back := putFrame 3 { fr .spilled with spill := true } flowing
     frameOf sp 3 = some { fr .spilling with spill := true } ∧ live sp = true ∧ (fr .spilling).data ≠ []
     ∧ back.traffic.frames.find? (fun p => p.2.chan == 5 && p.2.dir == .enc && p.2.spill) = some (3, { fr .spilled with spill := true })
     ∧ cisternBytes back 5 .enc < 32768 ∧ granules (fr .spilled) ≤ sharedFree back
     ∧ sp.traffic.frames.find? (fun p => p.2.chan == 5 && p.2.dir == .enc && p.2.spill) = some (3, { fr .spilling with spill := true })
     ∧ 393215 ∈ (onMem (fun m => { m with quarantine := [393215] }) rig).mem.quarantine ∧ 393215 ∉ rig.mem.quarantine
     ∧ attr (setAttr rig clsDev 0 9 1) clsDev 0 9 ≤ rig.mem.heldGranules.length + 1) := by decide +kernel

theorem witness_MemoryAccesses :
    (let s := roomy rig
     let a : Access := { master := 2, colour := 0, world := 0, addr := 0x01000000, write := none, len := 256 }
     let w : Access := { a with write := some [1, 2], addr := 0x010FFFFE, len := 0 }
     let res := onMem (fun m => { m with regions := [(12, { lo := 0, hi := 0x10, attr := regionAttr 9 0x7F 30 })] }) rig
     let hold := onMem (fun m => { m with mpuEn := false }) s
     let dp (e : Bool) (addr : Nat) (s : State := s) := onDp (fun d => { d with en := true, inc := true, addr := addr, err := e }) s
     asleep s = false ∧ wellCut { a with addr := 0x01000001 } = false ∧ wellCut a = true ∧ closedMaster s 2 = false ∧ closedMaster s mDbg = true
     ∧ heldBack hold a = true ∧ heldBack s a = false
     ∧ checkCause s 2 (accessColour a) a.addr a.write.isSome = 0 ∧ wellCut w = true ∧ checkCause s 2 (accessColour w) w.addr w.write.isSome = 0
     ∧ checkCause s 2 0 0x01100000 false ≠ 0 ∧ wellCut { a with addr := 0x01100000 } = true ∧ s.mem.fault = none ∧ (ringOf s 16).en = false
     ∧ checkCause res 2 9 0x1000000000 false = 0 ∧ isRes 0x1000000000 = true ∧ wellCut { a with addr := 0x1000000000, colour := 9 } = true
     ∧ pcieUp s = true ∧ 1048320 + 256 ≤ 2 ^ 20 ∧ s.dp.en = false ∧ (dp false 0).dp.en = true ∧ (dp false 0).dp.inc = true
     ∧ holding (dp false 0 hold) = true ∧ holding (dp false 0) = false ∧ 1 ≤ 256
     ∧ 0x01000000 % 256 + 256 ≤ 256 ∧ 0x01000000 < 2 ^ 40 ∧ (dp true 0x01000000).dp.err = true ∧ (dp false 0x01000000).dp.err = false
     ∧ checkCause (dp false 0x01000000) mDp 0 0x01000000 false = 0 ∧ checkCause (dp false 0x01000000) mDp 0 0x01000000 true = 0
     ∧ checkCause (dp false 0x02000000) mDp 0 0x02000000 false = 1 ∧ checkCause (dp false 0x02000000) mDp 0 0x02000000 true = 1
     ∧ (zeros 256).length = 256) := by decide +kernel

theorem witness_MemoryAccesses_holds :
    (let hold (n : Nat) := onTime (fun t => { t with ticks := n }) (onMem (fun m => { m with mpuEn := false, holdAt := some 0 }) rig)
     let gyd (m h : Bool) := onMem (fun x => { x with mpuEn := m, gydomHold := true, held := h }) rig
     asleep rig = false ∧ pcieUp rig = true ∧ halted rig = false ∧ holding (hold 0) = true ∧ (hold 0).mem.holdAt = some 0
     ∧ 0 + 200000 ≤ (hold 200000).time.ticks ∧ (hold 199999).time.ticks < 0 + 200000 ∧ holding rig = false ∧ rig.mem.holdAt = none
     ∧ rig.mem.gydomHold = false ∧ (gyd true true).mem.gydomHold = true ∧ (gyd true true).mem.mpuEn = true ∧ (gyd false true).mem.mpuEn = false
     ∧ (gyd true true).mem.held = true ∧ (gyd true false).mem.held = false ∧ pcieUp (gyd true true) = true ∧ halted (gyd true true) = false
     ∧ (let r (x : RegionSet) : Region := { lo := x.lo &&& 0xFFFFF000, hi := x.hi &&& 0xFF, attr := x.attr &&& 0xEFDFFFFF }
        4 ≤ 11 ∧ 11 < 12 ∧ 12 ≤ 12 ∧ inWindow (r { n := 11, lo := 0x01000000, hi := 0, attr := regionAttr 0 0x7F 20 }) = false
        ∧ inWindow (r { n := 4, lo := 0, hi := 0x10, attr := regionAttr 0 0x7F 30 }) = true)) := by decide +kernel

theorem witness_InlineMemorySweeps :
    (let w (k : Nat) : Sweep := { index := k, ranges := [(0x1000000000, 0x1000000040)], ptr := 0x1000000000, target := true }
     let s (k : Nat) := onMem (fun m => { m with sweep := some (w k), regions := [(12, { lo := 0, hi := 0x10, attr := regionAttr 9 0x7F 30 })] }) rig
     let p (l : List Deferred) := onKeys (fun k => { k with deferred := l }) (onMem (fun m => { m with pendingSweep := 2 ^ 63 + 2 }) rig)
     asleep rig = false ∧ pcieUp rig = true ∧ halted rig = false ∧ 7 < 8 ∧ 8 ≤ 63 ∧ (s 9).mem.sweep = some (w 9) ∧ (w 9).index = 9 ∧ rig.mem.sweep = none
     ∧ (∀ k : Fin 64, 1 ≤ k.val → rig.mem.pendingSweep.getLsbD k.val = false)
     ∧ ((p []).mem.sweep = none ∧ (p []).mem.pendingSweep.getLsbD 1 = true ∧ renewing (p []) 1 = false
        ∧ (∀ j : Fin 64, 1 ≤ j.val → j.val < 1 → (p []).mem.pendingSweep.getLsbD j.val = false ∨ renewing (p []) j.val = true))
     ∧ (let d := p [.imeKey 1 true]
        renewing d 1 = true ∧ d.mem.pendingSweep.getLsbD 63 = true ∧ renewing d 63 = false
        ∧ (∀ j : Fin 64, 1 ≤ j.val → j.val < 63 → d.mem.pendingSweep.getLsbD j.val = false ∨ renewing d j.val = true))
     ∧ (∀ j : Fin 64, 1 ≤ j.val → (p [.imeKey 1 true, .imeKey 63 false]).mem.pendingSweep.getLsbD j.val = false
          ∨ renewing (p [.imeKey 1 true, .imeKey 63 false]) j.val = true)
     ∧ holding (s 9) = false ∧ holding (s 10) = false ∧ holding (onMem (fun m => { m with mpuEn := false }) (s 9)) = true
     ∧ nextLine (w 9).ranges (w 9).ptr = some 0x1000000000 ∧ 0x1000000000 % 64 = 0 ∧ checkCause (s 9) mSweep 9 0x1000000000 false = 0
     ∧ isRes 0x1000000000 = true ∧ (w 3).index = 3 ∧ checkCause (s 10) mSweep 10 0x1000000000 false ≠ 0 ∧ (w 10).index ≠ 3 ∧ (w 10).index ≠ 4
     ∧ (ringOf (s 10) 16).en = false
     ∧ (let e := onMem (fun m => { m with sweep := some { w 9 with ptr := 0x1000000040 } }) rig
        nextLine (w 9).ranges 0x1000000040 = none ∧ e.mem.sweep = some { w 9 with ptr := 0x1000000040 } ∧ e.keys.entropyHeld = false
        ∧ e.keys.line = none ∧ (onKeys (fun k => { k with entropyHeld := true }) e).keys.entropyHeld = true)) := by decide +kernel

theorem witness_EntropyAndMasks :
    (let l := onKeys (fun k => { k with line := some 1 }) rig
     let heldE (d : List Deferred) (n : Nat := 0) := onTime (fun t => { t with ticks := n }) (onKeys (fun k => { k with entropyHeld := true, deferred := d }) rig)
     let broken : Line := { plainLine 5 0 with c0 := (plainLine 5 0).c0 ^^^ 1 }
     let tick (n : Nat) (s : State) := onTime (fun t => { t with ticks := n }) s
     let taken (s : State) : Bool := s.pmu.clusters.any (fun x => x.2.reseeded == s.time.ticks && decide (x.1 < 34))
     asleep rig = false ∧ halted rig = false ∧ paired rig = false ∧ rig.keys.line = none ∧ l.keys.line = some 1 ∧ rig.keys.entropyHeld = false
     ∧ attr rig clsDev 0 3 = 0 ∧ attr (setAttr rig clsDev 0 3 1) clsDev 0 3 ≠ 0 ∧ (heldE []).keys.entropyHeld = true ∧ (heldE []).keys.deferred = []
     ∧ (heldE [.imeKey 9 true]).keys.deferred = [.imeKey 9 true] ∧ (heldE [.imeKey 9 true]).keys.line = none
     ∧ (let ms := attr rig clsDev 0 4 * 1000000
        (heldE [] ms).keys.heldSince + ms ≤ (heldE [] ms).time.ticks ∧ (heldE [] (ms - 1)).time.ticks < (heldE [] (ms - 1)).keys.heldSince + ms)
     ∧ (kslotOf (putK 65531 { held 5 with line := broken } rig) 65531).line ≠ {} ∧ lineOk broken = false
     ∧ (gslotOf (putG 1023 { held 5 with line := broken } rig) 1023).line ≠ {}
     ∧ taken (tick 1000000 rig) = false ∧ (clusterOf rig 33).reseeded + 1000000 ≤ (tick 1000000 rig).time.ticks
     ∧ taken (tick 1000000 (setCluster 3 { reseeded := 1000000 } rig)) = true ∧ rig.time.ticks < (clusterOf rig 33).reseeded + 1000000
     ∧ lineOk (kslotOf (putK 65531 (held 5) rig) 65531).line = true ∧ (kslotOf (putK 65531 (held 5) rig) 65531).line ≠ {}
     ∧ lineOk (gslotOf (putG 1023 (held 5) rig) 1023).line = true
     ∧ lineOk (tget {} (onKeys (fun k => { k with ime := [(127, plainLine 5 0)] }) rig).keys.ime 127) = true
     ∧ 1 < spaceSize .internal ∧ lineOk (tget {} (onKeys (fun k => { k with internal := [(1, plainLine 5 0)] }) rig).keys.internal 1) = true
     ∧ (let b : Bank := { s0 := 1, s1 := 2, check := drkCheck (1 ^^^ 2) }
        let s := onStp (fun p => { p with bankA := some b }) rig
        activeBank s = some b ∧ s.keys.line = none ∧ s.keys.drkAt + 10 ^ 9 ≤ (tick (10 ^ 9) s).time.ticks ∧ drkCheck b.drk = b.check
        ∧ s.time.ticks < s.keys.drkAt + 10 ^ 9 ∧ activeBank rig = none)) := by
  decide +kernel

/-- A lookaside descriptor: encrypt 16 bytes at 0x01002000 under general slot 9. -/
def laDesc : Bytes :=
  leBytes 2 1 ++ leBytes 2 0x23 ++ leBytes 2 9 ++ [0, 0] ++ leBytes 4 16 ++ leBytes 4 0 ++ leBytes 8 0x01002000 ++ leBytes 8 0x01003000 ++ zeros 32

theorem witness_LookasideEngine :
    (let q : LaQ := { en := true, descBase := 0x01000000, descProd := 1, cplBase := 0x01001000, irqEn := true }
     let s (x : LaQ) := setLa 0 x (putG 9 (held 5 0x1FFFFFFFF2) (roomy rig))
     let both (turn : Nat) : State := { setLa 1 q (s q) with laTurn := turn }
     let w : LaWork := { index := 0, desc := laDesc }
     let run := s { q with work := [w] }
     live (s q) = true ∧ pcieUp (s q) = true ∧ holding (s q) = false ∧ laMayFetch (s {}) 0 = false ∧ laMayFetch (s q) 0 = true ∧ laMayFetch (s q) (1 - 0) = false
     ∧ laMayFetch (both 0) (1 - 0) = true ∧ (both 0).laTurn = 0 ∧ (both 1).laTurn ≠ 0 ∧ tget {} (s q).keys.internal handleCtx = {}
     ∧ (bufRead mLa 0 (laWorld 0).code 0x01000000 64 (s q)).1.isSome = true
     ∧ (bufRead mLa 0 (laWorld 0).code 0x02000000 64 (s { q with descBase := 0x02000000 })).1 = none
     ∧ ({ index := 0, desc := zeros 64 } : LaWork).formOk = false ∧ w.formOk = true
     ∧ (laOf (s q) 0).work.find? (fun w => !w.done && !laBusy (s q) 0 w.index) = none
     ∧ (laOf run 0).work.find? (fun w => !w.done && !laBusy run 0 w.index) = some w
     ∧ (placeChunk run (slotsOf w.next.1 w.next.2)).map (fun x => x.1) = some 0
     ∧ placeChunk ((upFrom 0 34).foldl (fun s c => setCluster c { role := .idle } s) run) (slotsOf w.next.1 w.next.2) = none
     ∧ (bufRead mLa w.colour (laWorld 0).code (w.src + w.aadDone + w.textDone) (w.next.1 + w.next.2) run).1.isSome = true
     ∧ (bufRead mLa w.colour (laWorld 0).code (0x02000000 + w.aadDone + w.textDone) (w.next.1 + w.next.2) run).1 = none
     ∧ (gslotOf (setLa 0 { q with work := [w] } (roomy rig)) w.gslot).state = .empty
     ∧ (gslotOf run w.gslot).state ≠ .empty ∧ (gslotOf run w.gslot).state ≠ .invalid ∧ lineOk (gslotOf run w.gslot).line = true
     ∧ (laOf run 0).work.find? (fun w => w.done) = none) := by decide +kernel

theorem witness_LookasideEngine_completes :
    (let q : LaQ := { en := true, descBase := 0x01000000, descProd := 1, cplBase := 0x01001000, irqEn := true }
     let s (x : LaQ) := setLa 0 x (putG 9 (held 5 0x1FFFFFFFF2) (roomy rig))
     let w : LaWork := { index := 0, desc := laDesc }
     let ran : LaWork := { w with textDone := 16, done := true, outp := zeros 16 }
     let inArray := addReq { kind := .chunk 0 0 16 ran, cluster := some 3 } (setCluster 3 { pipes := [(0, { run := some 0, left := 0 })] } (s { q with work := [w] }))
     let ended (st : Status) := s { q with work := [{ w with status := st, done := true, outp := zeros 16 }] }
     let parted (st : Status) (base : Nat) := setLa 0 { q with cplBase := base, work := (laOf (ended st) 0).work.filter (fun y => !(y.index == 0)) } (ended st)
     frameOf inArray 0 = none ∧ reqOf inArray 0 = some { kind := .chunk 0 0 16 ran, cluster := some 3 } ∧ hasRun inArray 3 0 = true
     ∧ ((laOf (ended .badValue) 0).work.find? (fun w => w.done)).any (fun x => x.status != .ok && x.status != .tagFail) = true
     ∧ (masterWrite mLa 0 (laWorld 0).code (q.cplBase + 16 * q.cplProd) (laRecord w) (parted .badValue q.cplBase)).1 = 0
     ∧ (masterWrite mLa 0 (laWorld 0).code 0x02000000 (laRecord w) (parted .badValue 0x02000000)).1 ≠ 0 ∧ w.irq = true ∧ q.irqEn = true
     ∧ ((laOf (ended .ok) 0).work.find? (fun w => w.done)).any (fun x => x.status == .ok) = true
     ∧ (laWrite 0 ran (ended .ok)).1.status = .ok ∧ halted (laWrite 0 ran (ended .ok)).2 = false
     ∧ (masterWrite mLa 0 (laWorld 0).code (q.cplBase + 16 * q.cplProd) (laRecord ran) (parted .ok q.cplBase)).1 = 0) := by decide +kernel

/-- A ring at 0x01000000 with one posted descriptor of 2,000 bytes at 0x01080000, which only the buffers' region lets be written. -/
def ringed (x : Ring) (both : Bool := true) : State :=
  setRing 0 { x with en := true, base := 0x01000000 } (poke 0x01000000 (leBytes 8 0x01080000 ++ leBytes 2 2000) (onMem (fun m => { m with
    regions := [(3, { lo := 0x01000000, hi := 0, attr := if both then regionAttr 0 0x7F 12 else regionAttr 0 0x7F 12 &&& 0xBFFFFFFF }),
                (4, { lo := 0x01080000, hi := 0, attr := regionAttr 0 0x7F 16 })] }) rig))

theorem witness_RingsInterruptsAndI2c :
    (let p : Punt := { port := 0, entry := 0, data := zeros 60, time := {} }
     let x : Ring := { waiting := [p], prod := 1, irqEn := true }
     let s := ringed x
     let whole (s : State) : Bool := match reserveFor 0 p s with
       | (.held l, u) => (match fillBuffers 0 l (puntHeader p ++ p.data) u with
         | (some y, v) => (writeBack 0 0x01000000 (((y.head?).map (·.1)).getD 0) (((y.getLast?).map (·.1)).getD 0) y.reverse v).1
         | (none, _) => false)
       | _ => false
     let tx (d : Bytes) (s : State) := setRing 15 { en := true, base := 0x01000000, prod := 1 } (poke 0x01000000 d (roomy s))
     let up := setAttr (setAttr (setAttr rig clsLport 47 1 1) clsLport 0 1 1) clsLport 47 0x20 1
     let d (q : Byte) : Bytes := leBytes 8 0x01001000 ++ leBytes 2 60 ++ [q, 0] ++ zeros 20
     asleep s = false ∧ pcieUp s = true ∧ (15 : RingNo).val < 16 ∧ halted s = false ∧ holding s = false ∧ (ringOf s 0).en = true ∧ (ringOf s 0).waiting = p :: []
     ∧ whole s = true ∧ whole (ringed x false) = false ∧ (match (reserveFor 0 p (ringed x false)).1 with | .held _ => true | _ => false) = true
     ∧ (match (reserveFor 0 p (ringed { x with prod := 0 })).1 with | .short => true | _ => false) = true
     ∧ (match (reserveFor 0 p (setRing 0 { x with en := true, base := 0x02000000 } s)).1 with | .refused => true | _ => false) = true
     ∧ (ringOf s 0).reserved = none ∧ (ringOf (puntReserve 0 p s) 0).reserved.isSome = true ∧ wouldFit s 0 p = true ∧ wouldFit (ringed { x with prod := 0 }) 0 p = false
     ∧ (ringOf (tx (d 48) up) 15).next ≠ (ringOf (tx (d 48) up) 15).prod % 2 ^ 4 ∧ (masterRead mDma 0 3 0x01000000 32 (tx (d 48) up)).1 = (d 48, 0)
     ∧ txRule (tx (d 48) up) (zeros 32) = some 2 ∧ txRule (tx (d 48) up) (d 48) = none ∧ txRoom (tx (d 48) up) 48 60 = true
     ∧ (bufRead mDma 0 3 0x01001000 60 (tx (d 48) up)).1.isSome = true ∧ bit (leAt (d 48) 11 1) 1 = false ∧ sealedQ up 48 = false
     ∧ (portOf up 48).mgmt = [] ∧ txRule (tx (d 95) up) (d 95) = none ∧ sealedQ up 95 = true ∧ txRoom (tx (d 95) up) 95 60 = true
     ∧ (masterRead mDma 0 3 0x02000000 32 (tx (d 48) up)).1.2 ≠ 0 ∧ (ringOf rig 15).next = (ringOf rig 15).prod % 2 ^ 4
     ∧ rig.irq.msix = false
     ∧ (let v := onIrq (fun i => { i with msix := true, map := [(53, 256 + 63)], cause := 2 ^ 53, masked := 0 }) rig
        v.irq.msix = true ∧ vectorCause v 63 = true ∧ v.irq.masked.getLsbD 63 = false ∧ vectorCause v 62 = false
        ∧ (onIrq (fun i => { i with masked := 2 ^ 63 }) v).irq.masked.getLsbD 63 = true)
     ∧ 55 < 56 ∧ 56 ≤ 56
     ∧ (let lim := attr rig clsRing 0 1 * 1000
        let at_ (n : Nat) := onTime (fun t => { t with ticks := n }) (ringed { x with prod := 0 })
        (ringOf (at_ lim) 0).headAt + lim < (at_ (lim + 1)).time.ticks ∧ (at_ lim).time.ticks ≤ (ringOf (at_ lim) 0).headAt + lim
        ∧ (ringOf (at_ lim) 0).reserved = none ∧ wouldFit (at_ (lim + 1)) 0 p = false)
     ∧ (let i (n : Nat) (a : Option Nat) := onTime (fun t => { t with ticks := n }) { rig with i2c := { rig.i2c with snapAt := a } }
        (i 0 none).i2c.snapAt = none ∧ 0 + 10 ^ 6 ≤ (i (10 ^ 6) (some 0)).time.ticks ∧ (i 999999 (some 0)).time.ticks < 0 + 10 ^ 6)) := by decide +kernel

theorem witness_RingsInterruptsAndI2c_target :
    (let up (n : Nat) := onTime (fun t => { t with ticks := n }) (onGlb (fun g => { g with releasedAt := 0 }) rig)
     i2cUp (up (10 ^ 7)) = true ∧ i2cUp (up (10 ^ 7 - 1)) = false ∧ asleep (up 0) = false) := by decide +kernel

theorem witness_EveryStepKeepsTheInvariant : StepInv State.reset ∧ (match step State.reset with | .next t => decide (t.time.ticks = 1) | _ => false) = true :=
  ⟨⟨by decide, by decide⟩, by decide +kernel⟩

theorem witness_EveryStepKeepsTheInvariant_spent :
    StepInv (onTime (fun t => { t with spent := true }) rig) ∧ (match step (onTime (fun t => { t with spent := true }) rig) with | .next _ => true | _ => false) = true :=
  ⟨⟨by decide, by decide⟩, by decide +kernel⟩

end Sys2Proof.Tests
end

section
/-! The fixed counters and the Sump (R353, R357): what an advance, an event and a discard change, and the port events of a received frame. -/

namespace Sys2Proof.Machine
open Sys2Proof Sys2Proof.Safety

/-! Fixed counters -/

theorem countEv_perf_fix (e : Ev) (n : Nat) (s : State) : (countEv e n s).perf.fix = s.perf.fix := by
  have bump (l : List Nat) (p : Perf) : (l.foldl (bumpCounter n) p).fix = p.fix := by
    induction l generalizing p with
    | nil => rfl
    | cons x r ih => exact ih _
  unfold countEv
  split
  · rfl
  · exact bump _ _

theorem sample_perf_fix (m : Smp) (s : State) : (sample m s).perf.fix = s.perf.fix := by
  unfold sample sampleAt
  dsimp only
  repeat' first | rfl | split

theorem tget_fix_bumpFix (m n k : Nat) (s : State) :
    tget 0 (bumpFix m n s).perf.fix k = if k = m then (tget 0 s.perf.fix m + n) % 2 ^ 48 else tget 0 s.perf.fix k :=
  tget_tset ..

theorem tget_fix_countFix {s : State} (h : halted s = false) (m n k : Nat) :
    tget 0 (countFix m n s).perf.fix k = if k = m then (tget 0 s.perf.fix m + n) % 2 ^ 48 else tget 0 s.perf.fix k := by
  rw [countFix, if_neg (by simp [h]), tget_fix_bumpFix]

theorem tget_fix_countFix_other {m k : Nat} (h : k ≠ m) (n : Nat) (s : State) :
    tget 0 (countFix m n s).perf.fix k = tget 0 s.perf.fix k := by
  unfold countFix
  split
  · rfl
  · rw [tget_fix_bumpFix, if_neg h]

theorem halted_congr {s t : State} (h : t.glb = s.glb) : halted t = halted s := by rw [halted, h, ← halted]

/-! Counts leave everything but the PERF block -/

theorem countEv_keeps (p : Part) (e : Ev) (n : Nat) (s : State) (hp : p ≠ .perf := by decide) : Keeps p s (countEv e n s) :=
  (countEv_only e n s).2 p (by simpa using hp)

theorem countFix_keeps (p : Part) (m n : Nat) (s : State) (hp : p ≠ .perf := by decide) : Keeps p s (countFix m n s) :=
  (countFix_only m n s).2 p (by simpa using hp)

theorem sample_keeps (p : Part) (m : Smp) (s : State) (hp : p ≠ .perf := by decide) : Keeps p s (sample m s) :=
  (sample_only m s).2 p (by simpa using hp)

/-! Discards into the Sump -/

theorem Reason.code_ne_zero (r : Reason) : r.code ≠ 0 := by cases r <;> decide

/-- A discard counts in fixed counter 0 and in that of its reason (R353). -/
theorem tget_fix_sump {s : State} (h : halted s = false) (r : Reason) (l : Lost) (k : Nat) :
    tget 0 (sump r l s).perf.fix k = if k = 0 ∨ k = r.code then (tget 0 s.perf.fix k + 1) % 2 ^ 48 else tget 0 s.perf.fix k := by
  have h1 : halted (countFix 0 1 s) = false := (halted_congr (countFix_keeps .glb ..)).trans h
  have e : (sump r l s).perf.fix = (countFix r.code 1 (countFix 0 1 s)).perf.fix := by
    unfold sump
    rw [if_neg (by simp [h])]
    dsimp only
    rw [sample_perf_fix]
    refine (countEv_perf_fix ..).trans ?_
    split <;> rfl
  rw [e, tget_fix_countFix h1, tget_fix_countFix h, tget_fix_countFix h]
  have hr := r.code_ne_zero
  by_cases h0 : k = 0
  · subst h0; simp [Ne.symm hr]
  · by_cases hk : k = r.code
    · subst hk; simp [hr]
    · simp [h0, hk]

theorem tget_fix_sump_other {r : Reason} {k : Nat} (h0 : k ≠ 0) (hk : k ≠ r.code) (l : Lost) (s : State) :
    tget 0 (sump r l s).perf.fix k = tget 0 s.perf.fix k := by
  cases h : halted s with
  | true => simp [sump, h]
  | false => rw [tget_fix_sump h, if_neg (by simp [h0, hk])]

/-- Of the traffic a discard changes the Sump's tables alone. -/
theorem sump_traffic {s : State} (h : halted s = false) (r : Reason) (l : Lost) :
    ∃ x, (sump r l s).traffic = { s.traffic with
      sump := tmod 0 s.traffic.sump (32 * l.q + r.code) (fun n => (n + 1) % 2 ^ 48), chanCounts := x } := by
  have hc : (countFix r.code 1 (countFix 0 1 s)).traffic = s.traffic := (countFix_keeps .traffic ..).trans (countFix_keeps .traffic ..)
  unfold sump
  rw [if_neg (by simp [h])]
  dsimp only
  rw [show ∀ m t, (sample m t).traffic = t.traffic from sample_keeps .traffic]
  rw [show ∀ n t, (freeVal n t).2.traffic = t.traffic from fun _ _ => rfl]
  rw [show ∀ e n t, (countEv e n t).traffic = t.traffic from countEv_keeps .traffic]
  split
  · exact ⟨s.traffic.chanCounts, by simp [hc]⟩
  · exact ⟨_, by simp only [onTraffic_traffic, hc]; rfl⟩

/-- A frame discarded at port q with reason code r, and no frame entered: what `Obligations.FramesReceived` states of a loss. -/
def LostAs (s : State) (q r : Nat) (t : State) : Prop :=
  tget 0 t.perf.fix 0 = (tget 0 s.perf.fix 0 + 1) % 2 ^ 48
    ∧ tget 0 t.perf.fix r = (tget 0 s.perf.fix r + 1) % 2 ^ 48
    ∧ tget 0 t.traffic.sump (32 * q + r) = (tget 0 s.traffic.sump (32 * q + r) + 1) % 2 ^ 48
    ∧ t.traffic.frames = s.traffic.frames ∧ t.traffic.nextFid = s.traffic.nextFid

theorem sump_lostAs {s : State} (h : halted s = false) (r : Reason) (l : Lost) : LostAs s l.q r.code (sump r l s) := by
  obtain ⟨x, ht⟩ := sump_traffic h r l
  refine ⟨by simp [tget_fix_sump h], by simp [tget_fix_sump h], ?_, by rw [ht], by rw [ht]⟩
  rw [ht]
  exact tget_tset_same ..

/-- A loss after a step that counts in no fixed counter and leaves frames and Sump is a loss from the start. -/
theorem LostAs.of_before {s u t : State} {q r : Nat} (h : LostAs u q r t) (hf : u.perf.fix = s.perf.fix)
    (hs : u.traffic.sump = s.traffic.sump) (hr : u.traffic.frames = s.traffic.frames) (hn : u.traffic.nextFid = s.traffic.nextFid) :
    LostAs s q r t := by
  unfold LostAs at h ⊢
  rwa [hf, hs, hr, hn] at h

/-! The port events of a received frame -/

/-- An event counts in programmable counters alone. -/
theorem countEv_eq (e : Ev) (n : Nat) (s : State) : ∃ p, countEv e n s = { s with perf := p } ∧ p.fix = s.perf.fix := by
  refine ⟨(countEv e n s).perf, ?_, countEv_perf_fix e n s⟩
  unfold countEv
  split <;> rfl

theorem countRx_eq (q n : Nat) (s : State) : ∃ p, countRx q n s = { s with perf := p } ∧ p.fix = s.perf.fix := by
  obtain ⟨p, hp, hpf⟩ := countEv_eq { group := 1, code := 0, inst := q } 1 s
  obtain ⟨p', hp', hpf'⟩ := countEv_eq { group := 1, code := 1, inst := q } n { s with perf := p }
  exact ⟨p', by rw [countRx, hp, hp'], hpf'.trans hpf⟩

theorem countRx_congr {α : Type} (f : State → α) (h : ∀ p, f { s with perf := p } = f s) (q n : Nat)  : f (countRx q n s) = f s := by
  obtain ⟨p, hp, -⟩ := countRx_eq q n s
  rw [hp, h]

end Sys2Proof.Machine
end

section
/-! Free values, granules and frames by number; diverted frames; what raising an event and reserving a PN leave. -/

namespace Sys2Proof.Machine
open Sys2Proof Sys2Proof.Safety

/-! Free values and granules -/

theorem pick_state (n count : Nat) (used : List Nat) (s : State) : ∃ k, (pick n count used s).2 = { s with rng := k } := by
  induction count generalizing used s with
  | zero => exact ⟨s.rng, rfl⟩
  | succ m ih => exact ih _ { s with rng := s.rng + 1 }

theorem takeGranules_state (n : Nat) (s : State) : ∃ k, (takeGranules n s).2 = { s with rng := k } := pick_state ..

theorem gateWait_state (q c : Nat) (s : State) : ∃ k, (gateWait q c s).2 = { s with rng := k } := by
  unfold gateWait
  dsimp only
  split
  · exact ⟨s.rng, rfl⟩
  · exact ⟨s.rng + 1, rfl⟩

theorem buckets_ite {c : Prop} [Decidable c] {s : State} {a b : Tint × State}
    (ha : ∃ x, a.2 = { s with traffic := { s.traffic with buckets := x } }) (hb : ∃ x, b.2 = { s with traffic := { s.traffic with buckets := x } }) :
    ∃ x, (if c then a else b).2 = { s with traffic := { s.traffic with buckets := x } } := by
  split <;> assumption

/-- A policer changes its buckets alone: in each of its colours. -/
theorem police_state (c : Nat) (d : Dir) (n : Nat) (amber : Bool) (s : State) :
    ∃ x, (police c d n amber s).2 = { s with traffic := { s.traffic with buckets := x } } := by
  unfold police
  exact buckets_ite ⟨s.traffic.buckets, rfl⟩ (buckets_ite ⟨_, rfl⟩ (buckets_ite ⟨_, rfl⟩ ⟨_, rfl⟩))

theorem tagFor_state (f : Frame) (s : State) : ∃ x, (tagFor f s).2 = { s with traffic := { s.traffic with tags := x } } := by
  unfold tagFor
  split
  · exact ⟨s.traffic.tags, rfl⟩
  · exact ⟨_, rfl⟩

/-! Frames by number -/

theorem find?_tins_same {α : Type} (t : Tab α) (k : Nat) (v : α) : (tins t k v).find? (fun p => p.1 == k) = some (k, v) := by
  induction t with
  | nil => simp [tins]
  | cons x r ih =>
    unfold tins
    split
    · simp
    · split
      · simp
      · next h => simpa [Ne.symm h] using ih

@[simp] theorem frameOf_putFrame_same (fid : Nat) (f : Frame) (s : State) : frameOf (putFrame fid f s) fid = some f := by
  simp [frameOf, putFrame, find?_tins_same]

theorem frameOf_congr {s t : State} (h : t.traffic.frames = s.traffic.frames) (fid : Nat) : frameOf t fid = frameOf s fid := by
  simp only [frameOf, h]

/-! Diverted frames -/

/-- A frame for a ring in service that the granules of R254 fit waits there behind the others (R378). -/
theorem toRing_waits {s : State} {r : Nat} {p : Punt} (hen : (ringOf s r).en = true) (hfit : divertFits s p.data.length = true) :
    ∃ chain k at_, toRing r p s = setRing r { ringOf s r with
      waiting := (ringOf s r).waiting ++ [{ p with chain := chain, tick := s.time.ticks }], headAt := at_ } { s with rng := k } := by
  obtain ⟨k, hk⟩ := takeGranules_state p.data.length s
  refine ⟨(takeGranules p.data.length s).1, k, if (ringOf s r).waiting.isEmpty then s.time.ticks else (ringOf s r).headAt, ?_⟩
  rw [toRing, if_neg (by simp [hen]), if_neg (by simp [hfit])]
  dsimp only
  rw [hk]
  rfl

/-! Fixed counters through an event: its record's access counts a fault of the checker or the Reservoir's reads and writes -/

theorem tget_fix_memWrite {m : Nat} (h58 : m ≠ 58) (h59 : m ≠ 59) (k a : Nat) (d : Bytes) (s : State) :
    tget 0 (memWrite k a d s).perf.fix m = tget 0 s.perf.fix m := by
  have line (k a : Nat) (d : Bytes) (s : State) : tget 0 (writeLine k a d s).perf.fix m = tget 0 s.perf.fix m := by
    unfold writeLine
    dsimp only
    rw [show (imeCount _ _ _).perf = _ from (imeCount_only ..).2 .perf (by decide), countEv_perf_fix, tget_fix_countFix_other h59]
    split
    · rw [countEv_perf_fix, tget_fix_countFix_other h58]; rfl
    · rfl
  unfold memWrite
  split
  · generalize pieces 64 _ a d = l
    induction l generalizing s with
    | nil => rfl
    | cons x r ih => exact (ih _).trans (line ..)
  · rfl

theorem sampleMem_perf_fix (m : Smp) (s : State) : (sampleMem m s).perf.fix = s.perf.fix := sample_perf_fix ..

theorem tget_fix_captureFault {m : Nat} (h : m ≠ 40) (master colour world a : Nat) (w : Bool) (cause : Nat) (s : State) :
    tget 0 (captureFault master colour world a w cause s).perf.fix m = tget 0 s.perf.fix m := by
  unfold captureFault
  dsimp only
  rw [countEv_perf_fix, tget_fix_countFix_other h]
  rfl

theorem setCause_perf (e : Nat) (s : State) : (setCause e s).perf = s.perf := (setCause_only e s).2 .perf (by decide)

/-- The fixed counters that an access by a master may advance: the checker's faults, and Reservoir reads and writes. -/
def memCounters : List Nat := [40, 58, 59]

section MemCounters
variable {m : Nat} (hm : m ∉ memCounters)
include hm

theorem tget_fix_ringWrite (b : Bytes) (s : State) : tget 0 (ringWrite b s).2.perf.fix m = tget 0 s.perf.fix m := by
  simp only [memCounters, List.mem_cons, List.not_mem_nil, or_false, not_or] at hm
  obtain ⟨h40, h58, h59⟩ := hm
  unfold ringWrite
  dsimp only
  split
  · rfl
  · split
    · refine (tget_fix_memWrite h58 h59 ..).trans ?_
      rw [sampleMem_perf_fix, countEv_perf_fix]
    · refine Eq.trans (congrArg (tget 0 ·.fix m) (setCause_perf ..)) ?_
      rw [tget_fix_captureFault h40]
      exact congrArg (tget 0 · m) ((sampleMem_perf_fix ..).trans (countEv_perf_fix ..))

theorem tget_fix_raise (e : Nat) (d : Bytes) (s : State) : tget 0 (raise e d s).perf.fix m = tget 0 s.perf.fix m := by
  have rec_ (b : Bytes) (s : State) : tget 0 (ringRecord b s).perf.fix m = tget 0 s.perf.fix m := by
    have h := tget_fix_ringWrite hm b s
    unfold ringRecord
    split
    · next e => rw [e] at h; exact h
    · next e =>
      rw [e] at h
      split
      · exact h
      · rw [setCause_perf]
        exact (tget_fix_ringWrite hm ..).trans h
  unfold raise
  split
  · rfl
  · split
    · rw [setCause_perf]
    · dsimp only
      rw [setCause_perf]
      split
      · rfl
      · exact rec_ ..

theorem tget_fix_freeze (c : Nat) (s : State) : tget 0 (freeze c s).perf.fix m = tget 0 s.perf.fix m := by
  unfold freeze
  dsimp only
  split
  · exact tget_fix_raise hm ..
  · rfl

theorem tget_fix_reservePn (c : Nat) (s : State) : tget 0 (reservePn c s).perf.fix m = tget 0 s.perf.fix m := by
  unfold reservePn
  dsimp only
  split
  · exact tget_fix_freeze hm ..
  · rfl

end MemCounters

/-- A freeze or a reservation changes the channels' states alone, of the traffic. -/
theorem freeze_traffic (c : Nat) (s : State) : ∃ x, (freeze c s).traffic = { s.traffic with chans := x } := by
  unfold freeze
  dsimp only
  split
  · exact ⟨_, (raise_only ..).2 .traffic (by decide)⟩
  · exact ⟨s.traffic.chans, rfl⟩

theorem reservePn_traffic (c : Nat) (s : State) : ∃ x, (reservePn c s).traffic = { s.traffic with chans := x } := by
  unfold reservePn
  dsimp only
  split
  · obtain ⟨x, hx⟩ := freeze_traffic c (setChan c { chanOf s c with reserved := (chanOf s c).reserved + 1 } s)
    exact ⟨x, hx⟩
  · exact ⟨_, rfl⟩

end Sys2Proof.Machine
end

section
/-! The acceptance of an encrypt frame (R170, Table 14-4). -/

namespace Sys2Proof.Machine
open Sys2Proof Sys2Proof.Safety

/-- An acceptance counts the frame and its bytes in the two fixed counters of its direction (Table 14-4). -/
theorem tget_fix_countAccepted {s : State} (h : halted s = false) (f : Frame) (k : Nat) :
    tget 0 (countAccepted f s).perf.fix k =
      if k = 48 + b01 (f.dir == .dec) then (tget 0 s.perf.fix k + f.flen) % 2 ^ 48
      else if k = 46 + b01 (f.dir == .dec) then (tget 0 s.perf.fix k + 1) % 2 ^ 48
      else tget 0 s.perf.fix k := by
  have h1 (m : Nat) : halted (countFix m 1 s) = false := (halted_congr (countFix_keeps .glb ..)).trans h
  have hd : b01 (f.dir == .dec) ≤ 1 := by unfold b01; split <;> decide
  generalize hb : b01 (f.dir == .dec) = d at hd
  have e : (countAccepted f s).perf.fix = (countFix (48 + d) f.flen (countFix (46 + d) 1 s)).perf.fix := by
    unfold countAccepted
    rw [hb]
    dsimp only [onPmu_perf]
    split <;> split <;> simp only [onTraffic_perf, countEv_perf_fix]
  rw [e, tget_fix_countFix (h1 _), tget_fix_countFix h, tget_fix_countFix h]
  by_cases h8 : k = 48 + d
  · subst h8; rw [if_pos rfl, if_neg (by omega), if_pos rfl]
  · by_cases h6 : k = 46 + d
    · subst h6; simp
    · simp [h8, h6]

theorem countAccepted_traffic (f : Frame) (s : State) : ∃ x, (countAccepted f s).traffic = { s.traffic with chanCounts := x } := by
  have ev (e : Ev) (n : Nat) (t : State) : (countEv e n t).traffic = t.traffic := countEv_keeps .traffic e n t
  have fx (m n : Nat) (t : State) : (countFix m n t).traffic = t.traffic := countFix_keeps .traffic m n t
  unfold countAccepted
  dsimp only [onPmu_traffic]
  split <;> split <;> simp only [onTraffic_traffic, ev, fx] <;> exact ⟨_, rfl⟩

/-- A frame that enters takes the next frame number and granules of its own. -/
theorem enterFrame_eq (f : Frame) (s : State) : ∃ chain k, enterFrame f s = putFrame s.traffic.nextFid { f with chain := chain }
    (onTraffic (fun t => { t with nextFid := t.nextFid + 1 }) { s with rng := k }) := by
  obtain ⟨k, hk⟩ := takeGranules_state f.data.length s
  refine ⟨(takeGranules f.data.length s).1, k, ?_⟩
  unfold enterFrame
  dsimp only
  rw [hk]

/-- A frame that enters with its PN reserved: its number, the frame under it, and the counters. -/
theorem reservePn_enterFrame (c : Nat) (f : Frame) (s : State) :
    (reservePn c (enterFrame f s)).traffic.nextFid = s.traffic.nextFid + 1
    ∧ (∃ chain, frameOf (reservePn c (enterFrame f s)) s.traffic.nextFid = some { f with chain := chain })
    ∧ ∀ m ∉ memCounters, tget 0 (reservePn c (enterFrame f s)).perf.fix m = tget 0 s.perf.fix m := by
  obtain ⟨chain, k, he⟩ := enterFrame_eq f s
  obtain ⟨chans, hr⟩ := reservePn_traffic c (enterFrame f s)
  refine ⟨by rw [hr, he]; rfl, ⟨chain, ?_⟩, fun m hm => ?_⟩
  · rw [frameOf_congr (s := enterFrame f s) (by rw [hr]), he, frameOf_putFrame_same]
  · rw [tget_fix_reservePn hm, he]; rfl

/-- A frame with the place and the deadline that its acceptance gives it (R170, R223 to R225). -/
def placed (f : Frame) (room : Room) (s : State) : Frame :=
  { f with
    shared := room == .shared, spill := room == .spill
    deadline := some (f.tr + boundOf s f.chan f.dir f.flen f.slots)
    stage := if room = .spill then .spilling else .queued }

theorem accept_enc_eq {f : Frame} (hf : f.dir = .enc) (room : Room) (s : State) :
    ∃ tag u, accept f room s = reservePn f.chan (enterFrame { placed f room s with tag := tag } (countAccepted (placed f room s) u))
      ∧ u.glb = s.glb ∧ u.perf = s.perf ∧ u.traffic.nextFid = s.traffic.nextFid := by
  obtain ⟨tags, ht⟩ := tagFor_state (placed f room s) s
  refine ⟨(tagFor (placed f room s) s).1, _, if_pos hf, ?_⟩
  change (tagFor (placed f room s) s).2.glb = _ ∧ (tagFor (placed f room s) s).2.perf = _ ∧ (tagFor (placed f room s) s).2.traffic.nextFid = _
  rw [ht]
  exact ⟨rfl, rfl, rfl⟩

/-- What becomes of an encrypt frame that is accepted (R170, Table 14-4): its number, its place and deadline, and its counts. -/
theorem accept_enc {s : State} (h : halted s = false) {f : Frame} (hf : f.dir = .enc) (room : Room) :
    (accept f room s).traffic.nextFid = s.traffic.nextFid + 1
    ∧ (∃ tag chain, frameOf (accept f room s) s.traffic.nextFid = some { placed f room s with tag := tag, chain := chain })
    ∧ tget 0 (accept f room s).perf.fix 46 = (tget 0 s.perf.fix 46 + 1) % 2 ^ 48
    ∧ tget 0 (accept f room s).perf.fix 48 = (tget 0 s.perf.fix 48 + f.flen) % 2 ^ 48 := by
  obtain ⟨tag, u, e, hg, hp, hn⟩ := accept_enc_eq hf room s
  have hd : b01 ((placed f room s).dir == .dec) = 0 := by rw [show (placed f room s).dir = .enc from hf]; rfl
  obtain ⟨x, hx⟩ := countAccepted_traffic (placed f room s) u
  have hc : (countAccepted (placed f room s) u).traffic.nextFid = s.traffic.nextFid := by rw [hx, ← hn]
  have hfix := tget_fix_countAccepted ((halted_congr hg).trans h) (placed f room s)
  rw [hd, hp] at hfix
  obtain ⟨h1, ⟨chain, h2⟩, h3⟩ := reservePn_enterFrame f.chan { placed f room s with tag := tag } (countAccepted (placed f room s) u)
  rw [hc] at h1 h2
  rw [e]
  exact ⟨h1, ⟨tag, chain, h2⟩, (h3 46 (by decide)).trans (hfix 46), (h3 48 (by decide)).trans (hfix 48)⟩

end Sys2Proof.Machine
end

section
/-! Host ingress (R9, R11, R25 to R30). -/

namespace Sys2Proof.Machine
open Sys2Proof Sys2Proof.Safety

theorem halted_of_live {s : State} (h : live s = true) : halted s = false := by
  simpa using (Bool.and_eq_true_iff.1 h).2

theorem asleep_of_live {s : State} (h : live s = true) : asleep s = false := by
  simpa using (Bool.and_eq_true_iff.1 h).1

/-- A frame that is lost after its port events were counted. -/
theorem sump_countRx_lostAs {s : State} (h : halted s = false) (r : Reason) (l : Lost) (q n : Nat) :
    LostAs s l.q r.code (sump r l (countRx q n s)) := by
  obtain ⟨p, hp, hf⟩ := countRx_eq q n s
  rw [hp]
  exact (sump_lostAs (s := { s with perf := p }) h r l).of_before hf rfl rfl rfl

/-! Host ingress: one lemma per way that a frame goes -/

/-- The frame that a host port's classified bytes make, before its policer. -/
def hostFrame (s : State) (q c : Nat) (b : Bytes) : Frame := {
  chan := c, dir := .enc, tc := cattr s c 4, tint := .green, flen := b.length + 4, slots := frameSlots s c (b.length + 4), ingress := q
  egress := egressQ s c .enc, ebytes := eBytes s (egressQ s c .enc) (b.length + 4), data := b, tr := s.time.ticks
  deadline := none, tag := 0, stage := .queued, record := recordOf s c }

section Host
variable {s : State} {hp : LPort} {b : Bytes} {par : Bool}

theorem hostFrameReceive_off (fcs : Bool) (h : receives s hp.val = false) : exec (.hostFrameReceive hp b fcs par) s = .next s := by
  simp [execHostFrameReceive, h]

variable (h : receives s hp.val = true)
include h

theorem hostFrameReceive_badFcs : exec (.hostFrameReceive hp b false par) s
    = .next (sump .fcsFail { q := hp.val, tr := s.time.ticks } (countRx hp.val (b.length + 4) s)) := by
  have ht : (countRx hp.val (b.length + 4) s).time = s.time := countRx_congr (·.time) (fun _ => rfl) ..
  simp [execHostFrameReceive, h, ht]

theorem hostFrameReceive_badLength (hl : b.length < 60 ∨ 15996 < b.length) : exec (.hostFrameReceive hp b true par) s
    = .next (sump .length { q := hp.val, tr := s.time.ticks } (countRx hp.val (b.length + 4) s)) := by
  have ht : (countRx hp.val (b.length + 4) s).time = s.time := countRx_congr (·.time) (fun _ => rfl) ..
  have hn : b.length + 4 < 64 ∨ 16000 < b.length + 4 := by omega
  simp [execHostFrameReceive, h, ht, hn]

variable (h60 : 60 ≤ b.length) (hmax : b.length ≤ 15996)
include h60 hmax

theorem hostFrameReceive_filtered {i r : Nat} (hf : filterHit s hp.val b = some (i, r)) : exec (.hostFrameReceive hp b true par) s
    = .next (divert hp.val i r b (countRx hp.val (b.length + 4) s)) := by
  have hf' : filterHit (countRx hp.val (b.length + 4) s) hp.val b = some (i, r) := (countRx_congr (filterHit · hp.val b) (fun _ => rfl) ..).trans hf
  have hn : ¬(b.length + 4 < 64 ∨ 16000 < b.length + 4) := by omega
  simp [execHostFrameReceive, h, hn, hf']

theorem hostFrameReceive_unclassified (hf : filterHit s hp.val b = none) (hc : classify (hostTags hp.val b).1 par s = .none) :
    exec (.hostFrameReceive hp b true par) s
      = .next (sump .noChannel { q := hp.val, tr := s.time.ticks } (countRx hp.val (b.length + 4) s)) := by
  have ht : (countRx hp.val (b.length + 4) s).time = s.time := countRx_congr (·.time) (fun _ => rfl) ..
  have hf' : filterHit (countRx hp.val (b.length + 4) s) hp.val b = none := (countRx_congr (filterHit · hp.val b) (fun _ => rfl) ..).trans hf
  have hc' : classify (hostTags hp.val b).1 par (countRx hp.val (b.length + 4) s) = .none := (countRx_congr (classify _ par ·) (fun _ => rfl) ..).trans hc
  have hn : ¬(b.length + 4 < 64 ∨ 16000 < b.length + 4) := by omega
  simp [execHostFrameReceive, h, hn, hf', hc', ht]

theorem hostFrameReceive_classified {c : Nat} (hf : filterHit s hp.val b = none) (hc : classify (hostTags hp.val b).1 par s = .chan c)
    (hi : inTraffic s = true) (hs : (chanOf s c).state ≠ .free) :
    exec (.hostFrameReceive hp b true par) s
      = .next (policed (hostFrame s hp.val c b) (hostTags hp.val b).2 (countRx hp.val (b.length + 4) s)) := by
  obtain ⟨p, hp', -⟩ := countRx_eq hp.val (b.length + 4) s
  have hf' : filterHit { s with perf := p } hp.val b = none := hf
  have hc' : classify (hostTags hp.val b).1 par { s with perf := p } = .chan c := hc
  have hb : standsBy { s with perf := p } = false := by rw [standsBy, show inTraffic { s with perf := p } = true from hi]; rfl
  have hs' : (chanOf { s with perf := p } c).state ≠ .free := hs
  have hn : ¬(b.length + 4 < 64 ∨ 16000 < b.length + 4) := by omega
  simp only [exec_hostFrameReceive, execHostFrameReceive, h, hn, hp', hf', hc', hb, hs']
  rfl

end Host

theorem hostTags_hport (q : Nat) (b : Bytes) : (hostTags q b).1.hport = q := by
  unfold hostTags
  dsimp only
  split <;> rfl

theorem classify_miss {s : State} {k : ClassKey} (he : entryFor s k = none) (hp : pattr s k.hport 3 = 0xFFFF) (ok : Bool) :
    classify k ok s = .none := by
  simp [classify, he, classify.port, classify.cattrPort, hp]

theorem classify_hit {s : State} {k : ClassKey} {e : ClassEntry} (he : entryFor s k = some e) (hi : e.invalid = false) :
    classify k true s = .chan e.chan := by
  simp [classify, he, hi]

/-- A frame diverted to a ring in service that the granules of R254 fit waits there; nothing of the traffic changes. -/
theorem divert_waits {s : State} {q i r : Nat} {b : Bytes} (hr : r < 8) (hen : (ringOf s r).en = true)
    (hfit : divertFits s b.length = true) :
    (∃ p : Punt, (ringOf (divert q i r b s) r).waiting = (ringOf s r).waiting ++ [p] ∧ p.port = q ∧ p.entry = i ∧ p.data = b)
      ∧ (divert q i r b s).traffic = s.traffic := by
  obtain ⟨p, h1, -⟩ := countEv_eq { group := 1, code := 4, inst := q } 1 s
  obtain ⟨p', h2, -⟩ := countEv_eq { group := 8, code := 0, inst := q } 1 { s with perf := p }
  have e : divert q i r b s = toRing r { port := q, entry := i, data := b, time := frameStamp { s with perf := p' } q (b.length + 4) }
      { s with perf := p' } := by
    rw [divert, h1, h2]
    exact if_pos hr
  obtain ⟨chain, k, at_, ht⟩ := toRing_waits (s := { s with perf := p' }) (r := r)
    (p := { port := q, entry := i, data := b, time := frameStamp { s with perf := p' } q (b.length + 4) }) hen hfit
  rw [e, ht]
  exact ⟨⟨_, congrArg Ring.waiting (tget_tset_same ..), rfl, rfl, rfl⟩, rfl⟩

end Sys2Proof.Machine
end

section
/-! Admission of host frames, standard line frames, sealed frames and the replay check (R31 to R44, R89, Table 6-7). -/

namespace Sys2Proof.Machine
open Sys2Proof Sys2Proof.Safety

/-! Admission of a classified host frame -/

theorem policed_green {f : Frame} {amber : Bool} {s u : State} (h : police f.chan f.dir f.flen amber s = (.green, u)) :
    policed f amber s = admission { f with tint := .green } u := by
  rw [policed, h]

theorem admission_full {f : Frame} {s : State} (hh : s.pair.handover = none) (hp : portTests f s = none) (hr : roomFor f s = none) :
    admission f s = refuse .queueFull f s := by
  simp [admission, hh, hp, hr]

theorem admission_accepts {f : Frame} {s v : State} {room : Room} {w : Rat} (hh : s.pair.handover = none) (hp : portTests f s = none)
    (hr : roomFor f s = some room) (hg : gateWait f.egress f.tc s = (w, v)) (hl : loadTests f w v = none) :
    admission f s = accept f room v := by
  simp [admission, hh, hp, hr, hg, hl]

/-- A host frame that its policer leaves green: what counting and policing have changed by then. -/
theorem police_countRx_state {c : Nat} {d : Dir} {n q k : Nat} {amber : Bool} {s u : State} {tint : Tint}
    (h : police c d n amber (countRx q k s) = (tint, u)) : u.glb = s.glb ∧ u.pair = s.pair ∧ u.perf.fix = s.perf.fix
      ∧ u.traffic.sump = s.traffic.sump ∧ u.traffic.frames = s.traffic.frames ∧ u.traffic.nextFid = s.traffic.nextFid := by
  obtain ⟨p, hp, hf⟩ := countRx_eq q k s
  obtain ⟨x, hx⟩ := police_state c d n amber (countRx q k s)
  rw [h, hp] at hx
  subst hx
  exact ⟨rfl, rfl, hf, rfl, rfl, rfl⟩

theorem gateWait_keeps {q c : Nat} {w : Rat} {s v : State} (h : gateWait q c s = (w, v)) :
    v.glb = s.glb ∧ v.perf = s.perf ∧ v.traffic = s.traffic := by
  obtain ⟨k, hk⟩ := gateWait_state q c s
  rw [h] at hk
  subst hk
  exact ⟨rfl, rfl, rfl⟩

section Host
variable {s : State} {hp : LPort} {b : Bytes} (hl : halted s = false) (h : receives s hp.val = true) (h60 : 60 ≤ b.length)
  (hmax : b.length ≤ 15996) {c : Nat} (hf : filterHit s hp.val b = none) (hc : classify (hostTags hp.val b).1 true s = .chan c)
  (hi : inTraffic s = true) (hh : s.pair.handover = none) (hs : (chanOf s c).state ≠ .free) {u : State}
  (hu : police c .enc (b.length + 4) (hostTags hp.val b).2 (countRx hp.val (b.length + 4) s) = (.green, u))
  (ht : portTests (hostFrame s hp.val c b) u = none)
include hl h h60 hmax hf hc hi hh hs hu ht

omit hl hh ht in
theorem hostFrameReceive_green : exec (.hostFrameReceive hp b true true) s = .next (admission (hostFrame s hp.val c b) u) := by
  rw [hostFrameReceive_classified h h60 hmax hf hc hi hs, policed_green (f := hostFrame s hp.val c b) hu]
  rfl

theorem hostFrameReceive_full (hr : roomFor (hostFrame s hp.val c b) u = none) :
    ∃ t, exec (.hostFrameReceive hp b true true) s = .next t ∧ LostAs s hp.val 9 t := by
  obtain ⟨hg, hpr, hfix, hsump, hfr, hn⟩ := police_countRx_state hu
  refine ⟨_, hostFrameReceive_green h h60 hmax hf hc hi hs hu, ?_⟩
  rw [admission_full (hpr.symm ▸ hh) ht hr]
  exact (sump_lostAs ((halted_congr hg).trans hl) .queueFull _).of_before hfix hsump hfr hn

theorem hostFrameReceive_accepted {room : Room} {w : Rat} {v : State} (hr : roomFor (hostFrame s hp.val c b) u = some room)
    (hw : gateWait (hostFrame s hp.val c b).egress (hostFrame s hp.val c b).tc u = (w, v))
    (hlt : loadTests (hostFrame s hp.val c b) w v = none) :
    ∃ t g, exec (.hostFrameReceive hp b true true) s = .next t ∧ t.traffic.nextFid = s.traffic.nextFid + 1
      ∧ frameOf t s.traffic.nextFid = some g ∧ g.data = b ∧ g.chan = c ∧ g.dir = .enc
      ∧ g.stage = (if room = .spill then .spilling else .queued)
      ∧ g.deadline = some (s.time.ticks + boundOf v c .enc (b.length + 4) (frameSlots s c (b.length + 4)))
      ∧ tget 0 t.perf.fix 46 = (tget 0 s.perf.fix 46 + 1) % 2 ^ 48
      ∧ tget 0 t.perf.fix 48 = (tget 0 s.perf.fix 48 + (b.length + 4)) % 2 ^ 48 := by
  obtain ⟨hg, hpr, hfix, -, -, hn⟩ := police_countRx_state hu
  obtain ⟨hgv, hpv, htv⟩ := gateWait_keeps hw
  have hlv : halted v = false := (halted_congr (hgv.trans hg)).trans hl
  obtain ⟨h1, ⟨tag, chain, h2⟩, h3, h4⟩ := accept_enc hlv (f := hostFrame s hp.val c b) rfl room
  rw [htv, hn] at h1 h2
  rw [hpv, hfix] at h3 h4
  have e := hostFrameReceive_green h h60 hmax hf hc hi hs hu
  rw [admission_accepts (hpr.symm ▸ hh) ht hr hw hlt] at e
  exact ⟨_, _, e, h1, h2, rfl, rfl, rfl, rfl, rfl, h3, h4⟩

end Host

/-! Line ingress: one lemma per way that a frame goes -/

/-- The frame that a standard line frame's bytes make, once its SecTAG x at offset o, its channel c and its slot n are found. -/
def taggedFrame (s : State) (q c n o : Nat) (x : SecTag) (b : Bytes) : Frame := {
  chan := c, dir := .dec, tc := cattr s c 4, tint := .green, flen := 16 + x.sdl, slots := lineSlots x.e (cattr s c 7) x.sdl
  ingress := q, egress := egressQ s c .dec, ebytes := eBytes s (egressQ s c .dec) (16 + x.sdl), data := b, tr := s.time.ticks
  deadline := none, tag := 0, stage := .queued, slot := n, offset := o, record := recordOf s c, pn := fullPn (lowPn s c n) x.pn }

section Line
variable {s : State} {lp : LPort} {b : Bytes} (h : receives s (48 + lp.val) = true)
include h

theorem lineFrameReceive_badFcs : exec (.lineFrameReceive lp b false) s
    = .next (sump .fcsFail { q := 48 + lp.val, tr := s.time.ticks } (countRx (48 + lp.val) (b.length + 4) s)) := by
  have ht : (countRx (48 + lp.val) (b.length + 4) s).time = s.time := countRx_congr (·.time) (fun _ => rfl) ..
  simp [execLineFrameReceive, h, ht]

theorem lineFrameReceive_badLength (hl : b.length < 60 ∨ 16036 < b.length) : exec (.lineFrameReceive lp b true) s
    = .next (sump .length { q := 48 + lp.val, tr := s.time.ticks } (countRx (48 + lp.val) (b.length + 4) s)) := by
  have ht : (countRx (48 + lp.val) (b.length + 4) s).time = s.time := countRx_congr (·.time) (fun _ => rfl) ..
  have hn : b.length + 4 < 64 ∨ 16040 < b.length + 4 := by omega
  simp [execLineFrameReceive, h, ht, hn]

variable (h60 : 60 ≤ b.length) (hmax : b.length ≤ 16036) (hf : filterHit s (48 + lp.val) b = none)
include h60 hmax hf

theorem lineFrameReceive_noTag (ht : beAt b (clearTags (portTic s (48 + lp.val)) b).1 2 ≠ 0x88E5)
    (hc : 32766 ≤ pattr s (48 + lp.val) 0x21) : exec (.lineFrameReceive lp b true) s
      = .next (sump .noTag { q := 48 + lp.val, tr := s.time.ticks } (countRx (48 + lp.val) (b.length + 4) s)) := by
  obtain ⟨p, hp, -⟩ := countRx_eq (48 + lp.val) (b.length + 4) s
  have hf' : filterHit { s with perf := p } (48 + lp.val) b = none := hf
  have htic : portTic { s with perf := p } (48 + lp.val) = portTic s (48 + lp.val) := rfl
  have hc' : 32766 ≤ pattr { s with perf := p } (48 + lp.val) 0x21 := hc
  have hn : ¬(b.length + 4 < 64 ∨ 16040 < b.length + 4) := by omega
  simp [execLineFrameReceive, h, hn, hp, hf', htic, ht, untaggedFrame, hc']

theorem lineFrameReceive_badTag (ht : beAt b (clearTags (portTic s (48 + lp.val)) b).1 2 = 0x88E5)
    (hx : secTag b (clearTags (portTic s (48 + lp.val)) b).1 = none) : exec (.lineFrameReceive lp b true) s
      = .next (sump .badTag { q := 48 + lp.val, tr := s.time.ticks } (countRx (48 + lp.val) (b.length + 4) s)) := by
  obtain ⟨p, hp, -⟩ := countRx_eq (48 + lp.val) (b.length + 4) s
  have hf' : filterHit { s with perf := p } (48 + lp.val) b = none := hf
  have htic : portTic { s with perf := p } (48 + lp.val) = portTic s (48 + lp.val) := rfl
  have hn : ¬(b.length + 4 < 64 ∨ 16040 < b.length + 4) := by omega
  simp [execLineFrameReceive, h, hn, hp, hf', htic, ht, hx]

theorem lineFrameReceive_checked {x : SecTag} {c n : Nat} (ht : beAt b (clearTags (portTic s (48 + lp.val)) b).1 2 = 0x88E5)
    (hx : secTag b (clearTags (portTic s (48 + lp.val)) b).1 = some x) (hlen : x.sdl ≤ 15984)
    (hc : secyFor s lp.val (portTic s (48 + lp.val)) (clearTags (portTic s (48 + lp.val)) b).2.1
      (clearTags (portTic s (48 + lp.val)) b).2.2.1 = some c)
    (hsci : x.sci.getD (cattr s c 0x0C) = cattr s c 0x0C) (hn : slotFor s c x.an = some n) (hm : s.glb.mode ≠ .provision) :
    exec (.lineFrameReceive lp b true) s
      = .next (lineFrame (taggedFrame s (48 + lp.val) c n (clearTags (portTic s (48 + lp.val)) b).1 x b)
          (clearTags (portTic s (48 + lp.val)) b).2.2.2 (countRx (48 + lp.val) (b.length + 4) s)) := by
  obtain ⟨p, hp, -⟩ := countRx_eq (48 + lp.val) (b.length + 4) s
  have hf' : filterHit { s with perf := p } (48 + lp.val) b = none := hf
  have htic : portTic { s with perf := p } (48 + lp.val) = portTic s (48 + lp.val) := rfl
  have hc' : secyFor { s with perf := p } lp.val (portTic s (48 + lp.val)) (clearTags (portTic s (48 + lp.val)) b).2.1
      (clearTags (portTic s (48 + lp.val)) b).2.2.1 = some c := hc
  have hsci' : x.sci.getD (cattr { s with perf := p } c 0x0C) = cattr { s with perf := p } c 0x0C := hsci
  have hn' : slotFor { s with perf := p } c x.an = some n := hn
  have hbounds : ¬(b.length + 4 < 64 ∨ 16040 < b.length + 4) := by omega
  have hsdl : ¬16000 < 16 + x.sdl := by omega
  simp only [exec_lineFrameReceive, execLineFrameReceive, h, hbounds, hp, hf', htic, ht, hx, hc', hsci', hn', hm, hsdl, ne_eq, not_true_eq_false, ↓reduceIte]
  rfl

end Line

/-! Sealed frames -/

/-- The frame that a closed sealed frame of channel c and slot n makes. -/
def sealedFrame (s : State) (q c n tick : Nat) (b : Bytes) : Frame := {
  chan := c, dir := .dec, tc := cattr s c 4, tint := .green, flen := b.length - 20, slots := slotsOf 10 (b.length - 20 - 4), ingress := q
  egress := egressQ s c .dec, ebytes := eBytes s (egressQ s c .dec) (b.length - 20), data := b, tr := tick, deadline := none, tag := 0
  stage := .queued, slot := n, pn := bits (beAt b 0 8) 61 0, record := recordOf s c }

theorem sealedFrameClose_checked {s : State} (hl : live s = true) {lp : LPort} {c tick : Nat} {b : Bytes} {rest : List (Nat × Bytes × Nat)}
    (hw : (whOf s lp.val).rx.closed = (c, b, tick) :: rest) (hr : portsRun s = true) (hp : cattr s c 3 = lp.val)
    (ha : (chanOf s c).state = .active) {n : Nat} (hn : slotFor s c (beAt b 0 8 / 2 ^ 62 % 4) = some n) (hm : s.glb.mode ≠ .provision)
    (h84 : 84 ≤ b.length) (hmax : b.length ≤ 16020) :
    exec (.sealedFrameClose lp) s
      = .next (lineFrame (sealedFrame s (48 + lp.val) c n tick b) false (onRx lp.val (fun r => { r with closed := rest }) s)) := by
  generalize hu : onRx lp.val (fun r => { r with closed := rest }) s = u
  have heg : egressQ u c .dec = egressQ s c .dec := by subst hu; rfl
  have heb : eBytes u = eBytes s := by subst hu; rfl
  have hrec : recordOf u c = recordOf s c := by subst hu; rfl
  have hcat (a : Nat) : cattr u c a = cattr s c a := by subst hu; rfl
  have hch : (chanOf u c).state = .active := by subst hu; exact ha
  have hw4 : bits (beAt b 0 8) 63 62 = beAt b 0 8 / 2 ^ 62 % 4 := by simp [bits, Nat.shiftRight_eq_div_pow]
  have hsl : slotFor u c (bits (beAt b 0 8) 63 62) = some n := by rw [hw4]; subst hu; exact hn
  have hmode : u.glb.mode ≠ .provision := by subst hu; exact hm
  have hlen : ¬(b.length < 84 ∨ 16020 < b.length) := by omega
  simp [execSealedFrameClose, hw, hl, hr, hu, hcat, hp, hch, hsl, hmode, hlen, sealedFrame, heg, heb, hrec]

/-! The replay check (R40, R42) -/

theorem execReplayRecheck_waits {s : State} (hl : live s = true) {fid : Nat} {f : Frame} (hf : frameOf s fid = some f)
    (hs : f.stage = .replayWait) (hd : f.doomed = none) : exec (.replayRecheck fid) s = .next (replayStage fid s) := by
  simp [execReplayRecheck, hf, hs, hd, hl]

theorem replayStage_passes {s : State} {fid : Nat} {f : Frame} (hf : frameOf s fid = some f) (hr : replayRuns s f = true)
    (hb : pnBusy s fid f = false) (ho : replayOk s f = true) (hs : f.shadow = false) :
    replayStage fid s = putFrame fid { f with stage := if f.spill then .spilling else .queued } s := by
  simp [replayStage, hf, hr, hb, ho, hs]

theorem replayStage_late {s : State} {fid : Nat} {f : Frame} (hf : frameOf s fid = some f) (hr : replayRuns s f = true)
    (hb : pnBusy s fid f = false) (ho : replayOk s f = false) : replayStage fid s = discard .late fid s := by
  simp [replayStage, hf, hr, hb, ho]

end Sys2Proof.Machine
end

section
/-! Frames received: `Obligations.FramesReceived`. -/

namespace Sys2Proof.Machine
open Sys2Proof Sys2Proof.Safety

/-- A frame at the replay stage that is discarded leaves the table of frames, and counts as its reason (R42). -/
theorem discard_replayWait {s : State} (h : halted s = false) {fid : Nat} {f : Frame} (hf : frameOf s fid = some f)
    (hs : f.stage = .replayWait) (r : Reason) : frameOf (discard r fid s) fid = none
      ∧ tget 0 (discard r fid s).perf.fix r.code = (tget 0 s.perf.fix r.code + 1) % 2 ^ 48 := by
  have e : removeFrame fid s = onMem (fun m => { m with quarantine := m.quarantine ++ f.marked })
      (onTraffic (fun t => { t with frames := t.frames.filter (fun p => !(p.1 == fid)) }) s) := by
    simp [removeFrame, hf, hs]
  have hg : halted (removeFrame fid s) = false := by rw [e]; exact h
  have hd : discard r fid s = sump r (f.lost fid) (removeFrame fid s) := by simp only [discard, hf]
  obtain ⟨x, hx⟩ := sump_traffic hg r (f.lost fid)
  constructor
  · rw [hd, frameOf, hx, e]
    simp
  · rw [hd, tget_fix_sump hg, if_pos (.inr rfl), e]
    rfl

/-- Settles O50: a lemma of its own for each way that a frame goes, and what the Sump counts of one that is lost. -/
theorem framesReceived : Obligations.FramesReceived := by
  intro s hl
  have hh := halted_of_live hl
  intro lostAs
  refine ⟨fun hp b fcs par => ⟨hostFrameReceive_off fcs, fun h => ⟨?_, ?_, fun hfcs h60 hmax => ⟨?_, ?_, ?_⟩⟩⟩,
    fun lp b fcs h => ⟨?_, ?_, fun hfcs h60 hmax hf => ⟨?_, ?_, ?_⟩⟩, ?_, ?_, ?_⟩
  · rintro rfl
    exact ⟨_, hostFrameReceive_badFcs h, sump_countRx_lostAs hh ..⟩
  · rintro rfl hlen
    exact ⟨_, hostFrameReceive_badLength h hlen, sump_countRx_lostAs hh ..⟩
  · subst hfcs
    intro i r hf hr hen hfit
    obtain ⟨p, hcount, -⟩ := countRx_eq hp.val (b.length + 4) s
    refine ⟨_, hostFrameReceive_filtered h h60 hmax hf, ?_⟩
    rw [hcount]
    exact divert_waits (s := { s with perf := p }) hr hen (decide_eq_true hfit)
  · subst hfcs
    intro hf he hp3
    exact ⟨_, hostFrameReceive_unclassified h h60 hmax hf (classify_miss he ((hostTags_hport ..).symm ▸ hp3) par), sump_countRx_lostAs hh ..⟩
  · subst hfcs
    rintro c hf rfl hi hho ⟨e, he, hinv, rfl⟩ hs n s' u hu f ht
    have hc := classify_hit he hinv
    exact ⟨hostFrameReceive_full hh h h60 hmax hf hc hi hho hs hu ht,
      fun room x v hr hw hlt => hostFrameReceive_accepted hh h h60 hmax hf hc hi hho hs hu ht hr hw hlt⟩
  · rintro rfl
    exact ⟨_, lineFrameReceive_badFcs h, sump_countRx_lostAs hh ..⟩
  · rintro rfl hlen
    exact ⟨_, lineFrameReceive_badLength h hlen, sump_countRx_lostAs hh ..⟩
  · subst hfcs
    intro ht hc
    exact ⟨_, lineFrameReceive_noTag h h60 hmax hf ht hc, sump_countRx_lostAs hh ..⟩
  · subst hfcs
    intro ht hx
    exact ⟨_, lineFrameReceive_badTag h h60 hmax hf ht hx, sump_countRx_lostAs hh ..⟩
  · subst hfcs
    intro x c n ht hx hlen hc hsci hn hm
    exact ⟨_, rfl, rfl, rfl, rfl, rfl, rfl, lineFrameReceive_checked h h60 hmax hf ht hx hlen hc hsci hn hm⟩
  · intro lp c tick b rest hw hr hp ha u n hn hm h84 hmax
    exact ⟨_, rfl, rfl, rfl, rfl, by simp [sealedFrame, bits], rfl, sealedFrameClose_checked hl hw hr hp ha hn hm h84 hmax⟩
  · intro fid f hf hs hd hr hb
    refine ⟨fun ho hsh => ?_, fun ho => ?_⟩
    · refine ⟨_, _, (execReplayRecheck_waits hl hf hs hd).trans (congrArg _ (replayStage_passes hf hr hb ho hsh)),
        frameOf_putFrame_same .., rfl, only_traffic ..⟩
    · obtain ⟨h1, h2⟩ := discard_replayWait hh hf hs .late
      exact ⟨_, (execReplayRecheck_waits hl hf hs hd).trans (congrArg _ (replayStage_late hf hr hb ho)), h1, h2⟩
  · rintro lp x u hx hli t' r rfl hr
    simp [execPtpSegmentReceive, hx, hli, t', hr]

end Sys2Proof.Machine
end

section
/-! What discards, faults, a halt and the pair's messages leave as it is. -/

namespace Sys2Proof.Machine
open Sys2Proof Sys2Proof.Safety

/-- What discards and messages leave as it is: of GLB what a view of it shows, fuses and NVM, mailboxes, the DEGRADE conditions and their
count, the SerDes groups lost, and which ports have a link. -/
structure Lasting (γ : Type) where
  glb : γ
  nvm : Nvm
  mbx : Tab Mbx
  degrade : BitVec 4
  degrades : Nat
  sgLost : List Nat
  links : Nat → Bool

def lasting {γ : Type} (g : Glb → γ) (s : State) : Lasting γ where
  glb := g s.glb
  nvm := s.nvm
  mbx := s.mbx
  degrade := s.maint.degrade
  degrades := tget 0 s.perf.fix 42
  sgLost := s.traffic.sgLost
  links := fun q => (portOf s q).link

/-- The parts of the state that `lasting` does not look at. -/
def idle : List Part :=
  [.time, .pmu, .stp, .keys, .mem, .wh, .objs, .la, .laTurn, .laFloorAt, .reqs, .rings, .irq, .dp, .cas, .pair, .i2c, .tap, .rng, .out]

/-- A view of GLB that a halt does not change: mode and lifecycle. -/
def modes (g : Glb) : Mode × Lifecycle := (g.mode, g.lifecycle)

variable {γ : Type} {g : Glb → γ}

/-- A step that lets fixed counter 42 be, and beside the counters changes only parts that `lasting` does not look at. -/
theorem lasting_of_perf {l : List Part} {s t : State} (h : Only l s t) (hf : tget 0 t.perf.fix 42 = tget 0 s.perf.fix 42)
    (hl : ∀ p ∈ l, p ∈ Part.perf :: idle := by decide) : lasting g t = lasting g s := by
  have k (p : Part) (hp : p ∉ Part.perf :: idle := by decide) : Keeps p s t := h.2 p (fun x => hp (hl p x))
  have hg : t.glb = s.glb := k .glb
  have hn : t.nvm = s.nvm := k .nvm
  have hm : t.mbx = s.mbx := k .mbx
  have hd : t.maint = s.maint := k .maint
  have ht : t.traffic = s.traffic := k .traffic
  simp only [lasting, portOf, hg, hn, hm, hd, ht, hf]

theorem lasting_of_idle {l : List Part} {s t : State} (h : Only l s t) (hl : ∀ p ∈ l, p ∈ idle := by decide) :
    lasting g t = lasting g s := by
  have hp : t.perf = s.perf := h.2 .perf (fun x => absurd (hl _ x) (by decide))
  exact lasting_of_perf h (by rw [hp]) (fun p x => List.mem_cons_of_mem _ (hl p x))

theorem lasting_foldl {β : Type} {f : State → β → State} (h : ∀ s x, lasting g (f s x) = lasting g s) (l : List β) (s : State) :
    lasting g (l.foldl f s) = lasting g s := by
  induction l generalizing s with
  | nil => rfl
  | cons x r ih => exact (ih _).trans (h s x)

theorem lasting_ite {c : Prop} [Decidable c] {s a b : State} (ha : lasting g a = lasting g s) (hb : lasting g b = lasting g s) :
    lasting g (if c then a else b) = lasting g s := by split <;> assumption

theorem lasting_onTraffic {f : Traffic → Traffic} {s : State} (hl : (f s.traffic).sgLost = s.traffic.sgLost)
    (hp : (f s.traffic).ports = s.traffic.ports) : lasting g (onTraffic f s) = lasting g s := by
  simp only [lasting, portOf, onTraffic_traffic, hl, hp]
  rfl

/-! Events and counters -/

theorem lasting_raise (e : Nat) (d : Bytes) (s : State) : lasting g (raise e d s) = lasting g s :=
  lasting_of_perf (raise_only e d s) (tget_fix_raise (by decide) e d s)

theorem lasting_masterWrite (m c w a : Nat) (d : Bytes) (s : State) : lasting g (masterWrite m c w a d s).2 = lasting g s := by
  refine lasting_of_perf (masterWrite_only m c w a d s) ?_
  unfold masterWrite
  dsimp only
  split
  · rw [sampleMem_perf_fix, countEv_perf_fix, tget_fix_memWrite (by decide) (by decide)]
  · rw [sampleMem_perf_fix, mpuFault, tget_fix_raise (by decide), tget_fix_captureFault (by decide), countEv_perf_fix]

theorem lasting_maint {x : Maint} {s : State} (h : x.degrade = s.maint.degrade) : lasting g { s with maint := x } = lasting g s := by
  simp only [lasting, portOf, h]

theorem lasting_logFault (c r d : Nat) (s : State) : lasting g (logFault c r d s) = lasting g s := by
  unfold logFault
  split
  · rfl
  · exact lasting_maint rfl

theorem lasting_countFault {m : Nat} (h : m ≠ 42) (s : State) : lasting g (countFault m s) = lasting g s := by
  refine lasting_of_perf (countFault_only m s) ?_
  unfold countFault
  split
  · rfl
  · rw [tget_fix_bumpFix, if_neg (Ne.symm h)]

theorem lasting_sump {r : Reason} (l : Lost) (s : State) : lasting g (sump r l s) = lasting g s := by
  cases h : halted s with
  | true => simp [sump, h]
  | false =>
    obtain ⟨x, hx⟩ := sump_traffic h r l
    have ho := sump_only r l s
    have hg : (sump r l s).glb = s.glb := ho.2 .glb (by decide)
    have hn : (sump r l s).nvm = s.nvm := ho.2 .nvm (by decide)
    have hm : (sump r l s).mbx = s.mbx := ho.2 .mbx (by decide)
    have hd : (sump r l s).maint = s.maint := ho.2 .maint (by decide)
    have hc : r.code ≠ 42 := by cases r <;> decide
    simp only [lasting, portOf, hg, hn, hm, hd, hx, tget_fix_sump_other (r := r) (k := 42) (by decide) (Ne.symm hc)]

/-! Clusters, frames and requests -/

theorem setCluster_only (c : Nat) (x : Cluster) (s : State) : Only [.pmu] s (setCluster c x s) := only_pmu s _

theorem setDom_only (s : State) (n : Nat) (d : Dom) : Only [.pmu] s (setDom s n d) := only_pmu s _

theorem recount_only (s : State) : Only [.pmu] s (recount s) := only_pmu s _

theorem setRole_only (c : Nat) (r : Role) (s : State) : Only [.pmu] s (setRole c r s) := by
  have h (d : Dom) := only_seq (setCluster_only c { clusterOf s c with role := r } s) (setDom_only _ c d)
  unfold setRole
  exact only_ite (h _) (only_seq (h _) (recount_only _))

theorem tryTest_only (s : State) : Only [.pmu] s (tryTest s) := by
  unfold tryTest
  split
  · exact only_refl _ s
  · exact only_ite (setRole_only ..) (only_refl _ s)

theorem vacate_only (c id : Nat) (s : State) : Only [.pmu] s (vacate c id s) := by
  have he (s : State) : Only [.pmu] s (emptied c s) :=
    only_ite (only_refl _ s) (only_seq (only_ite (setDom_only s ..) (only_refl _ s)) (tryTest_only _))
  exact only_seq (setCluster_only ..) (he _)

theorem lasting_vacate (c id : Nat) (s : State) : lasting g (vacate c id s) = lasting g s := lasting_of_idle (vacate_only c id s)

theorem lasting_removeFrame (fid : Nat) (s : State) : lasting g (removeFrame fid s) = lasting g s := by
  unfold removeFrame
  split
  · rfl
  · next f _ =>
    have h0 : lasting g (onMem (fun m => { m with quarantine := m.quarantine ++ f.marked })
        (onTraffic (fun t => { t with frames := t.frames.filter (fun p => !(p.1 == fid)) }) s)) = lasting g s :=
      (lasting_of_idle (only_mem ..)).trans (lasting_onTraffic rfl rfl)
    have h1 (u : State) (hu : lasting g u = lasting g s) : lasting g (match f.stage with | .inCluster c => vacate c fid u | _ => u) = lasting g s := by
      split
      · exact (lasting_vacate ..).trans hu
      · exact hu
    exact lasting_ite ((lasting_onTraffic rfl rfl).trans (h1 _ h0)) (h1 _ h0)

theorem lasting_discard (r : Reason) (fid : Nat) (s : State) : lasting g (discard r fid s) = lasting g s := by
  unfold discard
  split
  · rfl
  · exact (lasting_sump ..).trans (lasting_removeFrame ..)

theorem lasting_discardAll (r : Reason) (p : Frame → Bool) (s : State) : lasting g (discardAll r p s) = lasting g s :=
  lasting_foldl (fun s fid => lasting_discard r fid s) _ s

theorem lasting_dropSegs (p : Nat) (r : Reason) (which : Seg → Bool) (s : State) : lasting g (dropSegs p r which s) = lasting g s :=
  (lasting_of_idle (only_wh ..)).trans (lasting_foldl (fun s _ => lasting_sump _ s) _ s)

theorem lasting_dropQueued (q : Nat) (r : Reason) (which : Seg → Bool) (s : State) : lasting g (dropQueued q r which s) = lasting g s :=
  (lasting_onTraffic rfl rfl).trans ((lasting_ite (lasting_dropSegs ..) rfl).trans (lasting_discardAll ..))

end Sys2Proof.Machine
end

section
/-! The destruction line, the halt, and what follows a change for the pair: `lasting` through each of them. -/

namespace Sys2Proof.Machine
open Sys2Proof Sys2Proof.Safety

variable {γ : Type} {g : Glb → γ}

theorem tget_map {α β : Type} (d : α) (f : α → β) (t : Tab α) (k : Nat) :
    tget (f d) (t.map (fun p => (p.1, f p.2))) k = f (tget d t k) := by
  induction t with
  | nil => rfl
  | cons x r ih =>
    by_cases h : x.1 = k
    · simp [tget, h]
    · simp [tget, h, ih]

/-- A change of the traffic that maps the ports' states and leaves their links. -/
theorem lasting_mapPorts {f : Traffic → Traffic} {h : PortSt → PortSt} {s : State} (hs : (f s.traffic).sgLost = s.traffic.sgLost)
    (hp : (f s.traffic).ports = s.traffic.ports.map (fun p => (p.1, h p.2))) (hd : h {} = {}) (hl : ∀ x, (h x).link = x.link) :
    lasting g (onTraffic f s) = lasting g s := by
  have e : (fun q => (portOf (onTraffic f s) q).link) = fun q => (portOf s q).link := by
    funext q
    have m := tget_map {} h s.traffic.ports q
    rw [hd] at m
    simp only [portOf, onTraffic_traffic, hp, m, hl]
  simp only [lasting, e, onTraffic_traffic, hs]
  rfl

/-! Requests discarded from the array -/

theorem lasting_dropReq (id : Nat) (s : State) : lasting g (dropReq id s) = lasting g s := by
  unfold dropReq
  split
  · rfl
  · have h := lasting_of_idle (g := g) (only_reqs s (s.reqs.filter (fun p => !(p.1 == id))))
    dsimp only
    split
    · exact (lasting_vacate ..).trans h
    · exact h

theorem lasting_forgetRing (r : Nat) (s : State) : lasting g (forgetRing r s) = lasting g s := by
  have two (s : State) (x y) : Only [.wh, .reqs] s { s with wh := x, reqs := y } :=
    only_trans (only_wh s x) (only_reqs { s with wh := x } y)
  exact (lasting_of_idle (two ..)).trans (lasting_mapPorts
    (h := fun x => { x with mgmt := x.mgmt.map (fun m => if m.ring = some r then { m with ring := none } else m) }) rfl rfl rfl (fun _ => rfl))

theorem lasting_ringStopped (r : Nat) (s : State) : lasting g (ringStopped r s) = lasting g s :=
  (lasting_forgetRing ..).trans ((lasting_of_idle (setRing_only ..)).trans
    (lasting_foldl (fun s _ => lasting_of_idle (ringDrop_only r s)) _ s))

theorem lasting_txFlush (r fuel : Nat) (s : State) : lasting g (txFlush r fuel s) = lasting g s := by
  induction fuel generalizing s with
  | zero => rfl
  | succ n ih =>
    have ha (s : State) : lasting g (ringAdvance r 1 s) = lasting g s :=
      lasting_ite ((lasting_raise ..).trans (lasting_of_idle (setRing_only ..))) (lasting_of_idle (setRing_only ..))
    have hr (s : State) : lasting g (ringRefused r s) = lasting g s := (lasting_ringStopped ..).trans (lasting_of_idle (ringFail_only r s))
    unfold txFlush
    dsimp only
    split
    · rfl
    · split
      · rfl
      · have h : ∀ m c w a d x, lasting g (masterWrite m c w a d (setRing r x s)).2 = lasting g s := fun m c w a d x =>
          (lasting_masterWrite ..).trans (lasting_of_idle (setRing_only r x s))
        exact lasting_ite ((ih _).trans ((ha _).trans (h ..))) ((hr _).trans (h ..))

theorem lasting_txDone (r index status : Nat) (s : State) : lasting g (txDone r index status s) = lasting g s :=
  lasting_ite rfl (lasting_ite ((lasting_of_idle (keepWaiting_only ..)).trans (lasting_of_idle (setRing_only ..)))
    ((lasting_txFlush ..).trans (lasting_of_idle (setRing_only ..))))

theorem lasting_loseReq (r : Reason) (id : Nat) (s : State) : lasting g (loseReq r id s) = lasting g s := by
  unfold loseReq
  split
  · rfl
  · dsimp only
    split
    · split
      · exact (lasting_txDone ..).trans (lasting_dropReq ..)
      · exact lasting_dropReq ..
    · exact lasting_dropReq ..
    · exact (lasting_of_idle (only_la ..)).trans (lasting_dropReq ..)

theorem lasting_loseReqs (r : Reason) (p : Req → Bool) (s : State) : lasting g (loseReqs r p s) = lasting g s :=
  lasting_foldl (fun s id => lasting_loseReq r id s) _ s

/-- The destruction line leaves what `lasting` looks at: it clears keys, requests and the Standpipe's banks (R166, R123). -/
theorem lasting_destroy (source : Nat) (s : State) : lasting g (destroy source s) = lasting g s := by
  have two (s : State) (x y) : Only [.la, .wh] s { s with la := x, wh := y } := only_trans (only_la s x) (only_wh { s with la := x } y)
  exact (lasting_of_idle (only_keys ..)).trans <| (lasting_of_idle (only_pair ..)).trans <| (lasting_of_idle (two ..)).trans <|
    (lasting_of_idle (only_stp ..)).trans <| (lasting_of_idle (only_pmu ..)).trans <|
    (lasting_loseReqs ..).trans (lasting_discardAll ..)

theorem destroy_keys (source : Nat) (s : State) :
    (destroy source s).keys.kslot = [] ∧ (destroy source s).keys.gslot = [] ∧ (destroy source s).keys.line.isSome = true := by
  refine ⟨rfl, rfl, ?_⟩
  unfold destroy
  dsimp only [onKeys_keys]
  split <;> rfl

/-! The mated link and the halt -/

theorem mate_only (type : Nat) (body : Bytes) (s : State) : Only [.traffic, .reqs, .out] s (mate type body s) :=
  only_ite (only_refl _ s) (only_mono (only_trans (only_traffic s _) (only_trans (only_reqs _ _) (only_out _ _))) (by decide))

theorem mate_traffic (type : Nat) (body : Bytes) (s : State) : ∃ n, (mate type body s).traffic = { s.traffic with nextFid := n } := by
  unfold mate
  split
  · exact ⟨s.traffic.nextFid, rfl⟩
  · exact ⟨s.traffic.nextFid + 1, rfl⟩

theorem mate_frames (type : Nat) (body : Bytes) (s : State) : (mate type body s).traffic.frames = s.traffic.frames := by
  obtain ⟨n, h⟩ := mate_traffic type body s
  rw [h]

theorem lasting_mate (type : Nat) (body : Bytes) (s : State) : lasting g (mate type body s) = lasting g s := by
  have h := mate_only type body s
  obtain ⟨n, ht⟩ := mate_traffic type body s
  have hg : (mate type body s).glb = s.glb := h.2 .glb (by decide)
  have hn : (mate type body s).nvm = s.nvm := h.2 .nvm (by decide)
  have hm : (mate type body s).mbx = s.mbx := h.2 .mbx (by decide)
  have hd : (mate type body s).maint = s.maint := h.2 .maint (by decide)
  have hp : (mate type body s).perf = s.perf := h.2 .perf (by decide)
  simp only [lasting, portOf, hg, hn, hm, hd, hp, ht]

theorem cutFrames_only (s : State) : Only [.out] s (cutFrames s) := only_foldl (fun s _ => only_out s _)

theorem reqsWhRings_only (s : State) (x y z) : Only [.reqs, .wh, .rings] s { s with reqs := x, wh := y, rings := z } :=
  only_trans (only_reqs s x) (only_trans (only_wh { s with reqs := x } y) (only_rings { s with reqs := x, wh := y } z))

theorem clearFrames_only (s : State) : Only [.traffic, .pmu, .reqs, .wh, .rings] s (clearFrames s) := by
  exact only_trans (only_trans (only_traffic s _) (only_pmu _ _)) (reqsWhRings_only _ _ _ _)

theorem lasting_clearFrames (s : State) : lasting g (clearFrames s) = lasting g s := by
  exact (lasting_of_idle (reqsWhRings_only ..)).trans <| (lasting_of_idle (only_pmu ..)).trans <| lasting_mapPorts
    (h := fun x => { x with mgmt := [], launchHeld := false, busyUntil := 0, cuttable := none, stopped := none }) rfl rfl rfl (fun _ => rfl)

/-- A halt cause recorded with its instant (R424). -/
def causeRecorded (cause : Nat) (s : State) : State :=
  onGlb (fun g => { g with haltCause := cause, haltTick := s.time.ticks, haltNs := s.time.now.ns, haltSec := s.time.now.sec }) s

/-- What a halt does once its cause is recorded (Table 10-5). -/
def haltSteps (cause : Nat) (s : State) : State :=
  let u := clearFrames (cutFrames (setCause evHalt s))
  mateHalting cause (emit .idle (onTime (fun t => { t with ppsOut := false }) { u with
    wh := u.wh.map (fun w => (w.1, if w.1 < 48 then { w.2 with tx := { w.2.tx with running := false } } else w.2)) }))

theorem halt_live {s : State} (h : live s = true) (cause : Nat) : halt cause s = haltSteps cause (causeRecorded cause s) := by
  rw [halt, if_neg (by simp [asleep_of_live h]), if_neg (by simp [halted_of_live h])]
  rfl

theorem haltSteps_only (cause : Nat) (s : State) : Only [.irq, .traffic, .pmu, .wh, .rings, .time, .reqs, .out] s (haltSteps cause s) := by
  have h1 := only_trans (setCause_only evHalt s) (only_trans (cutFrames_only _) (clearFrames_only _))
  exact only_mono (only_trans h1 (only_trans (only_wh _ _) (only_trans (only_time _ _) (only_trans (only_out _ _) (mate_only ..))))) (by decide)

theorem lasting_haltSteps (cause : Nat) (s : State) : lasting g (haltSteps cause s) = lasting g s :=
  (lasting_mate ..).trans <| (lasting_of_idle (only_out _ _)).trans <| (lasting_of_idle (only_time _ _)).trans <|
    (lasting_of_idle (only_wh _ _)).trans <| (lasting_clearFrames ..).trans <| (lasting_of_idle (cutFrames_only _)).trans <|
    lasting_of_idle (setCause_only ..)

theorem haltSteps_frames (cause : Nat) (s : State) : (haltSteps cause s).traffic.frames = [] := mate_frames ..

/-- Raising an event's cause bit, whatever becomes of its message, leaves that bit set (R375). -/
theorem setCause_sets (e : Nat) (he : e < 64) (s : State) : (setCause e s).irq.cause.getLsbD e = true := by
  have hb : (s.irq.cause ||| ((1 : W64) <<< e)).getLsbD e = true := by simp [he]
  have hs (v : Nat) (s : State) : (sendMsix v s).irq.cause = s.irq.cause := by
    unfold sendMsix
    dsimp only
    split <;> rfl
  unfold setCause
  dsimp only
  split
  · exact hb
  · split
    · rw [hs]; exact hb
    · exact hb

theorem haltSteps_cause (cause : Nat) (s : State) : (haltSteps cause s).irq.cause.getLsbD 0 = true := by
  have h : (haltSteps cause s).irq = (setCause evHalt s).irq :=
    (only_trans (cutFrames_only (setCause evHalt s)) (only_trans (clearFrames_only _)
      (only_trans (only_wh _ _) (only_trans (only_time _ _) (only_trans (only_out _ _) (mate_only ..)))))).2 .irq (by decide)
  rw [h]
  exact setCause_sets 0 (by decide) s

/-- A halt keeps mode and lifecycle. -/
theorem lasting_halt (cause : Nat) (s : State) : lasting modes (halt cause s) = lasting modes s := by
  cases ha : asleep s with
  | true => simp [halt, ha]
  | false =>
    cases hh : halted s with
    | true =>
      rw [halt, if_neg (by simp [ha]), if_pos hh]
      split <;> rfl
    | false =>
      rw [halt_live (by simp [live, ha, hh])]
      exact lasting_haltSteps ..

/-! What the pair sends after a change -/

theorem lasting_readInternal (h : Nat) (s : State) : lasting modes (readInternal h s).2 = lasting modes s := by
  unfold readInternal
  dsimp only
  split
  · rfl
  · exact lasting_halt ..

theorem lasting_readG (n : Nat) (s : State) : lasting g (readG n s).2 = lasting g s := by
  unfold readG
  dsimp only
  split
  · rfl
  · exact (lasting_foldl (fun s ca => (lasting_of_idle (only_keys _ _)).trans (lasting_of_idle (only_keys _ _))) _ _).trans <|
      (lasting_logFault ..).trans <| (lasting_countFault (by decide) _).trans (lasting_of_idle (only_keys ..))

theorem lasting_wrapSlot (x : Slot) (s : State) : lasting modes (wrapSlot x s).2 = lasting modes s := by
  have h := lasting_readInternal handlePairWrap s
  unfold wrapSlot
  split <;> next e => rw [e] at h; exact h

theorem lasting_slotBody (o : Nat) (s : State) : lasting modes (slotBody o s).2 = lasting modes s := by
  have h := lasting_readG (g := modes) (o / 256 % 65536) s
  unfold slotBody
  dsimp only
  split
  · exact lasting_wrapSlot ..
  · split
    · rfl
    · split
      · exact lasting_of_idle (only_keys ..)
      · split
        · split
          · exact lasting_wrapSlot ..
          · exact lasting_halt ..
        · split
          · next e => rw [e] at h; exact h
          · next e => rw [e] at h; exact (lasting_wrapSlot ..).trans h

theorem lasting_sendMirror (o : Nat) (s : State) : lasting modes (sendMirror o s) = lasting modes s := by
  have h : lasting modes (mirrorBody o s).2 = lasting modes s := by
    unfold mirrorBody
    dsimp only
    split
    · exact lasting_slotBody ..
    · split <;> rfl
  unfold sendMirror
  split
  · next e => rw [e] at h; exact h
  · next e => rw [e] at h; exact (lasting_mate ..).trans ((lasting_of_idle (only_pair ..)).trans h)

theorem lasting_sendAll (s : State) : lasting modes (sendAll s) = lasting modes s := by
  refine lasting_ite ((lasting_foldl (fun s o => lasting_sendMirror o s) _ _).trans (lasting_foldl (fun s o => ?_) _ s)) rfl
  exact lasting_ite (lasting_of_idle (only_pair ..)) rfl

/-- What follows a change for the pair keeps mode, lifecycle, mailboxes, fuses, links and the DEGRADE conditions and their count. -/
theorem lasting_settle (s0 s : State) : lasting modes (settle s0 s) = lasting modes s := by
  have hp (s : State) (x : Pair) : lasting modes { s with pair := x } = lasting modes s := lasting_of_idle (only_pair s x)
  have hr : lasting modes (updateReady s) = lasting modes s := by
    unfold updateReady
    dsimp only
    split
    · exact lasting_ite (hp ..) rfl
    · exact lasting_ite rfl (hp ..)
    · exact lasting_ite ((lasting_sendAll _).trans (hp ..)) rfl
    · rfl
  have hy (s : State) : lasting modes (tryYield s) = lasting modes s := lasting_ite ((lasting_mate ..).trans (hp ..)) rfl
  exact lasting_ite rfl (lasting_ite ((hy _).trans hr) ((lasting_mate ..).trans ((hy _).trans hr)))

theorem settle_unpaired {s : State} (h : paired s = false) (s0 : State) : settle s0 s = s := by
  simp [settle, h]

end Sys2Proof.Machine
end

section
/-! Lost clocks, fuses blown and boundary scan (R16, R275, R305, R307, R308, R310): `Obligations.ClocksFusesAndScan`. -/

namespace Sys2Proof.Machine
open Sys2Proof Sys2Proof.Safety

variable {γ : Type} {g : Glb → γ}

/-! Loss of the system reference clock -/

theorem refclkSysLost_halts {s : State} (h : live s = true) : ∃ t, exec .refclkSysLost s = .next t ∧ t.glb.haltCause = 6
    ∧ t.glb.haltTick = s.time.ticks ∧ t.traffic.frames = [] ∧ t.irq.cause.getLsbD 0 = true
    ∧ Only [.glb, .irq, .traffic, .pmu, .wh, .rings, .time, .reqs, .out] s t := by
  have ho := haltSteps_only 6 (causeRecorded 6 s)
  have hg : (haltSteps 6 (causeRecorded 6 s)).glb = (causeRecorded 6 s).glb := ho.2 .glb (by decide)
  refine ⟨haltSteps 6 (causeRecorded 6 s), ?_, by rw [hg]; rfl, by rw [hg]; rfl, haltSteps_frames .., haltSteps_cause ..,
    only_mono (only_trans (only_glb s _) ho) (by decide)⟩
  rw [exec_refclkSysLost, execRefclkSysLost, haltRefclk, halt_live h]

/-! SerDes groups -/

theorem lasting_setPort_down {q : Nat} {x : PortSt} {s : State} (hx : x.link = false) :
    lasting g (setPort q x s) = { lasting g s with links := fun k => !(k == q) && (portOf s k).link } := by
  have e (k : Nat) : (portOf (setPort q x s) k).link = (!(k == q) && (portOf s k).link) := by
    rw [show portOf (setPort q x s) k = if k = q then x else portOf s k from tget_tset ..]
    by_cases h : k = q <;> simp [h, hx]
  exact congrArg (fun l => { lasting g s with links := l }) (funext e)

/-- A port's link goes down; the other ports keep theirs, and all else that lasts stays. -/
theorem lasting_linkOff (q : Nat) (s : State) : lasting g (linkOff q s) =
    { lasting g s with links := fun k => !(k == q) && (portOf s k).link } :=
  (lasting_dropQueued ..).trans (lasting_setPort_down (by rfl))

/-- Ports of a list that go down one after the other. -/
theorem lasting_linksOff (l : List Nat) (s : State) : lasting g (l.foldl (fun t q => linkOff q t) s) =
    { lasting g s with links := fun k => !(l.contains k) && (portOf s k).link } := by
  induction l generalizing s with
  | nil => simp [lasting]
  | cons q r ih =>
    have h := lasting_linkOff (g := g) q s
    have hl (k : Nat) : (portOf (linkOff q s) k).link = (!(k == q) && (portOf s k).link) := congrFun (congrArg Lasting.links h) k
    refine (ih (linkOff q s)).trans ?_
    rw [h]
    refine congrArg (fun l => { lasting g s with links := l }) (funext fun k => ?_)
    rw [hl, List.contains_cons]
    cases k == q <;> simp

theorem mem_upFrom {k a n : Nat} : k ∈ upFrom a n ↔ a ≤ k ∧ k < a + n := by
  induction n generalizing a with
  | zero => simp [upFrom]
  | succ m ih =>
    rw [upFrom, List.mem_cons, ih]
    omega

theorem sgPorts_contains (q : Port) : (sgPorts (portSg q.val)).contains q.val = true := by
  simp [sgPorts, mem_upFrom]

/-- A DEGRADE fault of a device that is not halted sets its conditions and counts once; all else that lasts stays (R282). -/
theorem lasting_degrade {s : State} (h : halted s = false) (row detail : Nat) (c : BitVec 4) :
    lasting g (degrade row detail c s) = { lasting g s with
      degrade := s.maint.degrade ||| c, degrades := (tget 0 s.perf.fix 42 + 1) % 2 ^ 48 } := by
  have hc : countFault 42 { s with maint := { s.maint with degrade := s.maint.degrade ||| c } } =
      bumpFix 42 1 { s with maint := { s.maint with degrade := s.maint.degrade ||| c } } :=
    if_neg (by simp [haltOver, show halted { s with maint := { s.maint with degrade := s.maint.degrade ||| c } } = false from h])
  refine (lasting_raise ..).trans ((lasting_logFault ..).trans ?_)
  rw [hc]
  exact congrArg (fun n => { lasting g s with degrade := s.maint.degrade ||| c, degrades := n }) ((tget_fix_bumpFix ..).trans (if_pos rfl))

theorem refclkSgLost_next {s : State} {k : SgNo} (h : live s = true) (hk : s.traffic.sgLost.contains k.val = false) :
    exec (.refclkSgLost k) s = .next (settle s (degrade 12 k.val 4 ((sgPorts k.val).foldl (fun t q => linkOff q t)
      (onTraffic (fun t => { t with sgLost := t.sgLost ++ [k.val] }) s)))) := by
  rw [exec_refclkSgLost, execRefclkSgLost, if_neg (by rw [asleep_of_live h, hk]; decide), if_neg (by rw [halted_of_live h]; decide)]

/-- What lasts when a SerDes group is lost on a live device (R16, R282). -/
theorem refclkSgLost_lasting {s : State} {k : SgNo} (h : live s = true) (hk : s.traffic.sgLost.contains k.val = false) :
    ∃ t, exec (.refclkSgLost k) s = .next t ∧ lasting modes t = { lasting modes s with
      sgLost := s.traffic.sgLost ++ [k.val], links := fun q => !((sgPorts k.val).contains q) && (portOf s q).link
      degrade := s.maint.degrade ||| 4, degrades := (tget 0 s.perf.fix 42 + 1) % 2 ^ 48 } := by
  refine ⟨_, refclkSgLost_next h hk, (lasting_settle ..).trans ?_⟩
  generalize hu : (sgPorts k.val).foldl (fun t q => linkOff q t) (onTraffic (fun t => { t with sgLost := t.sgLost ++ [k.val] }) s) = u
  have hl := lasting_linksOff (g := id) (sgPorts k.val) (onTraffic (fun t => { t with sgLost := t.sgLost ++ [k.val] }) s)
  have hm := lasting_linksOff (g := modes) (sgPorts k.val) (onTraffic (fun t => { t with sgLost := t.sgLost ++ [k.val] }) s)
  rw [hu] at hl hm
  have hg : u.glb = s.glb := congrArg Lasting.glb hl
  have hd : u.maint.degrade = s.maint.degrade := congrArg Lasting.degrade hl
  have hf : tget 0 u.perf.fix 42 = tget 0 s.perf.fix 42 := congrArg Lasting.degrades hl
  rw [lasting_degrade ((halted_congr hg).trans (halted_of_live h)), hm, hd, hf]
  rfl

/-- A SerDes group that returns: it is no longer lost, and with the last of them the DEGRADE condition clears (R282). -/
theorem refclkSgRestored_next {s : State} {k : SgNo} (h : live s = true) (hk : s.traffic.sgLost.contains k.val = true) :
    ∃ u, exec (.refclkSgRestored k) s = .next (settle s u) ∧ u.nvm = s.nvm
      ∧ u.traffic = { s.traffic with sgLost := s.traffic.sgLost.filter (fun n => n != k.val) }
      ∧ u.maint.degrade = (if s.traffic.sgLost.all (fun n => n == k.val) && s.traffic.sgFailed.isEmpty then s.maint.degrade &&& 0xB
          else s.maint.degrade) := by
  have hall : (s.traffic.sgLost.filter (fun n => !(n == k.val))).isEmpty = s.traffic.sgLost.all (fun n => n == k.val) := by
    rw [Bool.eq_iff_iff]
    simp
  rw [← hall, exec_refclkSgRestored, execRefclkSgRestored, if_neg (by rw [h, hk]; decide)]
  by_cases hc : ((s.traffic.sgLost.filter (fun n => !(n == k.val))).isEmpty && s.traffic.sgFailed.isEmpty) = true
  · exact ⟨_, congrArg (fun u => Host.Outcome.next (settle s u)) (if_pos hc), rfl, rfl, (if_pos hc).symm⟩
  · exact ⟨_, congrArg (fun u => Host.Outcome.next (settle s u)) (if_neg hc), rfl, rfl, (if_neg hc).symm⟩

/-! Fuses blown -/

theorem mbxOf_closeSession (k n : Nat) (s : State) : mbxOf (closeSession k s) n =
    if n = k then { mbxOf s k with session := none, challenge := none } else mbxOf s n := by
  have h : (closeSession k s).mbx = (setMbx k { mbxOf s k with session := none, challenge := none } s).mbx := by
    unfold closeSession
    dsimp only
    split
    · split <;> rfl
    · rfl
  rw [mbxOf, h]
  exact tget_tset ..

/-- Closing the sessions of mailboxes a and those after it: none of them has one left, and nothing else of a mailbox but its challenge changes. -/
theorem closeSessions_mbx (l : List Nat) (s : State) (n : Nat) :
    (mbxOf (l.foldl (fun s m => closeSession m s) s) n).answer = (mbxOf s n).answer
    ∧ (mbxOf (l.foldl (fun s m => closeSession m s) s) n).orphan = (mbxOf s n).orphan
    ∧ (n ∈ l ∨ (mbxOf s n).session = none → (mbxOf (l.foldl (fun s m => closeSession m s) s) n).session = none) := by
  induction l generalizing s with
  | nil => simp
  | cons k r ih =>
    obtain ⟨h1, h2, h3⟩ := ih (closeSession k s)
    rw [mbxOf_closeSession] at h1 h2 h3
    refine ⟨h1.trans ?_, h2.trans ?_, fun h => h3 ?_⟩
    · split
      · next e => rw [e]
      · rfl
    · split
      · next e => rw [e]
      · rfl
    · by_cases e : n = k
      · simp [e]
      · simpa [e] using h

theorem closeAll_only (s : State) : Only [.mbx, .dp] s (closeAll s) := by
  refine only_foldl (fun s m => ?_)
  have h := only_mono (only_mbx s (tset {} s.mbx m { mbxOf s m with session := none, challenge := none })) (m := [.mbx, .dp]) (by decide)
  unfold closeSession
  dsimp only
  split
  · split
    · exact only_seq h (only_mono (only_dp _ _) (by decide))
    · exact h
  · exact h

/-- Fuses blown: the new lifecycle, the fuse group, and every session closed (R307, R369). -/
theorem blowFuses_keeps (l : Lifecycle) (s : State) : (blowFuses l s).glb = { s.glb with lifecycle := l } ∧ (blowFuses l s).nvm = burn l s.nvm
    ∧ (blowFuses l s).time = s.time := by
  have h (u : State) : (closeAll u).glb = u.glb ∧ (closeAll u).nvm = u.nvm ∧ (closeAll u).time = u.time :=
    ⟨(closeAll_only u).2 .glb (by decide), (closeAll_only u).2 .nvm (by decide), (closeAll_only u).2 .time (by decide)⟩
  exact h _

theorem blowFuses_mbx (l : Lifecycle) (s : State) (n : Nat) : (mbxOf (blowFuses l s) n).answer = (mbxOf s n).answer
    ∧ (mbxOf (blowFuses l s) n).orphan = (mbxOf s n).orphan ∧ (n < 16 → (mbxOf (blowFuses l s) n).session = none) := by
  obtain ⟨h1, h2, h3⟩ := closeSessions_mbx (upFrom 0 16)
    (stpRecord noSource kindLifecycle l.code (recompute (onGlb (fun g => { g with lifecycle := l }) (onNvm (burn l) s)))) n
  exact ⟨h1, h2, fun hn => h3 (.inl (mem_upFrom.2 (by omega)))⟩

theorem answer_only (mb : Nat) (r : Reply) (s : State) : Only [.mbx, .perf] s (answer mb r s) := by
  have h (x : Mbx) : Only [.mbx, .perf] s (setMbx mb x s) := only_mono (only_mbx s _) (by decide)
  have h2 := only_ite (c := (mbxOf s mb).orphan = true) (h { mbxOf s mb with orphan := false })
    (h { mbxOf s mb with answer := some { status := r.1, body := r.2 }, started := none })
  exact only_ite (only_seq h2 (only_seq (only_mono (countFix_only ..) (by decide)) (only_mono (countEv_only ..) (by decide)))) h2

theorem mbxOf_answer {mb : Nat} {s : State} (h : (mbxOf s mb).orphan = false) (r : Reply) (n : Nat) : mbxOf (answer mb r s) n =
    if n = mb then { mbxOf s mb with answer := some { status := r.1, body := r.2 }, started := none } else mbxOf s n := by
  have e : (answer mb r s).mbx = (setMbx mb { mbxOf s mb with answer := some { status := r.1, body := r.2 }, started := none } s).mbx := by
    unfold answer
    simp only [h]
    split
    · exact (countEv_keeps .mbx ..).trans (countFix_keeps .mbx ..)
    · rfl
  rw [mbxOf, e]
  exact tget_tset ..

/-- The state in which fuses have been blown and the waiting command has its answer. -/
def fusesAnswered (l : Lifecycle) (m : Mb) (s : State) : State := answer m.val (reply .ok) (blowFuses l s)

theorem fusesAnswered_keeps (l : Lifecycle) (m : Mb) (s : State) : (fusesAnswered l m s).glb = { s.glb with lifecycle := l }
    ∧ (fusesAnswered l m s).nvm = burn l s.nvm ∧ (fusesAnswered l m s).time = s.time := by
  have h := answer_only m.val (reply .ok) (blowFuses l s)
  obtain ⟨h1, h2, h3⟩ := blowFuses_keeps l s
  exact ⟨(h.2 .glb (by decide)).trans h1, (h.2 .nvm (by decide)).trans h2, (h.2 .time (by decide)).trans h3⟩

theorem fusesAnswered_mbx (l : Lifecycle) {m : Mb} {s : State} (h : (mbxOf s m.val).orphan = false) :
    (∀ n, n < 16 → (mbxOf (fusesAnswered l m s) n).session = none)
    ∧ (mbxOf (fusesAnswered l m s) m.val).answer = some { status := .ok } := by
  have ho := (blowFuses_mbx l s m.val).2.1.trans h
  refine ⟨fun n hn => ?_, ?_⟩
  · rw [fusesAnswered, mbxOf_answer ho]
    split
    · exact (blowFuses_mbx l s m.val).2.2 m.isLt
    · exact (blowFuses_mbx l s n).2.2 hn
  · rw [fusesAnswered, mbxOf_answer ho, if_pos rfl]
    rfl

/-! Entering a mode -/

theorem tieKeys_only (ca size : Nat) (cak : NatList) (s : State) : Only [.keys, .cas, .rng] s (tieKeys ca size cak s) := by
  have put (h : Nat) (v : Key) (s : State) : Only [.keys, .cas, .rng] s (putInternal h v s) :=
    only_seq (only_mono (only_rng s _) (by decide)) (only_ite (only_refl _ _) (only_mono (only_keys _ _) (by decide)))
  exact only_seq (only_mono (only_cas s _) (by decide)) (only_seq (put ..) (put ..))

theorem lasting_tieCa (ca n : Nat) (s : State) : lasting g (tieCa ca n s) = lasting g s := by
  have hr := lasting_readG (g := g) n s
  unfold tieCa
  dsimp only
  split
  · exact lasting_of_idle (only_keys ..)
  · split
    · rfl
    · split
      · next e => rw [e] at hr; exact hr
      · next e => rw [e] at hr; exact (lasting_of_idle (tieKeys_only ..)).trans hr

theorem lasting_tieAll (s : State) : lasting g (tieAll s) = lasting g s :=
  lasting_foldl (fun _ _ => lasting_ite (lasting_tieCa ..) rfl) _ s

theorem mbxOf_congr {s t : State} (h : t.mbx = s.mbx) (n : Nat) : mbxOf t n = mbxOf s n := by rw [mbxOf, h, ← mbxOf]

theorem closeEnrolment_none {s : State} (h : ∀ n, n < 4 → (mbxOf s n).session = none) : closeEnrolment s = s := by
  have all (l : List Nat) (hl : ∀ n ∈ l, n < 4) :
      l.foldl (fun s m => if (mbxOf s m).session.any (·.enrolment) then closeSession m s else s) s = s := by
    induction l with
    | nil => rfl
    | cons n r ih =>
      rw [List.foldl_cons, h n (hl n (List.mem_cons_self ..))]
      exact ih (fun k hk => hl k (List.mem_cons_of_mem _ hk))
  exact all _ (fun n hn => by simpa using (mem_upFrom.1 hn).2)

/-- A mode entered with no session open in MB0 to MB3: nothing that lasts changes but the mode (R305). -/
theorem lasting_setMode (mode : Mode) {s : State} (h : ∀ n, n < 4 → (mbxOf s n).session = none) :
    lasting g (setMode mode s) = lasting g (onGlb (fun b => { b with mode := mode }) s) := by
  have ht (γ : Type) (g : Glb → γ) : lasting g (tieAll (recompute (onGlb (fun b => { b with mode := mode }) s)))
      = lasting g (onGlb (fun b => { b with mode := mode }) s) := (lasting_tieAll _).trans (lasting_of_idle (only_keys ..))
  have hm (n : Nat) : mbxOf (tieAll (recompute (onGlb (fun b => { b with mode := mode }) s))) n = mbxOf s n :=
    mbxOf_congr (congrArg Lasting.mbx (ht Glb id)) n
  exact lasting_ite (by rw [closeEnrolment_none (fun n hn => by rw [hm]; exact h n hn)]; exact ht γ g) (ht γ g)

/-! The effects of a lifecycle change (Table 11-4) -/

theorem lasting_recogniseReset (code : Nat) (cold : Bool) (s : State) :
    lasting Glb.lifecycle (recogniseReset code cold s) = lasting Glb.lifecycle s := by
  unfold recogniseReset
  dsimp only
  split
  · rfl
  · exact lasting_ite rfl (lasting_mate ..)

/-- A soft reset recognised where none was pending is recorded with its code and its instant (R312). -/
theorem recogniseReset_first {s : State} (h : s.glb.pendingReset = none) {code : Nat} (hc : 2 ≤ code) (cold : Bool) :
    (recogniseReset code cold s).glb.pendingReset = some { code := code, cold := cold, soft := some s.time.ticks, hard := none } := by
  have hm (s : State) (c : Nat) : (mateHalting c s).glb = s.glb := (mate_only ..).2 .glb (by decide)
  rw [recogniseReset, h]
  dsimp only
  rw [if_neg (by omega), hm, if_pos hc, if_pos hc]
  rfl

theorem burn_programming (l : Lifecycle) (n : Nvm) : (burn l n).programming = none := by
  cases l <;> rfl

/-- What a lifecycle's change does beside the fuses and the answer, in the state v in which the command is answered. -/
def lifecycleEffect (s : State) (l : Lifecycle) (v : State) : State :=
  match l with
  | .sealed => settle s (setMode .provision v)
  | .debug => destroy 2 v
  | .retired => recogniseReset 5 true v
  | .blank => v

theorem lasting_lifecycleEffect (s : State) (l : Lifecycle) {v : State} (h : ∀ n, n < 4 → (mbxOf v n).session = none) :
    lasting Glb.lifecycle (lifecycleEffect s l v) = lasting Glb.lifecycle v := by
  match l with
  | .blank => rfl
  | .sealed =>
    have hs : lasting Glb.lifecycle (settle s (setMode .provision v)) = lasting Glb.lifecycle (setMode .provision v) :=
      congrArg (fun x : Lasting (Mode × Lifecycle) => { x with glb := x.glb.2 }) (lasting_settle s (setMode .provision v))
    exact hs.trans (lasting_setMode .provision h)
  | .debug => exact lasting_destroy ..
  | .retired => exact lasting_recogniseReset ..

theorem lifecycleEffect_mode (s : State) {v : State} (h : ∀ n, n < 4 → (mbxOf v n).session = none) :
    (lifecycleEffect s .sealed v).glb.mode = .provision :=
  congrArg (fun x : Lasting (Mode × Lifecycle) => x.glb.1) ((lasting_settle ..).trans (lasting_setMode .provision h))

/-- Fuse programming that ends, where no reset wins over it: the command is answered, then the lifecycle has its own effect. -/
theorem fuseProgramDone_next {s : State} (ha : asleep s = false) {l : Lifecycle} {m : Mb} (hp : s.nvm.programming = some (l, some m))
    (hw : l = .sealed → s.glb.pendingReset = none) :
    exec .fuseProgramDone s = .next (lifecycleEffect s l (fusesAnswered l m s)) := by
  have h : (l == .sealed && s.glb.pendingReset.isSome) = false := by
    cases l <;> simp_all
  simp only [exec_fuseProgramDone, execFuseProgramDone, hp, ha, h]
  cases l <;> rfl

/-- A recognised reset wins over the change to PROVISION (R305). -/
theorem fuseProgramDone_won {s : State} (ha : asleep s = false) {m : Mb} (hp : s.nvm.programming = some (.sealed, some m))
    (hw : s.glb.pendingReset.isSome = true) : exec .fuseProgramDone s = .next (blowFuses .sealed s) := by
  simp [execFuseProgramDone, hp, ha, hw]

/-- What every lifecycle change that is not overtaken leaves: the lifecycle and its fuses, no session, the command answered (R307, R369). -/
theorem lifecycleEffect_keeps {s : State} {m : Mb} (ho : (mbxOf s m.val).orphan = false) (l : Lifecycle) :
    (lifecycleEffect s l (fusesAnswered l m s)).glb.lifecycle = l
    ∧ (lifecycleEffect s l (fusesAnswered l m s)).nvm = burn l s.nvm
    ∧ (∀ n, n < 16 → (mbxOf (lifecycleEffect s l (fusesAnswered l m s)) n).session = none)
    ∧ (mbxOf (lifecycleEffect s l (fusesAnswered l m s)) m.val).answer = some { status := .ok } := by
  obtain ⟨hg, hn, -⟩ := fusesAnswered_keeps l m s
  obtain ⟨hs, hr⟩ := fusesAnswered_mbx l ho
  have h := lasting_lifecycleEffect s l (fun n hn => hs n (by omega))
  have hm (n : Nat) := mbxOf_congr (congrArg Lasting.mbx h) n
  refine ⟨(congrArg Lasting.glb h).trans (congrArg Glb.lifecycle hg), (congrArg Lasting.nvm h).trans hn, fun n hn => ?_, ?_⟩
  · rw [hm]
    exact hs n hn
  · rw [hm]
    exact hr

/-- SEALED fuses blown while a reset is pending: no effect but the lifecycle's own and the sessions' end. -/
theorem fusesBlown_overtaken {s : State} {m : Mb} (ha : asleep s = false) (hp : s.nvm.programming = some (.sealed, some m))
    (hw : s.glb.pendingReset.isSome = true) : ∃ t, exec .fuseProgramDone s = .next t ∧ t.nvm = burn .sealed s.nvm
      ∧ t.glb = { s.glb with lifecycle := .sealed } ∧ (∀ n, n < 16 → (mbxOf t n).session = none)
      ∧ (mbxOf t m.val).answer = (mbxOf s m.val).answer := by
  obtain ⟨hg, hn, -⟩ := blowFuses_keeps .sealed s
  exact ⟨_, fuseProgramDone_won ha hp hw, hn, hg, fun n => (blowFuses_mbx .sealed s n).2.2, (blowFuses_mbx .sealed s m.val).1⟩

theorem lifecycleEffect_retired {s : State} (m : Mb) (h : s.glb.pendingReset = none) :
    (lifecycleEffect s .retired (fusesAnswered .retired m s)).glb.pendingReset
      = some { code := 5, cold := true, soft := some s.time.ticks, hard := none } := by
  obtain ⟨hg, -, ht⟩ := fusesAnswered_keeps .retired m s
  rw [← ht]
  exact recogniseReset_first (by rw [hg]; exact h) (by decide) true

/-- Settles O23: a halt's own steps keep its cause; a lost SerDes group and blown fuses change what lasts through the discards and
messages that follow them. -/
theorem clocksFusesAndScan : Obligations.ClocksFusesAndScan := by
  unfold Obligations.ClocksFusesAndScan
  refine ⟨fun s h => refclkSysLost_halts h, fun s k h => ⟨fun hk => ?_, fun hk => ?_⟩, fun s m l ha hp ho => ?_, fun s i => ?_⟩
  · obtain ⟨t, he, ht⟩ := refclkSgLost_lasting h hk
    refine ⟨t, he, congrArg Lasting.sgLost ht, fun q hq => ?_, ?_, congrArg Lasting.degrades ht⟩
    · have hc := sgPorts_contains q
      rw [hq] at hc
      rw [show (portOf t q.val).link = _ from congrFun (congrArg Lasting.links ht) q.val]
      dsimp only
      rw [hc]
      rfl
    · rw [show t.maint.degrade = s.maint.degrade ||| 4 from congrArg Lasting.degrade ht]
      simp
  · obtain ⟨u, he, hn, ht, hd⟩ := refclkSgRestored_next h hk
    have hl := lasting_settle s u
    refine ⟨_, he, ?_, fun hp => ?_, (congrArg Lasting.degrade hl).trans hd⟩
    · rw [show (settle s u).traffic.sgLost = u.traffic.sgLost from congrArg Lasting.sgLost hl, ht]
    · rw [settle_unpaired (by rw [paired, hn, ← paired, hp]), ht]
  · by_cases hw : l = .sealed ∧ s.glb.pendingReset.isSome = true
    · obtain ⟨rfl, hr⟩ := hw
      obtain ⟨t, he, hn, hg, hs, hans⟩ := fusesBlown_overtaken ha hp hr
      have hr' : s.glb.pendingReset ≠ none := by simpa [Option.isSome_iff_ne_none] using hr
      refine ⟨t, he, by rw [hn, burn_programming], by rw [hg], hs, fun h => ?_, fun _ => ⟨by rw [hn]; rfl, fun h => ?_, fun _ => ?_⟩,
        nofun, nofun⟩
      · exact absurd h (by simp [hr'])
      · exact absurd h hr'
      · exact ⟨by rw [hg], hans⟩
    · have hw' : l = .sealed → s.glb.pendingReset = none := fun e => by simpa [e] using hw
      obtain ⟨hl, hn, hs, hr⟩ := lifecycleEffect_keeps ho l
      refine ⟨_, fuseProgramDone_next ha hp hw', by rw [hn, burn_programming], hl, hs, fun _ => hr, ?_, ?_, ?_⟩
      · rintro rfl
        refine ⟨by rw [hn]; rfl, fun _ => lifecycleEffect_mode s (fun n hn => (fusesAnswered_mbx .sealed ho).1 n (by omega)), fun hp => ?_⟩
        simp [hw' rfl] at hp
      · rintro rfl
        exact ⟨by rw [hn]; rfl, destroy_keys 2 (fusesAnswered .debug m s)⟩
      · rintro rfl hp
        exact ⟨by rw [hn]; rfl, lifecycleEffect_retired m hp⟩
  · cases i <;> rfl

end Sys2Proof.Machine
end
